-- ==== Sys2Proof/Word.lean ====
section
/-! DEFINITION. The word types of the model, and the sparse table type used for register files and
other numbered things. The operations on tables stand in `Sys2Proof/Machine/Tbl.lean`. -/

namespace Sys2Proof

/-- A byte (R11). -/
abbrev Byte := BitVec 8

/-- A 64-bit word: a d register, a port of class d, a control-space register (R103, R36). -/
abbrev W := BitVec 64

/-- A 32-bit word: a slot of a bundle, a counter (R94). -/
abbrev W32 := BitVec 32

/-- A numbered family of like things, held sparsely: strictly rising numbers, each with a value that
is not the family's default. A number that is not listed has the default value. -/
abbrev Tbl (α : Type) := List (Nat × α)

end Sys2Proof
end

