-- ==== Sys2Proof/Syntax.lean ====
section
/-! DEFINITION. The commands of the block: one constructor of `Instr` per row of the opcode table,
with the operands the row takes. A command that a cell's bundle starts carries an `Iss`; a command
that stands for an event whose outcome the environment decides carries that outcome. -/

namespace Sys2Proof

/-- The source field of a move, after decoding (R97, R99): a port number, a 16-bit immediate, or the
32-bit literal of a long-immediate bundle (R105). -/
inductive Src where
  | port (p : BitVec 10)
  | imm (i : BitVec 16)
  | lit (l : BitVec 32)
  deriving DecidableEq, Repr

/-- How a request ends: with its data, with corrected data (R141, R288), after a parity error (R141, R214), with an
uncorrectable error (R74), or lost on its path, a bus error (R268). -/
inductive Ret where | ok | corrected | parity | uncorrectable | pathFail
  deriving DecidableEq, Repr
/-- One move of a bundle, issued on a core: the slot it stands in, its guard (R98), its source, and the
32-bit word of the bundle's other slot. With `Src.lit` the bundle is a long-immediate bundle: the move
is slot A's and `other` is not used (R105). `ret` is how the requests end that a call-gate sequence of the
bundle makes (R226); its `parity` is a parity error found in the running register bank (R214). `fret` is how the write of
a gate frame ends (R226). `vret` is how
the read of the vector-table granule ends when the bundle faults (R209). -/
structure Iss where
  core  : Nat
  slotB : Bool
  gsel  : BitVec 3
  ginv  : Bool
  src   : Src
  other : BitVec 32
  ret   : Ret := .ok
  fret  : Ret := .ok
  vret  : Ret := .ok
  deriving DecidableEq, Repr

/-- What a queue manager meets while it performs an operation (R321): nothing, a corrected or an
uncorrectable error in the descriptor, an uncorrectable error in the ring, a bus error at the read of the
descriptor, one at the write-back of an evicted descriptor, or an uncorrectable error in the ring as a blocked enqueue
is retried after a dequeue. -/
inductive QErr where
  | none | descCorrected | descBad | ringBad | tableBus | backBus | retryBad
  deriving DecidableEq, Repr
inductive Acc where | load | store | fetch | capStore
  deriving DecidableEq, Repr
/-- Where a Dunzia message comes from (R494): a CAN FD controller, a UDP source address and port, or the PCIe
mailbox. -/
inductive Carrier where
  | can (ctl : Bool)
  | udp (addr port : Nat)
  | pcie
  deriving DecidableEq, Repr
/-- A carrier unit as received (R494 to R499): whether a CAN frame is a CAN FD data frame, the length field that
goes with it (of the UDP header, or reqlen), and the bytes of the frame, datagram or request buffer. -/
structure Msg where
  carrier : Carrier
  fd      : Bool
  len     : Nat
  bytes   : List Byte
  /-- What the unit is addressed to: a CAN frame's identifier, or a datagram's destination port (R494). -/
  dst     : Nat
  /-- A datagram's destination address (R494, R496). -/
  addr    : Nat := 0
  /-- A datagram is a fragment (R496). -/
  frag    : Bool := false
  /-- The reqlen write finds the message before it not taken yet: reqbusy is 1 (R497; when the buffer is free again
  comes with the command: DESIGN CHOICE, log entry 111). -/
  busy    : Bool := false
  /-- The addresses of the accesses that meet a bus error as the message is handled (R288). -/
  bus     : List Nat := []
  deriving DecidableEq, Repr
/-- Which writes of a record to the two copies of the settings journal succeed (R477). -/
structure NorOk where
  first  : Bool := true
  second : Bool := true
  deriving DecidableEq, Repr
/-- A received Ethernet frame: its lane, its arrival time in units of 2^-16 ns (R324), whether its FCS and
coding are good, whether the lane's input buffer has room, and its bytes from the destination MAC up to
the FCS. -/
structure Frame where
  lane  : Nat
  stamp : Nat
  good  : Bool
  room  : Bool
  bytes : List Byte
  /-- The addresses of the ring and header writes that meet a bus error as the frame is processed (R362). -/
  bus   : List Nat := []
  deriving DecidableEq, Repr
/-- The PTP messages that a port sends at an interval (R406). -/
inductive PtpSend where | announce | sync | pdelayReq
  deriving DecidableEq, Repr
/-- An IRIG-B frame as decoded (R413): its format, B000 to B007; the stamp of its on-time edge in units of
2^-16 ns; the BCD year field; day of the year from 1 and second of the day, 86,400 in an inserted second; and
of the extension the parity's correctness, year, leap second pending with its sign (added or not), local offset
in minutes and time quality. -/
structure IrigFrame where
  code    : Nat
  stamp   : Nat
  year    : Nat
  day     : Nat
  sod     : Nat
  parity  : Bool
  xyear   : Nat
  leap    : Option Bool
  offset  : Int
  quality : Nat
  deriving DecidableEq, Repr
/-- The partner as the modules find each other (R447): its node number and serial, the compartments that it
records as active, and those that it runs as active now. -/
structure Partner where
  node   : Nat
  serial : List Byte
  active : List Nat
  runs   : List Nat
  deriving DecidableEq, Repr
/-- The place that Monarch gives a thread (R430, R441): cell, slot, thread tag, and the cocoon's virtual and
physical address. -/
structure Seat where
  cell : Nat
  slot : Nat
  tag  : Nat
  cva  : Nat
  cpa  : Nat
  deriving DecidableEq, Repr
/-- A gate region that Monarch uses (R433): its gate and number, its first and last page, and its attributes. -/
structure GateSpan where
  gate   : Nat
  region : Nat
  lo     : Nat
  hi     : Nat
  attr   : BitVec 64
  deriving DecidableEq, Repr
/-- What Monarch decides for a compartment: the result code of R429, the ASID, the seats of its threads, the
virtual and physical address of each object, the virtual address of each granted grid's ring, the 8-byte
writes of translation tables that the instance of a region makes for it (region, address, value), and the gate regions
that it sets up or changes. -/
structure Placement where
  code   : Nat
  asid   : Nat
  seats  : List Seat
  objs   : List (Nat × Nat)
  rings  : List (Nat × Nat)
  writes : List (Nat × Nat × BitVec 64)
  gates  : List GateSpan := []
  deriving DecidableEq, Repr
/-- What Monarch chooses at the end of an epoch (R436): a compartment restarted from its manifest, re-placed, left
stopped or handed to the partner; a migration abandoned; a stopped cell restarted; a migration started; the ring and header
array of a grid moved, with the writes of tables that map it; a block's level or state; a proposal; and any other write
that the instance of a region makes. -/
inductive MonarchAct where
  | restart (cid : Nat) (p : Placement)
  | replace (cid : Nat) (p : Placement)
  | leave (cid : Nat)
  | handOver (cid : Nat)
  | abandon (cid : Nat)
  | restartCell (cell : Nat)
  | migrate (cid : Nat) (p : Placement)
  | ring (grid rbase hbase : Nat) (writes : List (Nat × Nat × BitVec 64))
  | level (block k : Nat)
  | blockState (block bst cen : Nat)
  | propose (kind target arg : Nat) (gain : BitVec 32) (place : Option Placement)
  | act (region addr : Nat) (v : BitVec 64)
  deriving DecidableEq, Repr
/-- What a start meets (R541, R558, R564): whether the known-answer tests of engines 0 to 3 pass, whether a copy of
the sealed store passes its tag, and whether flash reads without an error. -/
structure BootEnv where
  kat   : Bool
  store : Bool
  flash : Bool
  deriving DecidableEq, Repr

/-- A core, and how a read of its event ends: of the vector-table granule at an entry (R209); and the addresses at which the
memory accesses of a unit that its event commands meet a bus error (R377, R388). -/
structure CoreRead where
  core : Nat
  ret  : Ret
  bus  : List Nat := []
  /-- What a queue manager meets that the event commands (R321). -/
  q    : QErr := .none
  deriving DecidableEq, Repr

/-- How the read of an event ends, and how the read of the vector-table granule does when the event raises a fault
(R209). -/
structure EventRet where
  ret  : Ret
  vret : Ret := .ok
  deriving DecidableEq, Repr

/-- How a store ends, and the addresses at which the memory accesses of a unit that it commands meet a bus error (R377,
R388). -/
structure BusRet where
  ret : Ret
  bus : List Nat := []
  /-- What a queue manager meets that it commands (R321). -/
  q   : QErr := .none
  deriving DecidableEq, Repr

/-- A value of the entry word or of cctl, and how the read of the ENTRY granule that it names, or of the vector-table
granule of its entry, ends (R209). -/
structure EntryVal where
  v   : W
  ret : Ret
  deriving DecidableEq, Repr

/-- How a table read of a walk ends, and which of the walk's reads it is (R243, R244). -/
structure WalkRead where
  ret : Ret
  at_ : Nat
  /-- How the read of the vector-table granule ends when the walk raises a fault (R209). -/
  vret : Ret := .ok
  deriving DecidableEq, Repr

/-- The end of a stop's flush: how the accesses of one group of one thread slot end (R200, R217). -/
structure FlushRead where
  core  : Nat
  ret   : Ret := .ok
  slot  : Nat := 0
  group : Nat := 0
  deriving DecidableEq, Repr

/-- An excursion of a binary input: the input, and how long its samples stood at the other level, in units of 2^-32 ns
(R393). -/
structure Excursion where
  k   : Nat
  len : Nat
  deriving DecidableEq, Repr

/-- A grid, a subscription, a core or an entry of the trip unit, and the addresses at which the memory accesses of its
unit meet a bus error (R362, R377). -/
structure BusRun where
  n   : Nat
  bus : List Nat
  deriving DecidableEq, Repr

/-- A queue, or a DMA engine, and what the queue manager meets in the operation on it (R321). -/
structure QRun where
  n : Nat
  e : QErr := .none
  deriving DecidableEq, Repr

/-- A mirror copy: the staging area in which it stands, and its objects (R446). -/
structure MirrorCopy where
  stage : Nat
  objs  : List (List Byte)
  deriving DecidableEq, Repr

inductive Instr where
  /-- REGISTER_MOVE (R104). A move to a register, operand or control port that starts no unit operation, with the cross-class
  conversion applied; it also stands for writes to registers that have no row of their own. -/
  | registerMove (dst : BitVec 10) (m : Iss)
  /-- ALU_T_ADD (R127). alu0 or alu1 writes o + t to its result port. -/
  | aluTAdd (unit1 : Bool) (m : Iss)
  /-- ALU_T_SUB (R127). The alu writes o - t. -/
  | aluTSub (unit1 : Bool) (m : Iss)
  /-- ALU_T_AND (R127). The alu writes o and t. -/
  | aluTAnd (unit1 : Bool) (m : Iss)
  /-- ALU_T_OR (R127). The alu writes o or t. -/
  | aluTOr (unit1 : Bool) (m : Iss)
  /-- ALU_T_XOR (R127). The alu writes o xor t. -/
  | aluTXor (unit1 : Bool) (m : Iss)
  /-- ALU_T_ANDN (R127). The alu writes o and not t. -/
  | aluTAndn (unit1 : Bool) (m : Iss)
  /-- ALU_T_NEG (R137). The alu writes 0 - t, wrapping at INT64_MIN. -/
  | aluTNeg (unit1 : Bool) (m : Iss)
  /-- ALU_T_MIN (R127). The alu writes the signed minimum. -/
  | aluTMin (unit1 : Bool) (m : Iss)
  /-- ALU_T_MAX (R127). The alu writes the signed maximum. -/
  | aluTMax (unit1 : Bool) (m : Iss)
  /-- ALU_T_MINU (R127). The alu writes the unsigned minimum. -/
  | aluTMinu (unit1 : Bool) (m : Iss)
  /-- ALU_T_MAXU (R127). The alu writes the unsigned maximum. -/
  | aluTMaxu (unit1 : Bool) (m : Iss)
  /-- ALU_T_EQ (R128). A compare that writes o = t to the result port and to the guard that og selects. -/
  | aluTEq (unit1 : Bool) (m : Iss)
  /-- ALU_T_NE (R128). A compare of o ≠ t. -/
  | aluTNe (unit1 : Bool) (m : Iss)
  /-- ALU_T_LT (R128). A signed compare of o < t. -/
  | aluTLt (unit1 : Bool) (m : Iss)
  /-- ALU_T_LTU (R128). An unsigned compare of o < t. -/
  | aluTLtu (unit1 : Bool) (m : Iss)
  /-- ALU_T_GE (R128). A signed compare of o ≥ t. -/
  | aluTGe (unit1 : Bool) (m : Iss)
  /-- ALU_T_GEU (R128). An unsigned compare of o ≥ t. -/
  | aluTGeu (unit1 : Bool) (m : Iss)
  /-- ALU_T_TST (R128). A compare of (o and t) ≠ 0. -/
  | aluTTst (unit1 : Bool) (m : Iss)
  /-- ALU_T_TSTZ (R128). A compare of (o and t) = 0. -/
  | aluTTstz (unit1 : Bool) (m : Iss)
  /-- MUL_T_MUL (R129). mul starts the low 64 bits of o × t. -/
  | mulTMul (m : Iss)
  /-- MUL_T_MULH (R129). mul starts the high 64 bits of the signed product. -/
  | mulTMulh (m : Iss)
  /-- MUL_T_MULHU (R129). mul starts the high 64 bits of the unsigned product. -/
  | mulTMulhu (m : Iss)
  /-- MUL_T_MULHSU (R129). mul starts the high 64 bits of the signed-by-unsigned product. -/
  | mulTMulhsu (m : Iss)
  /-- MUL_RESULT (R123). After its 3-cycle latency, a mul operation writes mul.r in the bank that triggered it. -/
  | mulResult (core : Nat)
  /-- DIV_T_DIVS (R130). div starts a signed division, or holds the trigger or abandons an earlier division under the bank
  rules. -/
  | divTDivs (m : Iss)
  /-- DIV_T_DIVU (R130). div starts an unsigned division. -/
  | divTDivu (m : Iss)
  /-- DIV_RESULT (R131). A division writes div.r and div.rr together after its data-dependent latency. -/
  | divResult (core : Nat)
  /-- SHF_T_SHL (R135). shf writes o << t. -/
  | shfTShl (m : Iss)
  /-- SHF_T_SHR (R135). shf writes a logical right shift. -/
  | shfTShr (m : Iss)
  /-- SHF_T_SAR (R135). shf writes an arithmetic right shift. -/
  | shfTSar (m : Iss)
  /-- SHF_T_ROL (R135). shf writes a left rotate. -/
  | shfTRol (m : Iss)
  /-- SHF_T_ROR (R135). shf writes a right rotate. -/
  | shfTRor (m : Iss)
  /-- SHF_T_EXT (R136). shf writes a zero-extended field extract. -/
  | shfTExt (m : Iss)
  /-- SHF_T_EXTS (R136). shf writes a sign-extended field extract. -/
  | shfTExts (m : Iss)
  /-- SHF_T_INS (R136). shf writes o with a field replaced from om. -/
  | shfTIns (m : Iss)
  /-- SHF_T_CLZ (R135). shf writes the count of leading zeros of t. -/
  | shfTClz (m : Iss)
  /-- SHF_T_CTZ (R135). shf writes the count of trailing zeros of t. -/
  | shfTCtz (m : Iss)
  /-- SHF_T_POPC (R135). shf writes the population count of t. -/
  | shfTPopc (m : Iss)
  /-- SHF_T_BSWAP (R135). shf writes t with its bytes reversed. -/
  | shfTBswap (m : Iss)
  /-- MEM_T_LDB (R140). A 1-byte sign-extended load is checked, translated and started. -/
  | memTLdb (m : Iss)
  /-- MEM_T_LDBU (R140). A 1-byte zero-extended load. -/
  | memTLdbu (m : Iss)
  /-- MEM_T_LDH (R140). A 2-byte sign-extended load. -/
  | memTLdh (m : Iss)
  /-- MEM_T_LDHU (R140). A 2-byte zero-extended load. -/
  | memTLdhu (m : Iss)
  /-- MEM_T_LDW (R140). A 4-byte sign-extended load. -/
  | memTLdw (m : Iss)
  /-- MEM_T_LDWU (R140). A 4-byte zero-extended load. -/
  | memTLdwu (m : Iss)
  /-- MEM_T_LDD (R140). An 8-byte load, split at a 4 KiB boundary under R146. -/
  | memTLdd (m : Iss)
  /-- MEM_T_LDC (R60). A 16-byte capability load to mem.rc, with the tag ANDed with LDC. -/
  | memTLdc (m : Iss)
  /-- MEM_T_STB (R143). A 1-byte store is checked, translated and placed in the store buffer. -/
  | memTStb (m : Iss)
  /-- MEM_T_STH (R143). A 2-byte store. -/
  | memTSth (m : Iss)
  /-- MEM_T_STW (R143). A 4-byte store. -/
  | memTStw (m : Iss)
  /-- MEM_T_STD (R143). An 8-byte store, split into two buffer entries at a 4 KiB boundary. -/
  | memTStd (m : Iss)
  /-- MEM_T_STC (R59). A capability store of mem.ocv with its tag, under the rights rules. -/
  | memTStc (m : Iss)
  /-- MEM_T_SMM (R147). A block save of the masked registers to the save area starts. -/
  | memTSmm (m : Iss)
  /-- MEM_T_LMM (R147). A block restore of the masked registers from the save area starts. -/
  | memTLmm (m : Iss)
  /-- MEM_T_PF (R142). A line is prefetched into the data cache, or dropped silently when it fails its checks. -/
  | memTPf (m : Iss)
  /-- BLOCK_ELEMENT (R148). One element of a block save or restore completes and sets its done bit; the last element
  completes the operation. -/
  | blockElement (core : Nat) (r : EventRet)
  /-- LOAD_DATA_RETURN (R140). Load data arrives and is written to mem.r or mem.rc, ending any stall, or the load ends in a
  fault or machine check. -/
  | loadDataReturn (core : Nat) (r : EventRet)
  /-- INSTRUCTION_FETCH_FILL (R176). An instruction-cache miss completes and the held bundle reaches issue. -/
  | instructionFetchFill (core : Nat) (r : EventRet)
  /-- STORE_PERFORMED (R278). A buffered store is acknowledged at its home and becomes visible, freeing its buffer entry. -/
  | storePerformed (core i : Nat) (r : BusRet)
  /-- CAP_T_SETADDR (R67). cap replaces the operand's address, clearing the tag when it leaves the representable region. -/
  | capTSetaddr (m : Iss)
  /-- CAP_T_INCADDR (R67). cap adds a signed offset to the address. -/
  | capTIncaddr (m : Iss)
  /-- CAP_T_BND (R56). cap sets rounded bounds. -/
  | capTBnd (m : Iss)
  /-- CAP_T_BNDE (R56). cap sets exact bounds, or faults. -/
  | capTBnde (m : Iss)
  /-- CAP_T_ANDPERM (R67). cap ANDs the permissions with a mask. -/
  | capTAndperm (m : Iss)
  /-- CAP_T_SEAL (R63). cap seals the operand with the authority's address as otype. -/
  | capTSeal (m : Iss)
  /-- CAP_T_UNSEAL (R64). cap unseals the operand under a matching authority. -/
  | capTUnseal (m : Iss)
  /-- CAP_T_LAND (R65). cap seals an executable capability as a sealed entry. -/
  | capTLand (m : Iss)
  /-- CAP_T_GRAIN (R57). cap returns the granule that a length needs. -/
  | capTGrain (m : Iss)
  /-- CAP_T_COVER (R57). cap returns the length that cap.t.bnd would give. -/
  | capTCover (m : Iss)
  /-- CAP_T_GETBASE (R53). cap returns the base modulo 2^64. -/
  | capTGetbase (m : Iss)
  /-- CAP_T_GETLEN (R53). cap returns the length, saturated. -/
  | capTGetlen (m : Iss)
  /-- CAP_T_GETMETA (R67). cap returns perms, otype and tag. -/
  | capTGetmeta (m : Iss)
  /-- CAP_T_SUBSET (R67). cap tests whether the operand lies within the authority. -/
  | capTSubset (m : Iss)
  /-- CAP_T_CHK (R70). cap returns the cause that a described access would raise. -/
  | capTChk (m : Iss)
  /-- CAP_RESULT (R152). After 2 cycles, a cap operation writes cap.rc or cap.rd. -/
  | capResult (core : Nat)
  /-- BR_T_BR (R153). A pc-relative branch within pcc, with two delay bundles. -/
  | brTBr (m : Iss)
  /-- BR_T_CALL (R153). A pc-relative branch that writes the sealed-entry link to c15. -/
  | brTCall (m : Iss)
  /-- BR_T_JMP (R153). An absolute jump within pcc. -/
  | brTJmp (m : Iss)
  /-- BR_T_JC (R154). A branch through a capability, installed unsealed as pcc after its checks. -/
  | brTJc (m : Iss)
  /-- BR_T_CALLC (R154). A branch through a capability that also writes the link. -/
  | brTCallc (m : Iss)
  /-- BR_T_GATE (R223). A call-gate entry: descriptor checked, busy set, frame written, stack and RETURN capability
  installed. -/
  | brTGate (m : Iss)
  /-- BR_T_GRET (R225). A call-gate return through a RETURN capability, checked against the caller and clearing busy. -/
  | brTGret (m : Iss)
  /-- BR_T_ERET (R210). An exception return that checks fpcc, leaves the level and resumes the interrupted context. -/
  | brTEret (m : Iss)
  /-- BR_T_REP (R112). An interruptible repeat prefix for the next bundle. -/
  | brTRep (m : Iss)
  /-- BR_T_REPN (R113). A non-interruptible repeat prefix, with a count of at most 64. -/
  | brTRepn (m : Iss)
  /-- REPETITION (R185). One repetition of a repeated bundle issues, with its guards re-evaluated. -/
  | repetition (core : Nat)
  /-- MAC_T_DOT (R155). mac adds the two-lane dot product to the selected accumulator. -/
  | macTDot (m : Iss)
  /-- MAC_T_DOTN (R155). mac subtracts the dot product. -/
  | macTDotn (m : Iss)
  /-- MAC_T_CRE (R155). mac adds the real part of a complex product. -/
  | macTCre (m : Iss)
  /-- MAC_T_CIM (R155). mac adds the imaginary part of a complex product. -/
  | macTCim (m : Iss)
  /-- MAC_T_MUL (R155). mac sets the accumulator to the dot product. -/
  | macTMul (m : Iss)
  /-- MAC_T_SET (R155). mac sets the accumulator to t, sign-extended. -/
  | macTSet (m : Iss)
  /-- MAC_T_SAR (R155). mac shifts the accumulator right, arithmetically. -/
  | macTSar (m : Iss)
  /-- MAC_T_RDS (R156). mac reads out the accumulator shifted and saturated to 64 bits. -/
  | macTRds (m : Iss)
  /-- MAC_T_RDW (R156). mac reads out the accumulator saturated to 32 bits. -/
  | macTRdw (m : Iss)
  /-- MAC_T_RDR (R156). mac reads out the accumulator rounded and saturated. -/
  | macTRdr (m : Iss)
  /-- MAC_T_RDT (R156). mac reads out the accumulator truncated. -/
  | macTRdt (m : Iss)
  /-- MAC_T_STCLR (R156). mac clears the selected sticky saturation flags. -/
  | macTStclr (m : Iss)
  /-- MAC_ACCUMULATE_WRITE (R155). After 4 cycles, an accumulate writes its accumulator, saturating and setting the sticky
  flag on overflow. -/
  | macAccumulateWrite (core : Nat)
  /-- MAC_READOUT_WRITE (R156). After 2 cycles, a read-out writes mac.r. -/
  | macReadoutWrite (core : Nat)
  /-- PH_T_DFT (R159). ph starts a least-squares phasor fit at the nominal angle. -/
  | phTDft (m : Iss)
  /-- PH_T_TRK (R159). ph starts a phasor fit with frequency tracking. -/
  | phTTrk (m : Iss)
  /-- PH_RESULT (R161). A phasor fit writes ph.r and ph.rf together, and the next waiting trigger starts. -/
  | phResult (core : Nat)
  /-- Q_T_ENQ (R164). The q unit checks its operands and sends an enqueue of a buffer to the queue manager, stalling the
  cell. -/
  | qTEnq (m : Iss)
  /-- Q_T_ENQD (R163). An enqueue of 8 bytes from the trigger operand. -/
  | qTEnqd (m : Iss)
  /-- Q_T_DEQ (R164). A dequeue into the message buffer. -/
  | qTDeq (m : Iss)
  /-- Q_T_DEQD (R163). A dequeue of at most 8 bytes into q.rd. -/
  | qTDeqd (m : Iss)
  /-- Q_T_WAIT (R166). A wait until the queue is non-empty, blocking the thread at level 0. -/
  | qTWait (m : Iss)
  /-- Q_T_ARM (R313). The queue's doorbell is armed, with the issuing cell as target. -/
  | qTArm (m : Iss)
  /-- Q_T_STAT (R163). A read of the queue's count. -/
  | qTStat (m : Iss)
  /-- QUEUE_OPERATION (R307). The queue manager performs one queue operation atomically, in arrival order. -/
  | queueOperation (region : Nat) (e : QErr)
  /-- Q_ANSWER (R164). The queue manager's answer reaches the cell, writes q.r and ends the stall. -/
  | qAnswer (e : CoreRead)
  /-- THREAD_WAKE (R196). A queue manager's wake signal reaches the cell and makes the blocked thread ready. -/
  | threadWake (core : Nat)
  /-- TRP_T_INV (R167). The trp unit checks a TRIP voter capability and sends an invocation to the trip unit. -/
  | trpTInv (m : Iss)
  /-- TRP_T_REL (R167). A release request for the object's latch is sent. -/
  | trpTRel (m : Iss)
  /-- TRP_T_QUERY (R167). A query of the object's state is sent. -/
  | trpTQuery (m : Iss)
  /-- TRP_ACK (R167). The trip unit's acknowledgement writes trp.r in trigger order. -/
  | trpAck (core : Nat)
  /-- TRIP_INVOCATION (R372). The trip unit time-stamps an invocation and handles it against the vote rule. -/
  | tripInvocation (core : BusRun)
  /-- TRIP_RELEASE (R375). The trip unit handles a release, clearing act in latched mode after tpulse. -/
  | tripRelease (core : BusRun)
  /-- TRIP_QUERY (R376). The trip unit returns the state word of an object. -/
  | tripQuery (core : Nat)
  /-- SYS_T_INVLEAF (R251). A leaf invalidation over a range is queued for broadcast to the scope. -/
  | sysTInvleaf (m : Iss)
  /-- SYS_T_INVWALK (R251). A leaf and walk-cache invalidation is queued. -/
  | sysTInvwalk (m : Iss)
  /-- INVALIDATION_RELEASE (R252). An invalidation leaves the issuing cell once the earlier stores have drained. -/
  | invalidationRelease (core : Nat)
  /-- INVALIDATION_ACK (R253). A cell in scope removes the matching entries and acknowledges once its conditions hold. -/
  | invalidationAck (issuer target : Nat)
  /-- SYS_T_INVSYNC (R253). The cell waits for every invalidation it issued to be acknowledged. -/
  | sysTInvsync (m : Iss)
  /-- INVSYNC_COMPLETE (R253). The last acknowledgement arrives and the invsync stall ends. -/
  | invsyncComplete (core : Nat)
  /-- SYS_T_FENCE (R281). A fence on earlier loads and stores, or on stores only. -/
  | sysTFence (m : Iss)
  /-- FENCE_COMPLETE (R281). The fenced loads and stores are done and issue resumes. -/
  | fenceComplete (core : Nat)
  /-- SYS_T_GFENCE (R266). A fence is sent to a target gate after the store buffer drains. -/
  | sysTGfence (m : Iss)
  /-- GATE_FENCE_COMPLETE (R266). The gate has completed everything it accepted before the fence. -/
  | gateFenceComplete (core : Nat)
  /-- SYS_T_KRSET (R171). Sets the rights of one protection key. -/
  | sysTKrset (m : Iss)
  /-- SYS_T_CTLRD (R172). Reads a control-block word through a CONTROL or SYSREG capability. -/
  | sysTCtlrd (m : Iss)
  /-- SYS_T_CTLWR (R172). Writes a control-block word. -/
  | sysTCtlwr (m : Iss)
  /-- SYS_T_PWR (R523). A power request that stores sys.o to a regulator word. -/
  | sysTPwr (m : Iss)
  /-- SYS_T_YIELD (R169). Yields to the scheduler at level 0, or waits for an interrupt at levels 1 to 7. -/
  | sysTYield (m : Iss)
  /-- SYS_T_CYC (R177). Returns the bank's cycle count. -/
  | sysTCyc (m : Iss)
  /-- SYS_T_TIME (R169). Returns the timebase seconds and nanoseconds. -/
  | sysTTime (m : Iss)
  /-- SYS_RESULT (R170). After 2 cycles, a sys operation writes sys.r. -/
  | sysResult (e : CoreRead)
  /-- EXCEPTION_ENTRY (R208). A deliverable fault, interrupt, LSE, SPILL or MCHK enters its level's bank at an interrupt
  point. -/
  | exceptionEntry (e : CoreRead)
  /-- THREAD_SWITCH (R196). The scheduler chooses a ready thread at an interrupt point and switches banks. -/
  | threadSwitch (core : Nat)
  /-- QUANTUM_EXPIRY (R196). The running thread uses up its quantum. -/
  | quantumExpiry (core : Nat)
  /-- COCOON_RESTORE (R197). A thread bank is restored from the cocoon and the thread runs. -/
  | cocoonRestore (core asid : Nat) (r : Ret) (g : Nat)
  /-- SPILL_COMPLETE (R198). The cocoon writes of a victim bank are acknowledged and the bank becomes free. -/
  | spillComplete (core : Nat) (r : Ret) (g : Nat)
  /-- TCMP_WRITE (R215). A write of tcmp arms or disarms the timer compare. -/
  | tcmpWrite (init core : Nat) (v : W)
  /-- TCMP_FIRE (R215). The timebase passes an armed tcmp and raises source 0 once. -/
  | tcmpFire (core : Nat)
  /-- SWI (R215). A write to swi raises source 1. -/
  | swi (init core : Nat) (v : W)
  /-- IMAP_CLR (R216). A map-entry write with clr set clears the source's pend bit. -/
  | imapClr (init core src : Nat) (v : W)
  /-- ENTRY_WRITE (R209). A write of the entry word reads and latches the ENTRY granule, or refuses it. -/
  | entryWrite (init core : Nat) (v : EntryVal)
  /-- CCTL_RUN_START (R219). cctl.run = 1 starts a stopped cell with a START entry at level 1. -/
  | cctlRunStart (init core : Nat) (v : EntryVal)
  /-- CCTL_STOP_REQUEST (R217). cctl.run = 0 requests a stop at the next interrupt point. -/
  | cctlStopRequest (init core : Nat) (v : W)
  /-- CCTL_RST (R219). cctl.rst resets the cell, leaving it stopped. -/
  | cctlRst (init core : Nat) (v : W)
  /-- CELL_STOP (R217). The cell stops issue, writes the stop record and starts the flush of the thread banks. -/
  | cellStop (core : Nat)
  /-- CELL_STOP_FLUSH_DONE (R217). The stop flush ends; the lost mask and stopped are set and the block is notified. -/
  | cellStopFlushDone (e : FlushRead)
  /-- BKLD (R218). A write of bkld starts a load of a level bank from a save area, or is refused. -/
  | bkld (init core : Nat) (v : W)
  /-- BKLD_COMPLETE (R218). A bank load ends, clearing the bank's poison. -/
  | bkldComplete (core : Nat) (r : Ret)
  /-- SLOT_STATE_WRITE (R201). A slot state write sets a thread ready, suspended or free, cancelling its waits. -/
  | slotStateWrite (init core slot : Nat) (v : W)
  /-- SLOT_CTX_INSTALL (R201). A write of ctx checks the CONTEXT capability and installs the thread ready. -/
  | slotCtxInstall (init core slot : Nat) (v : W)
  /-- TRANSLATION_WALK (R243). A TLB miss is walked through the tables and ends in a fill or a translation fault. -/
  | translationWalk (core : Nat) (va : W) (acc : Acc) (r : WalkRead)
  /-- GATE_ATTR_WRITE (R264). A write of attr commits or disables a gate region, or is refused. -/
  | gateAttrWrite (init gate region : Nat) (v : W)
  /-- GATE_CONFIG_APPLY (R265). After draining its accepted requests, the gate applies the configuration write and releases
  the held requests. -/
  | gateConfigApply (gate : Nat)
  /-- GATE_CLEAR (R260). gclr clears the gate's counters and event words. -/
  | gateClear (init gate : Nat) (v : W)
  /-- CONTROL_SPACE_WRITE (R37). A write to a control-space register field that has no row of its own. -/
  | controlSpaceWrite (init addr : Nat) (v : W)
  /-- DMA_DESCRIPTOR (R274). A DMA engine takes the next descriptor from its command queue, checks it and starts the copy. -/
  | dmaDescriptor (region : Nat) (engine : QRun)
  /-- DMA_COMPLETION (R274). A transfer ends and its completion is posted. -/
  | dmaCompletion (region engine : Nat) (failAt : Option Nat)
  /-- WAY_CONFIG_WRITE (R285). A wcfg write starts a way change between cache and scratch. -/
  | wayConfigWrite (init block : Nat) (v : W)
  /-- WAY_CHANGE_COMPLETE (R285). The way change ends and wbusy clears. -/
  | wayChangeComplete (block : Nat)
  /-- WKICK (R287). A write of wkick restarts the mode-1 watchdog count. -/
  | wkick (init core : Nat) (v : W)
  /-- WATCHDOG_HALF_PERIOD (R287). The watchdog reaches half its period and raises source 2. -/
  | watchdogHalfPeriod (core : Nat)
  /-- WATCHDOG_EXPIRY (R287). At the full period the block stops and resets the cell and notifies Monarch. -/
  | watchdogExpiry (core : Nat)
  /-- ARBITRATION_TIMEOUT (R286). A request waits 10 µs in a block arbiter and is recorded. -/
  | arbitrationTimeout (block init addr : Nat)
  /-- PATROL_SCRUB (R289). The DDR4 scrub reads and corrects lines in the background and counts each pass. -/
  | patrolScrub (region : Nat) (corrected : Option (Nat × Nat)) (passDone : Bool)
  /-- FLIT_REPLAY (R290). A flit that fails its CRC is replayed and counted. -/
  | flitReplay (link : Nat)
  /-- RETRAIN_COMPLETE (R290). A retrain completes and the link resumes. -/
  | retrainComplete (link : Nat)
  /-- LINK_FAILED (R290). A link fails by retrain timeout or repeated retrains. -/
  | linkFailed (link : Nat)
  /-- FATAL_ERROR (R292). A fatal error asserts FAULT_N and resets the chip. -/
  | fatalError (code : Byte)
  /-- ECLR (R293). eclr clears an error record except its fatal fields. -/
  | eclr (init record : Nat) (v : W)
  /-- QBASE_WRITE (R318). The first write of qbase in region 0 sets the queue table base. -/
  | qbaseWrite (init region : Nat) (v : W)
  /-- QBASE_IN_FORCE (R318). The base takes force at every manager and cell and ready is set. -/
  | qbaseInForce
  /-- QUEUE_CREATE (R319). The create command enables a queue from the staging words. -/
  | queueCreate (init region : Nat) (queue : QRun)
  /-- QUEUE_DISABLE (R319). The disable command disables a queue and wakes its waiters. -/
  | queueDisable (init region : Nat) (queue : QRun)
  /-- QUEUE_READ (R319). The read command copies a descriptor into the staging words. -/
  | queueRead (init region : Nat) (queue : QRun)
  /-- QUEUE_RETARGET (R319). The retarget command moves a doorbell's dcell when the old value matches. -/
  | queueRetarget (init region : Nat) (queue : QRun)
  /-- QUEUE_CLEAR_COUNTERS (R319). The clear counters command zeroes a queue's counters and peak. -/
  | queueClearCounters (init region : Nat) (queue : QRun)
  /-- HARDWARE_POSTING (R315). A hardware producer posts a message to a queue, dropping it when full, too long or disabled. -/
  | hardwarePosting (producer : Nat) (e : QErr)
  /-- FRAME_RECEIVE (R325). A lane's ingress engine takes in a received frame and handles it through the steps of its table. -/
  | frameReceive (f : Frame)
  /-- PLANE_DEADLINE (R352). A plane's deadline passes and the plane completes with what it holds. -/
  | planeDeadline (grid : BusRun)
  /-- DUPLICATE_ENTRY_FORGET (R329). A duplicate-table entry expires after forget ms, counting a single copy. -/
  | duplicateEntryForget (pair : Nat) (smac : BitVec 48) (seq : BitVec 16)
  /-- SUPERVISION_TRANSMIT (R330). Every 2 s a pair sends a supervision frame on each lane. -/
  | supervisionTransmit (pair : Nat)
  /-- STREAM_LOST (R343). The lost-stream timeout expires and the stream enters lost. -/
  | streamLost (sub : BusRun)
  /-- SUBSCRIPTION_COMMIT (R336). A write of en = 1 commits a sampled-value subscription after its checks. -/
  | subscriptionCommit (init sub : Nat) (v : W)
  /-- SUBSCRIPTION_DISABLE (R336). A write of en = 0 disables a subscription. -/
  | subscriptionDisable (init sub : Nat) (v : W)
  /-- GRID_COMMIT (R350). A grid's en write commits it and sets pidx to 0. -/
  | gridCommit (init grid : Nat) (v : W)
  /-- GRID_DISABLE (R337). A grid is disabled, or refused while enabled subscriptions name it. -/
  | gridDisable (init grid : Nat) (v : W)
  /-- PAIR_WORD_WRITE (R326). A pair word sets a redundancy pair's mode, or is refused. -/
  | pairWordWrite (init : Nat) (v : W)
  /-- SIMMODE_WRITE (R339). A simmode write starts or ends simulation takeovers. -/
  | simmodeWrite (init : Nat) (v : W)
  /-- SUBSCRIPTION_COUNTER_CLEAR (R338). sclr clears the selected subscription's counters. -/
  | subscriptionCounterClear (init : Nat) (v : W)
  /-- INGRESS_COUNTER_CLEAR (R338). The ingress gclr clears the lane, pair, grid, GOOSE and binary-input counters. -/
  | ingressCounterClear (init : Nat) (v : W)
  /-- TBASE_WRITE (R367). A write of tbase sets the trip table base, reaching cells within 1 µs. -/
  | tbaseWrite (init : Nat) (v : W)
  /-- TRIP_ENABLE (R388). The enable command reads, checks and installs a trip object or publication. -/
  | tripEnable (init : Nat) (idx : BusRun) (publication bad : Bool)
  /-- TRIP_DISABLE (R388). The disable command takes an entry out of service. -/
  | tripDisable (init : Nat) (idx : BusRun) (publication : Bool)
  /-- LOCKOUT_RESET (R375). The lockout reset command clears act of a latched or lockout object. -/
  | lockoutReset (init : Nat) (idx : BusRun)
  /-- TRIP_CLEAR_COUNTERS (R388). The clear counters command clears the entry's counters. -/
  | tripClearCounters (init idx : Nat) (publication : Bool)
  /-- TPULSE_EXPIRY (R375). A pulse-mode object's tpulse expires and act clears. -/
  | tpulseExpiry (obj : BusRun)
  /-- GOOSE_RETRANSMIT (R385). A publication's retransmission interval expires and the next frame is sent. -/
  | gooseRetransmit (pub : Nat) (bad : BitVec 4)
  /-- GOOSE_TIMEOUT (R392). A subscription's timeAllowedtoLive timer expires and a timeout message is posted. -/
  | gooseTimeout (sub : Nat)
  /-- GOOSE_SUBSCRIPTION_COMMIT (R390). A GOOSE subscription is committed or disabled by its en write. -/
  | gooseSubscriptionCommit (init sub : Nat) (v : W)
  /-- FORCE_WRITE (R379). A write of force drives trip outputs in maintenance, and is ignored otherwise. -/
  | forceWrite (init : Nat) (v : W)
  /-- BINARY_INPUT_CHANGE (R393). A new level passes the debounce time and is accepted, time-stamped and posted. -/
  | binaryInputChange (k : Nat) (level : Bool) (stamp : Nat)
  /-- BINARY_INPUT_GLITCH (R393). An excursion shorter than tdb is counted without an event. -/
  | binaryInputGlitch (e : Excursion)
  /-- CHATTER_SUPPRESSION_END (R394). A full second with few changes ends suppression of an input. -/
  | chatterSuppressionEnd (k : Nat)
  /-- SOURCE_INVALID (R405). The active source stops being valid and the timebase falls back or enters holdover. -/
  | sourceInvalid (src : Nat)
  /-- HOLDLIM_EXPIRY (R400). Holdover reaches holdlim and the timebase stops counting as locked. -/
  | holdlimExpiry
  /-- SOURCE_TAKEOVER (R405). A higher-ranked source valid for 10 s becomes active. -/
  | sourceTakeover (src : Nat)
  /-- TGO (R404). A write of tgo sets the free-running timebase, or is refused. -/
  | tgo (init : Nat) (v : W)
  /-- PTP_PORT_WRITE (R411). An accepted write of role or prof returns the port to INITIALIZING. -/
  | ptpPortWrite (init port : Nat) (v : W)
  /-- PTP_TRANSMIT (R406). A port's Announce, Sync or Pdelay_Req interval expires and the message is sent. -/
  | ptpTransmit (port : Nat) (kind : PtpSend)
  /-- IRIG_B_FRAME (R413). An IRIG-B frame is decoded and its on-time edge stamped. -/
  | irigBFrame (f : IrigFrame)
  /-- ONE_PPS_EDGE (R415). A 1PPS input edge is stamped and used, or rejected. -/
  | onePpsEdge (stamp : Nat) (rising : Bool)
  /-- IRIG_B_OUTPUT_FRAME (R414). At each timebase second the IRIG-B output sends a frame. -/
  | irigBOutputFrame
  /-- ONE_PPS_OUTPUT_PULSE (R415). The 1PPS output rises at each second plus pooff and falls pwid later. -/
  | onePpsOutputPulse (rise : Bool)
  /-- MANIFEST_LOAD (R426). A manifest written to 0x6010:01 is checked and queued for placement. -/
  | manifestLoad (sess : Nat) (bytes : List Byte)
  /-- MANIFEST_PLACED (R429). Placement of a manifest ends and its result is written. -/
  | manifestPlaced (cid : Nat) (choice : Placement)
  /-- M_UNLOAD (R429). A write of a cid unloads that compartment. -/
  | mUnload (sess cid : Nat)
  /-- EPOCH_END (R436). At each 1 ms epoch the coordinator decides re-placements, thermal limits, placements, moves, levels
  and power states. -/
  | epochEnd (acts : List MonarchAct)
  /-- MIGRATION_INSTALL (R440). The copy ends and the slots are installed on the new cell. -/
  | migrationInstall (cid : Nat)
  /-- BLOCK_TEMPERATURE_SAMPLE (R434). Every 100 µs Monarch reads each block's highest sensor. -/
  | blockTemperatureSample (block : Nat) (t0 t1 t2 t3 : BitVec 16)
  /-- ACTIVATION_RELEASE (R435). A periodic thread's period boundary releases an activation. -/
  | activationRelease (cid thread : Nat)
  /-- HUB_CORE_LOST (R425). A hub core silent for 10 ms freezes its region's placement and degrades the device. -/
  | hubCoreLost (region : Nat)
  /-- PROPOSAL_CONFIRM (R445). A write of the proposal's sequence number confirms it. -/
  | proposalConfirm (sess : Nat) (num : W32)
  /-- PROPOSAL_LAPSE (R445). A proposal not confirmed within advto lapses. -/
  | proposalLapse
  /-- TWIN_HEARTBEAT_SEND (R448). Every 100 µs a heartbeat is sent on each twin lane. -/
  | twinHeartbeatSend
  /-- TWIN_PAIR_FORM (R447). With the link trained and heartbeats seen, the pair forms and resolves which module is active. -/
  | twinPairForm (p : Partner)
  /-- TWIN_PAIR_TIMEOUT (R447). No pair after 2 s makes the module active for its compartments. -/
  | twinPairTimeout
  /-- TWIN_HEARTBEAT_LOSS (R448). No heartbeat for 0.8 ms makes the module take over its standby compartments. -/
  | twinHeartbeatLoss
  /-- TWIN_LINK_RESTORED (R449). The twin link returns and duplicated compartments go back to standby. -/
  | twinLinkRestored (stopped : List Nat)
  /-- MIRROR_APPLY (R446). A complete mirror copy in the partner's staging area is applied whole. -/
  | mirrorApply (cid : Nat) (copy : MirrorCopy)
  /-- REMOVE_REQ (R450). An ejector latch opens for 10 ms, raising REMOVE_REQ and starting evacuation. -/
  | removeReq
  /-- REMOVE_CANCEL (R578). Both latches close for 10 ms, cancelling the removal request. -/
  | removeCancel
  /-- RM_CONSENT (R450). A write of 0x6040:02 lets an unpaired module stop its compartments for removal. -/
  | rmConsent (sess : Nat) (v : Byte)
  /-- COMMIT (R470). The commit command persists the settings and enters running or degraded. -/
  | commit (sess : Nat)
  /-- AUTORUN_COMMIT (R470). At the end of placement the device commits by itself when autorun allows. -/
  | autorunCommit
  /-- ENTER_MAINTENANCE (R469). The command moves the device to maintenance. -/
  | enterMaintenance (sess : Nat)
  /-- LEAVE_MAINTENANCE (R469). The command returns the device to running or degraded. -/
  | leaveMaintenance (sess : Nat)
  /-- RESET_COMMAND (R471). The reset command resets the chip after the response. -/
  | resetCommand (sess : Nat)
  /-- FACTORY_RESTORE (R471). The factory restore command resets every retained object to its default and resets the chip. -/
  | factoryRestore (sess : Nat)
  /-- JOURNAL_PERSIST (R473). Pending retained values reach the settings journal. -/
  | journalPersist (ok : NorOk)
  /-- EV_CLEAR (R492). A write of ev_clear empties the event log and the tail. -/
  | evClear (sess : Nat)
  /-- FW_ACTIVATE (R563). The command makes the other valid slot pending for its trial start. -/
  | fwActivate (sess : Nat)
  /-- FIELD_SECURE (R552). The lifecycle command burns a fuse to field-secured and closes debug. -/
  | fieldSecure (sess : Nat)
  /-- DECOMMISSION (R552). The lifecycle command burns the secret fuses and erases the identity. -/
  | decommission (sess : Nat)
  /-- SECRET_WRITE (R564). A write of sec_op or sec_mnt replaces a commissioning secret in the sealed store. -/
  | secretWrite (sess : Nat) (mnt : Bool) (v : BitVec 256)
  /-- ATT_NONCE (R566). A write of att_nonce starts an attestation report. -/
  | attNonce (sess : Nat) (v : BitVec 256)
  /-- ATTESTATION_SIGNED (R566). The report is signed and the write is answered. -/
  | attestationSigned
  /-- OPEN (R502). An OPEN message grants a session and its new epoch. -/
  | openMsg (msg : Msg)
  /-- CLOSE (R504). A CLOSE message closes the session. -/
  | closeMsg (msg : Msg)
  /-- PING (R504). A PING message restarts the idle time. -/
  | pingMsg (msg : Msg)
  /-- AUTH_STEP_1 (R514). AUTH step 1 draws the device nonce and optionally signs the identity. -/
  | authStep1 (msg : Msg)
  /-- AUTH_STEP_2 (R515). AUTH step 2 checks the host proof and raises the session class. -/
  | authStep2 (msg : Msg)
  /-- READ (R509). A READ message returns an object's value. -/
  | readMsg (msg : Msg)
  /-- WRITE (R509). A WRITE message checks and writes an object's value. -/
  | writeMsg (msg : Msg)
  /-- UPLOAD (R510). An UPLOAD message starts a segmented read. -/
  | uploadMsg (msg : Msg)
  /-- DOWNLOAD (R510). A DOWNLOAD message starts a segmented write after its checks. -/
  | downloadMsg (msg : Msg)
  /-- SEGMENT (R512). A host SEGMENT is accepted, discarded or refused under the window, and the last one completes the
  download. -/
  | segmentMsg (msg : Msg)
  /-- ACK (R512). A host ACK advances the device's upload window. -/
  | ackMsg (msg : Msg)
  /-- ABORT (R508). A host ABORT ends its transaction without an answer. -/
  | abortMsg (msg : Msg)
  /-- SESSION_IDLE_TIMEOUT (R504). 30 s without an accepted message closes a session. -/
  | sessionIdleTimeout (sess : Nat)
  /-- SEGMENT_RESEND_TIMEOUT (R513). An unacknowledged device segment is resent, or the transfer is aborted after three
  resends. -/
  | segmentResendTimeout (sess : Nat) (tid : BitVec 16) (seg : Nat)
  /-- TRANSFER_TIMEOUT (R513). No segment accepted for eight segment timeouts aborts the transfer. -/
  | transferTimeout (sess : Nat) (tid : BitVec 16)
  /-- QUARANTINE_END (R506). A tid's 2 s quarantine ends and its stored final message is dropped. -/
  | quarantineEnd (sess : Nat) (tid : BitVec 16)
  /-- AUTH_LOCKOUT_END (R518). A 60 s AUTH lockout on a carrier ends. -/
  | authLockoutEnd (car : Carrier)
  /-- RSPACK (R497). A write of rspack releases the mailbox response buffer. -/
  | rspack (v : W)
  /-- CAN_BUS_OFF (R495). A bus-off closes every session on that controller. -/
  | canBusOff (ctl : Bool)
  /-- PCIE_LINK_DOWN (R497). A PCIe link-down closes every PCIe session. -/
  | pcieLinkDown
  /-- LEVEL_CHANGE_REQUEST (R524). A write of lvl starts a level raise or lowering. -/
  | levelChangeRequest (init block : Nat) (v : W)
  /-- DIVIDER_SWITCH (R32). At a superframe boundary the block switches its divider, holding its clock crossing for one
  superframe. -/
  | dividerSwitch (block : Nat)
  /-- REGULATOR_SLEW_DONE (R524). The block regulator settles at its new voltage. -/
  | regulatorSlewDone (block : Nat)
  /-- VIN_CORE_CHANGE_DONE (R529). A VIN_CORE change completes within tolerance. -/
  | vinCoreChangeDone (meas : BitVec 16)
  /-- VIN_CORE_CHANGE_TIMEOUT (R529). A VIN_CORE change fails to complete within 2 ms and the raise is withheld. -/
  | vinCoreChangeTimeout (meas : BitVec 16)
  /-- VIN_CORE_RETRY (R529). Every 1 ms a standing VIN_CORE request is tried again. -/
  | vinCoreRetry
  /-- BLOCK_RUN (R530). bst = run brings a block back to run. -/
  | blockRun (init block : Nat) (v : W)
  /-- BLOCK_IDLE (R530). bst = idle gates the block clock. -/
  | blockIdle (init block : Nat) (v : W)
  /-- BLOCK_NAP (R531). bst = nap writes back caches and puts the regulator in low-power mode. -/
  | blockNap (init block : Nat) (v : W)
  /-- BLOCK_OFF (R531). bst = off disables the block regulator. -/
  | blockOff (init block : Nat) (v : W)
  /-- FULL_MODE_READY (R531). The regulator reaches full mode and full becomes 1. -/
  | fullModeReady (block : Nat)
  /-- CEN_WRITE (R531). A cen write powers cells on or off, or is refused. -/
  | cenWrite (init block : Nat) (v : W)
  /-- RCLR (R527). rclr clears bo and the regulator counters. -/
  | rclr (init block : Nat) (v : W)
  /-- THERMAL_FORCE (R526). A sensor at 110 °C forces the block to P3. -/
  | thermalForce (block : Nat) (t0 t1 t2 t3 : BitVec 16)
  /-- THERMAL_FORCE_RELEASE (R526). 1 ms at or below 105 °C releases the block to lvl. -/
  | thermalForceRelease (block : Nat)
  /-- NAP_MONITOR (R532). 48 mA for 10 µs in nap switches the regulator to full mode. -/
  | napMonitor (block : Nat) (imon : BitVec 16)
  /-- BLOCK_BROWN_OUT (R532). The output falls below 0.55 V; the block goes off and its cells are reset. -/
  | blockBrownOut (block : Nat) (imon vout : BitVec 16)
  /-- STANDBY (R535). The standby command stops cells, naps or saves blocks, puts DDR4 in self-refresh and stops the PLL. -/
  | standby (sess : Nat)
  /-- HIBERNATE (R538). The hibernate command persists the journal, writes the wake record and powers down to the island. -/
  | hibernate (sess : Nat)
  /-- WAKE (R541). The wake command or another wake source starts a wake. -/
  | wake (sess : Nat)
  /-- WAKE_TIMER (R543). The island time reaches wake_at and a wake starts. -/
  | wakeTimer
  /-- CAN_WAKE (R543). A CAN FD frame to the node's request ID wakes the chip. -/
  | canWake (ctl : Bool) (canId : Nat)
  /-- WAKE_STEP_DONE (R541). A wake step completes and the next one begins. -/
  | wakeStepDone (e : BootEnv)
  /-- WAKE_STEP_TIMEOUT (R542). A wake step times out; the attempt is undone, or wake-failed is entered on the fourth. -/
  | wakeStepTimeout
  /-- WAKE_RETRY (R542). 100 ms after a failed attempt a new attempt starts. -/
  | wakeRetry
  /-- THERMAL_STANDBY (R537). A sensor at 115 °C puts the chip in standby with FAULT_N asserted. -/
  | thermalStandby (block : Nat) (t : BitVec 16)
  /-- MAIN_SUPPLY_LOSS (R584). Loss of the main supply or of EN resets the chip into hibernate. -/
  | mainSupplyLoss
  /-- MAIN_SUPPLY_APPLY (R582). The main supply becomes good; the chip starts or a mains wake fires. -/
  | mainSupplyApply
  /-- AUX_SUPPLY_APPLY (R582). The auxiliary supply is applied; the island zeroes the banks and samples the slot pins. -/
  | auxSupplyApply (slotId : BitVec 7) (slotPar : Bool)
  /-- AUX_SUPPLY_LOSS (R534). Loss of the auxiliary supply leaves the module unpowered. -/
  | auxSupplyLoss
  /-- ISLAND_BROWN_OUT (R540). The island LDO leaves regulation, invalidating time and epochs and resetting the chip. -/
  | islandBrownOut
  /-- SHA256_JOB (R567). A lane's go starts a SHA-256 job. -/
  | sha256Job (init engine lane : Nat) (v : W)
  /-- SHA256_JOB_DONE (R567). A SHA-256 job ends with its digest and result. -/
  | sha256JobDone (engine lane : Nat) (r : Ret)
  /-- BYPASS (R569). The JTAG BYPASS instruction. -/
  | bypassInst (tdi : Bool)
  /-- IDCODE (R569). The JTAG IDCODE instruction returns the device identity. -/
  | idcodeInst
  /-- STATUS (R569). The JTAG STATUS instruction returns the debug state. -/
  | statusInst
  /-- NONCE (R571). The JTAG NONCE instruction returns the current nonce. -/
  | nonceInst
  /-- TOKEN (R571). A debug unlock token, from JTAG or 0x7040:02, is verified and accepted or rejected. -/
  | tokenInst (sess : Option Nat) (bytes : List Byte)
  /-- MEMAP (R570). The JTAG MEMAP instruction makes one 8- or 16-byte access under ID 0x3FF. -/
  | memapInst (addr : Nat) (wide write : Bool) (data : BitVec 128)
  /-- DEBUG_UNLOCK_EXPIRY (R572). The token's life ends and the port returns to closed. -/
  | debugUnlockExpiry
  /-- PCIE_INBOUND_REQUEST (R589). A host access through BAR2 reaches memory under ID 0x140. -/
  | pcieInboundRequest (offset width : Nat) (write : Bool) (data : List Byte)
  /-- PERST_N (R589). PERST_N low resets the PCIe endpoint alone. -/
  | perstN (high : Bool)
  /-- HOT_SWAP_CONNECT (R583). EN high for 20 ms connects P12V to the internal bus. -/
  | hotSwapConnect
  /-- HOT_SWAP_OVERCURRENT (R583). 1 ms at the current limit, or no bus good within 50 ms, switches the bus off. -/
  | hotSwapOvercurrent
  /-- HOT_SWAP_RETRY (R583). 1 s after switching off, the controller retries. -/
  | hotSwapRetry
  /-- HOT_SWAP_DISCONNECT (R583). EN low, or P12V below 10 V for 50 µs, switches the bus off. -/
  | hotSwapDisconnect
  /-- CAGE_OVERCURRENT (R576). A cage over its current limit for 1 ms is switched off. -/
  | cageOvercurrent (cage : Nat)
  /-- CAGE_RETRY (R576). 1 s after switching off, the cage is switched on again. -/
  | cageRetry (cage : Nat)
  /-- PLUGGABLE_INSERT (R576). A pluggable that declares a power class above 3.5 W is held in low-power mode. -/
  | pluggableInsert (cage milliwatt : Nat)
  /-- OCXO_WARM (R586). The OCXO has warmed up and ocxo_ok is set. -/
  | ocxoWarm
  /-- TCXO_HOLD (R586). After more than 10 s on the TCXO, the island records the timebase as free-running. -/
  | tcxoHold
  /-- TBASE_IN_FORCE (R367). An accepted tbase write reaches a cell, after which its trp triggers no longer find tbase not
  set. -/
  | tbaseInForce (core : Nat)
  /-- TWIN_HEARTBEAT_RECEIVE (R448). A heartbeat from the partner arrives on a twin lane and restarts the 0.8 ms heartbeat
  watch. -/
  | twinHeartbeatReceive (lane : Nat)
  /-- TWIN_TAKEOVER_REQUEST (R450). The partner asks this module over the twin link to take over compartments, and the module
  installs them and acknowledges. -/
  | twinTakeoverRequest (cids : List Nat)
  /-- TWIN_TAKEOVER_ACK (R450). The partner acknowledges a takeover, and once every one has been acknowledged the
  safe-to-remove state is reached. -/
  | twinTakeoverAck (cid : Nat)
  /-- LANE_LINK_CHANGE (R577). An Ethernet lane gains or loses link, which changes its link-up object and its cage's link
  LED. -/
  | laneLinkChange (lane : Nat) (up : Bool)
  /-- PCIE_LINK_UP (R587). The PCIe link finishes training once the PLL is locked and PERST_N is high. -/
  | pcieLinkUp
  /-- REFERENCE_FAILURE (R405). The OCXO leaves its band or the root PLL loses lock, or recovers, changing cfail and
  ClockFailure. -/
  | referenceFailure (fail : Bool)
  /-- ANNOUNCE_RECEIPT_TIMEOUT (R406). A PTP port receives no Announce within announceReceiptTimeout intervals, and the BMCA
  re-decides its state. -/
  | announceReceiptTimeout (port : Nat)
  /-- NAP_ENTRY_COMPLETE (R531). The write-back for nap entry finishes after about 40 µs, and the regulator then enters
  low-power mode with ast showing nap. -/
  | napEntryComplete (block : Nat)
  /-- IDENTITY_SIGNATURE_DONE (R515). The security unit finishes the SLH-DSA identity signature, and the step-1 RESULT with
  more set and its segments is sent. -/
  | identitySignatureDone
  /-- FW_IMAGE_WRITTEN (R561). Programming and read-back of a firmware slot ends, setting fw_result and the slot state and
  sending the completion RESULT. -/
  | fwImageWritten (ok : Bool)
  deriving DecidableEq, Repr

end Sys2Proof
end

