-- ==== Sys2Proof/Decode.lean ====
section
/-! DEFINITION. The command that a word spells. The opcode table of this block gives no row any bits: its rows are
operations and events, and a command reaches the model with its operands, not as a word. -/

namespace Sys2Proof

/-- No word spells a command: every row of the table is without bits. -/
def decodeTableWord (_nbits _w : Nat) : Option Instr := none

end Sys2Proof
end

