-- ==== Sys2Proof/Config.lean ====
section
/-! DEFINITION. The free values of the model: what the spec leaves open, or leaves to an algorithm it
only names. Each is a constant with no body, so that nothing can be proved of its value. -/

namespace Sys2Proof

/-- `cap.t.cover` when the length it reports is 2^64 or more: the spec states no 64-bit result
(R57). The arguments are the operand's address and the length asked for. -/
opaque Config.coverOverflow : W → W → W

/-- The angle of a phasor that is zero, in units of 2^-32 of a turn (R159). The argument is the angle per sample at which it
was fitted. -/
opaque Config.noAngle : Int → Rat

/-- Which of its two neighbouring integers a part of the phasor, or an estimate of the angle, is rounded to: the spec gives
no rule (R159). -/
opaque Config.phUp : Rat → Bool

/-- The phasor of a window whose least-squares equations have no single solution (R159). -/
opaque Config.phSingular : Nat → List Int → Rat × Rat

/-- Cycles by which lines fetched from beyond the cell store and the data cache extend a phasor fit (R161). -/
opaque Config.phFetch : Nat → Nat

/-- The DDR4 device in which a demand read met a corrected error, taken modulo 10 (R289). The first argument tells one
error from another. -/
opaque Config.ddrDevice : Nat → Nat → Nat

/-- The contents of the boot ROM, by offset: the spec gives none (R26, R36). -/
opaque Config.bootRom : Nat → Byte

/-- A byte of host memory, as a read through the PCIe outbound window finds it (R35). The first argument
tells one read from another. -/
opaque Config.hostByte : Nat → Nat → Byte

/-- The count that q.r holds beside status 0x04 when no descriptor was read: the spec states none (R298,
R308, R321, R322). -/
opaque Config.qCount : Nat → BitVec 32

/-- A redundancy supervision frame before its pair's trailer or tag: edition 3, HSR, the pair's sequence number, the
source MAC. The spec names its format by IEC 62439-3 (R330). -/
opaque Config.supervision : Bool → Bool → Nat → List Byte → List Byte

/-- The requests that Monarch samples in an epoch from a thread of a compartment to one of its objects (R434): the
model counts no requests. Epoch, compartment, thread, object. -/
opaque Config.traffic : Nat → Nat → Nat → Nat → Nat

/-- The value of an entry that copies an extrapolated sample outside int32: the spec states none (R357). -/
opaque Config.extrapolated : Int → BitVec 32

/-- The age of an entry whose frame arrived before the grid instant: the spec states none (R358). -/
opaque Config.ageBefore : Int → BitVec 16

/-- How far the callee's stack reaches when its bounds, from the gate stack's base to 48 bytes below its top, cannot
be encoded exactly: the spec states no encoding there (R55, R223). The arguments are the gate stack's two words. -/
opaque Config.gateStack : W → W → Nat

/-- Cycles of a memory stall beyond its first: the spec gives typical times alone (R176, R177, R604). The argument tells
one stall from another. -/
opaque Config.stallCycles : Nat → Nat

/-- The cages whose read of allData meets an error when a publication resumes, as a mask of four bits (R387): the commands
that begin service do not say. -/
opaque Config.pubBad : Nat → Nat → Nat

/-- Granules of a victim's cocoon that the spill engine has written when its slot is freed (R201). -/
opaque Config.spilled : Nat → Nat

/-- Which request of an access of several ended in an error, taken modulo their number (R205, R214). The argument tells
one access from another. -/
opaque Config.badPiece : Nat → Nat

/-- Which part of a split load was lost on its path, when both could have been (R146, R205). -/
opaque Config.lostPart : Nat → Bool

/-- TAI - UTC at a second for which the leap-second table has no entry: the spec states none (R417). -/
opaque Config.noLeapEntry : Nat → BitVec 8

/-- What a GOOSE timeout message holds in the fields of a frame, which it has none of (R392). -/
opaque Config.gooseTimeout : Nat → List Byte

/-- The increment that the servo chooses after a measured offset, before the limit of R399: the spec gives no
algorithm (R411). The first argument tells one measurement from another. -/
opaque Config.servo : Nat → Int → Nat

/-- The parity bit of the extension of an IRIG-B frame sent, from its format and what it carries: the spec leaves it to
IEEE C37.118.1 (R414). -/
opaque Config.irigParity : Nat → Int → Nat → Nat → Bool

/-- The ten octets of a C37.238 TLV that a port sends under a master that sends no TLV of the port's profile: the spec
states none (R408). -/
opaque Config.noTlv : Nat → List Byte

/-- clockClass, clockAccuracy and timeSource of a master in a state that the table of R408 does not list. -/
opaque Config.gmAttr : Nat → Nat → BitVec 24

/-- The ALTERNATE_TIME_OFFSET_INDICATOR TLV: the spec gives no contents (R406). -/
opaque Config.altOffset : Nat → List Byte

/-- The detail field of an event log entry whose layout the spec does not state, from its source, its code and
all that it is about (R488, R489). -/
opaque Config.logDetail : Nat → Nat → List (BitVec 64) → BitVec 64

/-- Random octets of the security unit, one from another (R514, R571). -/
opaque Config.random : Nat → Nat → List Byte

/-- A bit of the OTP array as the factory burned it (R553). -/
opaque Config.otp : Nat → Bool

/-- Verification of a pure SLH-DSA signature under FIPS 205 with an empty context: parameter set, public key,
message, signature (R555, R571). The spec names the scheme by its standard. -/
opaque Config.slhVerify : Nat → List Byte → List Byte → List Byte → Bool

/-- The public key of an SLH-DSA key pair from its three seeds (R565). -/
opaque Config.slhPublic : Nat → List Byte → List Byte

/-- A deterministic SLH-DSA signature: parameter set, seeds, message (R565). -/
opaque Config.slhSign : Nat → List Byte → List Byte → List Byte

/-- The size of an SLH-DSA signature by parameter set; the spec gives 7,856 octets for 128s alone (R555). -/
opaque Config.slhSize : Nat → Nat

/-- The image that the factory programmed into slot A (R554, R555). -/
opaque Config.image : List Byte

/-- The trip table base and the publication table base that stage-1 firmware sets (R484). -/
opaque Config.stage1Tbase : BitVec 64
opaque Config.stage1Gbase : BitVec 64

/-- Where Monarch places a grid's ring, header array and doorbell list, as the words that hold them, when en is
written through the dictionary (R483). The first argument tells one placement from another. -/
opaque Config.ringPlace : Nat → Nat → BitVec 64 × BitVec 64 × BitVec 64

/-- The reason in 0x8001 when Monarch cannot place a grid: the spec gives no code (R483, R487). -/
opaque Config.gridReason : Nat → BitVec 16

/-- The state of the root PLL while the reference is reported as failed: the spec reports the OCXO and the PLL together
(R405, R481). -/
opaque Config.pllLock : Nat → Bool

/-- What a JTAG identity register holds (R569). -/
opaque Config.idcode : BitVec 32

/-- The module revision, 0x1000:04 (R480). -/
opaque Config.hwrev : BitVec 16

/-- Measurements of the module that no command of the model makes: temperature and supply voltages, chip power,
block power (R455, R481). The arguments are the object and the moment. -/
opaque Config.measured : Nat → Nat → BitVec 32

end Sys2Proof
end

