-- ==== Sys2Proof/Machine/State.lean ====
section
/-! DEFINITION. The state of the module: everything the spec gives it, as plain data, and the state
right after reset. -/

namespace Sys2Proof.Machine

/-! # Capabilities and faults -/

/-- A capability: 128 bits of value, in two words as memory holds them, and the tag (R50, R51). -/
structure Cap where
  addr : W
  hi   : W
  tag  : Bool
  deriving DecidableEq, Repr

/-- The untagged zero capability: the reset value of every c register but the roots' (R50). -/
def Cap.null : Cap := { addr := 0, hi := 0, tag := false }

/-- A synchronous or asynchronous event of a cell: cause code, faddr and finfo (R205). -/
structure Flt where
  code  : Nat
  faddr : W
  finfo : W
  deriving DecidableEq, Repr

/-! # Trigger operations (chapter 4) -/

/-- The alu operations (R127, R128). -/
inductive AluOp where
  | add | sub | and | or | xor | andn | neg | min | max | minu | maxu
  | eq | ne | lt | ltu | ge | geu | tst | tstz
  deriving DecidableEq, Repr

/-- The mul operations (R129). -/
inductive MulOp where
  | mul | mulh | mulhu | mulhsu
  deriving DecidableEq, Repr

/-- The shf operations (R135). -/
inductive ShfOp where
  | shl | shr | sar | rol | ror | ext | exts | ins | clz | ctz | popc | bswap
  deriving DecidableEq, Repr

/-- The cap operations (R67). -/
inductive CapOp where
  | setaddr | incaddr | bnd | bnde | andperm | seal | unseal | land
  | grain | cover | getbase | getlen | getmeta | subset | chk
  deriving DecidableEq, Repr

/-- The br operations (R153). -/
inductive BrOp where
  | br | call | jmp | jc | callc | gate | gret | eret | rep | repn
  deriving DecidableEq, Repr

/-- The mac operations that write an accumulator (R155). -/
inductive MacOp where
  | dot | dotn | cre | cim | mul | set | sar
  deriving DecidableEq, Repr

/-- The mac read-outs (R156). -/
inductive MacRd where
  | rds | rdw | rdr | rdt
  deriving DecidableEq, Repr

/-- The q operations (R163). -/
inductive QOp where
  | enq | enqd | deq | deqd | wait | arm | stat
  deriving DecidableEq, Repr

/-- The trp operations (R167). -/
inductive TrpOp where
  | inv | rel | query
  deriving DecidableEq, Repr

/-- The sys operations (R169). -/
inductive SysOp where
  | invleaf | invwalk | invsync | fence | gfence | krset | ctlrd | ctlwr | pwr | yield | cyc | time
  deriving DecidableEq, Repr

/-- A trigger operation. -/
inductive Trig where
  | alu (unit1 : Bool) (op : AluOp)
  | mul (op : MulOp)
  | div (signed : Bool)
  | shf (op : ShfOp)
  | load (bytes : Nat) (signed : Bool)
  | ldc
  | store (bytes : Nat)
  | stc
  | blk (restore : Bool)
  | pf
  | cap (op : CapOp)
  | br (op : BrOp)
  | mac (op : MacOp)
  | macRd (op : MacRd)
  | stclr
  | ph (track : Bool)
  | q (op : QOp)
  | trp (op : TrpOp)
  | sys (op : SysOp)
  deriving DecidableEq, Repr

/-- A value with its register class (R103). -/
inductive Val where
  | d (w : W)
  | c (c : Cap)
  | a (v : BitVec 80)
  | g (b : Bool)
  deriving DecidableEq, Repr

/-! # A core: banks, units in flight, memory unit, scheduler -/

/-- A register bank with its control-port and unit port state (R190, R89). Registers and ports of a
class stand in one table, by port number (R99). -/
structure Bank where
  /-- d registers and every class-d operand and result port. -/
  x      : Tbl W := []
  /-- c registers and every class-c operand and result port. -/
  c      : Tbl Cap := []
  /-- a0 to a3. -/
  a      : Tbl (BitVec 80) := []
  /-- g1 to g7 in bits 1 to 7; bit 0 stays 0 (R98). -/
  g      : BitVec 8 := 0
  /-- pcc, addressed at the next bundle of this context (R83). -/
  pcc    : Cap := Cap.null
  /-- Base and top of pcc while its address stands outside the region in which its encoding decodes to them: pcc
  keeps its bounds wherever execution moves it (R83). -/
  lim    : Option (Int × Int) := none
  /-- The source recorded by the last write of mem.oc (R138, R139). -/
  memSrc : Nat := 0x1F
  mask   : Nat := 0
  asid   : Nat := 0
  poison : Bool := false
  cause  : W := 0
  faddr  : W := 0
  finfo  : W := 0
  fpcc   : Cap := Cap.null
  /-- Base and top of fpcc, as `lim` is for pcc. -/
  fpLim  : Option (Int × Int) := none
  /-- Set by a write of fpcc, cleared at entry: the return discards pending state (R111, R117, R150). -/
  fpccW  : Bool := false
  rcnt   : Nat := 0
  ract   : Bool := false
  rnint  : Bool := false
  /-- The first repetition has not been executed: no interrupt point lies before it (R187). -/
  rpre   : Bool := false
  /-- Delay bundles still to execute (R116). -/
  dly    : Nat := 0
  /-- The pending branch target (R111). -/
  pend   : Cap := Cap.null
  /-- Base and top of the pending target, as `lim` is for pcc. -/
  pendLim : Option (Int × Int) := none
  /-- Bundles still to be checked under R182 after a branch, taken or not. -/
  seqChk : Nat := 0
  /-- progress: done bits, act and dir (R149). -/
  done   : BitVec 52 := 0
  act    : Bool := false
  dir    : Bool := false
  krrl   : W := 0
  krrh   : W := 0
  /-- The cycle count of R177. -/
  cyc    : Nat := 0
  /-- Dirty bits of the groups, bit n for group n (R194). -/
  dirty  : BitVec 8 := 0
  deriving DecidableEq, Repr

/-- What an operation in flight writes when it is due. -/
inductive Wr where
  | ports (l : List (Nat × W))
  | cport (p : Nat) (v : Cap)
  | acc (op : MacOp) (sel : Nat) (o t : W)
  /-- An element of a block restore (R147, R148). -/
  | elem (i : Nat) (bs : List Byte) (tag : Bool)
  deriving DecidableEq, Repr

/-- The units whose results come after a latency, for the rows that let one result arrive. -/
inductive LatUnit where
  | mul | cap | macAcc | macRd | sys | lmm
  deriving DecidableEq, Repr

/-- An operation in flight: it writes in cycle `due` (R123). -/
structure FlyOp where
  due  : Nat
  bank : Nat
  unit : LatUnit
  wr   : Wr
  deriving DecidableEq, Repr

/-- A division or phasor fit: it writes its ports `lat - 1` cycles after it starts (R131, R161). -/
structure NpJob where
  bank : Nat
  lat  : Nat
  wr   : List (Nat × W)
  deriving DecidableEq, Repr

/-- A non-pipelined unit, div or ph (R132, R133): the operation in progress with its due cycle, and the
waiting triggers in order. -/
structure NpUnit where
  cur  : Option (Nat × NpJob) := none
  wait : List NpJob := []
  deriving DecidableEq, Repr

/-- The bank and the operations in flight as they stood before a bundle: a fault that arrives after issue leaves no
move of its bundle in effect (R92, R146, R165). -/
structure Undo where
  bank : Bank
  fly  : List FlyOp
  div  : NpUnit
  ph   : NpUnit
  /-- The number that the core's next invalidation or trip request takes. -/
  no   : Nat := 0
  /-- The register groups that the bundle's moves write (R194). -/
  wrote : BitVec 8 := 0
  deriving DecidableEq, Repr

/-- A store buffer entry (R143): physical address, bytes, whether a capability with its tag. -/
structure SbEntry where
  pa    : Nat
  data  : List Byte
  isCap : Bool
  tag   : Bool
  va    : W
  bank  : Nat
  slot  : Nat
  split : Bool
  /-- The address space through which it was translated (R253). -/
  asid  : Nat := 0
  deriving DecidableEq, Repr

/-- A load that has not written its result: the cycle it is due, its parts in physical memory, and the
data when it has been read. -/
structure PLoad where
  due    : Nat
  bank   : Nat
  va     : W
  parts  : List (Nat × Nat)
  signed : Bool
  isCap  : Bool
  /-- The loaded tag may be kept (R60, R241). -/
  keep   : Bool
  /-- The data is read from the cell's own cell store, within the latency (R140, R141). -/
  own    : Bool
  /-- The data is read from the data cache (R140, R141). -/
  hit    : Bool
  /-- The data has arrived. -/
  arr    : Bool
  /-- The data is forwarded from the store buffer (R144): no request is made for it. -/
  fwd    : Bool := false
  got    : Option (List Byte × Bool)
  /-- Entries of the store buffer that are older than the load. -/
  ahead  : Nat
  /-- The state before the load's bundle, to which a denial goes back (R92, R146). -/
  undo   : Undo
  /-- The address space through which it was translated (R253). -/
  asid   : Nat := 0
  deriving DecidableEq, Repr

/-- A captured move: destination port, value, and the slot it stands in. -/
structure Move where
  slotB : Bool
  word  : BitVec 32
  dst   : Nat
  src   : Nat
  val   : Val
  deriving DecidableEq, Repr

/-- What the checks at issue found for a q or sys request (R603): the physical parts that it reaches, and of each part
whether its page lets tags pass, and the fault that a store of a tagged capability there raises (R240, R241). -/
structure Reach where
  parts : List (Nat × Nat) := []
  caps  : List Bool := []
  noTag : List (Option Flt) := []
  /-- qbase was not in force at the trigger: the q unit answers by itself (R298). -/
  free  : Bool := false
  deriving DecidableEq, Repr

/-- A gate, gate return or exception return that waits for the request of its bundle to complete (R92, R170): the
move, the bank as the bundle's triggers see it, how its reads and its frame write end, and the state before the
bundle. -/
structure Away where
  m    : Move
  k    : Bank
  ret  : Ret
  fret : Ret
  vret : Ret
  undo : Undo
  deriving DecidableEq, Repr

/-- A block save or restore in progress (R147, R148). -/
structure BlkOp where
  restore : Bool
  mask    : BitVec 52
  base    : W
  oc      : Cap
  /-- The source record of the authorising capability (R139). -/
  src     : Nat
  /-- The bundle's other move, with its source as read at the start of this execution (R151). -/
  other   : Option Move
  /-- The bank at the start of this execution, on which the other move acts, and its issue cycle. -/
  k0      : Bank
  start   : Nat
  /-- The bundle's slot words. -/
  wa      : BitVec 32
  wb      : BitVec 32
  /-- The other move is a br.t.repn prefix, which holds interrupts (R187). -/
  nint    : Bool := false
  /-- The next element has had to wait, for room in the store buffer or for its data (R176). -/
  held    : Bool := false
  /-- What the other move, when it is a request, was found to reach at issue (R603). -/
  got     : Reach := {}
  deriving DecidableEq, Repr

/-- A q operation on its way or being handled (R164): the queue, the issuing context, the trigger operand,
the arming word, and the message buffer with its translation. -/
structure QReq where
  op    : QOp
  queue : Nat
  core  : Nat
  slot  : Nat
  bank  : Nat
  level : Nat
  t     : W
  od    : W
  om    : W
  parts : List (Nat × Nat)
  /-- Of each part of the buffer, whether its page lets tags pass, and what a tagged granule stored there raises (R240,
  R241). -/
  caps  : List Bool := []
  noTag : List (Option Flt) := []
  /-- Tags travel (STC at an enqueue, LDC at a dequeue, R306). -/
  carry : Bool
  /-- Local capabilities keep their tags: STL of q.oc at an enqueue, of q.om at a dequeue. -/
  stl   : Bool
  /-- The address space through which the buffer was translated (R253). -/
  asid  : Nat := 0
  deriving DecidableEq, Repr

/-- The manager's answer to a q operation, on its way to the cell (R164, R165): the fault that it ends in,
the address at which an uncorrectable error ended it (R288), whether the thread blocks (R166), status, length, count, and
the data of q.t.deqd. -/
structure QAns where
  fault   : Option Flt := none
  bad     : Option Nat := none
  blocked : Bool := false
  status : Nat
  len    : Nat
  count  : Nat
  data   : Option W
  deriving DecidableEq, Repr

/-- What holds issue (R176), besides a load that is due. -/
inductive Stall where
  | none
  /-- The next bundle's stores need this many free entries of the store buffer (R143). -/
  | room (need : Nat)
  | blk (b : BlkOp)
  /-- A q operation: sent to the manager or still behind the store buffer, and its answer. -/
  | q (r : QReq) (sent : Bool) (ans : Option QAns) (undo : Option Undo)
  | invsync
  | fence (storesOnly : Bool)
  | gfence (gate : Nat) (sent : Bool)
  /-- The access of sys.t.ctlrd or sys.t.ctlwr, by the address that was translated, in its address space, and by physical
  address; one under a CONTROL capability is not translated, and has address space 0. -/
  | ctl (write : Bool) (va : W) (pa : Nat) (v : W) (asid : Nat) (undo : Option Undo)
  /-- The next bundle is fetched past the instruction cache (R176). -/
  | fetch
  deriving DecidableEq, Repr

/-- The second request of a pair that waits for the mem operation (R603): its move, the bundle's slot words, and
the bank as the bundle's triggers see it. -/
structure PairReq where
  req : Move
  wa  : BitVec 32
  wb  : BitVec 32
  k   : Bank
  /-- What the request was found to reach at issue. -/
  got : Reach := {}
  deriving DecidableEq, Repr

/-- A trp request not yet acknowledged (R167, R168): the object and voter it designates, the stores that
it must still wait for (R280), and the trip unit's answer once it has one. -/
structure TrpReq where
  op    : TrpOp
  bank  : Nat
  obj   : Nat
  voter : Nat
  word  : W32
  ahead : Nat
  ans   : Option W
  /-- Its number among the core's requests, by which a bundle that is undone takes it back (R92). -/
  no    : Nat := 0
  deriving DecidableEq, Repr

/-- A TLB entry (R245). -/
structure TlbEntry where
  asid  : Nat
  glob  : Bool
  vbase : Nat
  size  : Nat
  entry : W
  level : Nat
  deriving DecidableEq, Repr

/-- A walk-cache entry (R245): an address-space entry (level 7) or a non-leaf entry. -/
structure WcEntry where
  asid  : Nat
  level : Nat
  vpre  : Nat
  entry : W
  deriving DecidableEq, Repr

/-- An invalidation (R251) issued by a cell: what it removes, the stores it waits for, and, once it has
left, the cells that have not yet acknowledged (R252, R253). -/
structure InvReq where
  walk   : Bool
  va     : W
  len    : W
  asid   : Nat
  all    : Bool
  glob   : Bool
  scope  : Nat
  stores : Nat
  left   : Bool
  acks   : List Nat
  /-- The bank that issued it, and its number among the core's requests (R92). -/
  bank   : Nat := 0
  no     : Nat := 0
  deriving DecidableEq, Repr

/-- A thread slot (R195, R220). -/
structure ThSlot where
  state   : Nat := 0
  prio    : Nat := 0
  quantum : Nat := 0
  ctx     : Cap := Cap.null
  bank    : Option Nat := none
  sres    : Nat := 0
  wmask   : BitVec 8 := 0
  runcyc  : Nat := 0
  waitq   : Nat := 0
  nobank  : Nat := 0
  tid     : Nat := 0
  /-- When it last ran, for the least recently run choice (R196, R198). -/
  last    : Nat := 0
  /-- Cycles used since it was last chosen (R196). -/
  used    : Nat := 0
  /-- A state change that takes effect at the next interrupt point (R201). -/
  want    : Option Nat := none
  /-- A resume point left by br.t.eret while the thread held no bank, its bounds as `Bank.lim` has them, and whether pending
  repeat, delay and block state is discarded (R210). -/
  resume  : Option (Cap × Option (Int × Int) × Bool) := none
  /-- The bank as it will stand when the bundle of the q operation that blocked the thread has completed,
  and whether it has (R166, R311): applied at the wake, or when the thread next holds a bank. -/
  fin     : Option (Bank × Bool) := none
  /-- The bank has been written back whole and may be taken for another thread (R197, R198). -/
  clean   : Bool := false
  /-- The thread's address space, once a restore has read its status (R199). -/
  asid    : Option Nat := none
  /-- Bundles still to be checked under R182 when the thread's bank was taken from it. -/
  seq     : Nat := 0
  /-- The present wait for a bank has been counted in nobank (R198). -/
  starved : Bool := false
  deriving DecidableEq, Repr

/-- A wake on its way from a queue manager to a cell (R309, R312): the thread slot, the queue, and what
q.r receives. With `again` the bundle has not completed and issues afresh. -/
structure QWake where
  slot   : Nat
  again  : Bool
  queue  : Nat
  status : Nat
  len    : Nat
  count  : Nat
  deriving DecidableEq, Repr

/-- A core: one of the 256 cells, or a region's hub core (R17, R22). -/
structure Cell where
  /-- The next issue cycle of the cell clock, counted locally. -/
  now     : Nat := 0
  /-- The running bank (R191). -/
  run     : Nat := 0
  banks   : Tbl Bank := []
  fly     : List FlyOp := []
  div     : NpUnit := {}
  ph      : NpUnit := {}
  loads   : List PLoad := []
  sb      : List SbEntry := []
  stall   : Stall := .none
  /-- The bundle whose operation holds issue, for the stop record (R218). -/
  stallPc : Option W := none
  /-- The second request of a pair, held until the mem operation completes (R603). -/
  after   : Option PairReq := none
  /-- A gate, gate return or exception return behind the request of its bundle (R92, R170). -/
  away    : Option Away := none
  /-- A trigger that waits for a free trp place (R168). -/
  trpHeld : Option TrpReq := none
  trp     : List TrpReq := []
  /-- The repeated bundle, as slot words, while repetitions remain (R185). -/
  held    : Option (BitVec 32 × BitVec 32) := none
  /-- The thread slot of the running or interrupted thread; on a hub core slot 0 stands for its one context of
  level 0 (R22). -/
  cur     : Option Nat := none
  slots   : Tbl ThSlot := []
  /-- A choice by the scheduler is due at the next interrupt point (R196). -/
  resched : Bool := false
  /-- The slot of the thread that the bundle just issued has yielded; read by the same command (R435). -/
  yielded : Option Nat := none
  ticket  : Nat := 0
  /-- The spill engine has stopped after a failure (R200). -/
  spillHalt : Bool := false
  /-- Wake signals that have not arrived. -/
  wakes   : List QWake := []
  restore : Option (Nat × Nat) := none
  /-- sys.t.yield at a level from 1 to 7: waiting for an interrupt (R175). -/
  waiting : Bool := false
  stopped : Bool := true
  stopReq : Bool := false
  /-- The stop flush still to be done, in banks (R217). -/
  flush   : Bool := false
  runBit  : Bool := false
  vtm     : Bool := true
  entry   : Cap := Cap.null
  entRef  : Bool := false
  bkBusy  : Option (Nat × Nat) := none
  bkRef   : Bool := false
  tlb     : List TlbEntry := []
  wc      : List WcEntry := []
  inv     : List InvReq := []
  lse     : List Flt := []
  lseDrop : Nat := 0
  lseOvf  : Bool := false
  spillEv : List Flt := []
  /-- Machine checks not yet delivered, oldest first; with true the event is escalated whatever its level (R207,
  R214). -/
  mchk    : List (Flt × Bool) := []
  /-- A walk has been made for the access in progress, whose stall it extends (R140, R243). -/
  walked  : Bool := false
  /-- The error that the next walk for this address meets, and at which of its table reads (R240, R243). -/
  walkBad : Option (W × Ret × Nat) := none
  /-- The command in progress has met a request that must wait, for a link or at a gate; false between commands (R24,
  R265). -/
  heldUp  : Bool := false
  /-- Numbers the core's invalidations and trip requests (R92). -/
  reqNo   : Nat := 0
  /-- Pending interrupt sources (R216). -/
  ipend   : BitVec 128 := 0
  tcmpArm : Bool := false
  /-- tbase in force at this cell (R367). -/
  tbaseOk : Bool := false
  /-- Watchdog (R287): the last wkick, when issue last went on or a stall began, both on the duration clock, and the
  start of the count whose half period has been signalled. -/
  wdStart : Nat := 0
  issueT  : Nat := 0
  wdHalf  : Option Nat := none
  /-- The watchdog has stopped the cell at this time, and its banks are being flushed (R287). -/
  wdStop  : Option Nat := none
  /-- The cell is powered and its block runs (chapter 16). -/
  powered : Bool := true
  deriving DecidableEq, Repr

/-! # Records shared by the parts of the module -/

/-- A line held in a data cache or in a cache way (R276, R277): its number (address / 64), whether it is
write-through, whether it is dirty, and the bytes and tagged granules that its home then still holds. -/
structure CLine where
  line  : Nat
  wt    : Bool
  dirty : Bool
  home  : List Byte
  tags  : List Nat
  deriving DecidableEq, Repr

/-- The lines held in the data caches, by core, in the cache ways, by block and with their way, and in the instruction
caches, by core and by number alone, most recently used first (R17); and the lines whose home holds a poison code (R288). Every access is coherent (R276): `State.mem` holds what
every observer reads. -/
structure CacheSt where
  d      : Tbl (List CLine) := []
  w      : Tbl (List (Nat × CLine)) := []
  i      : Tbl (List Nat) := []
  poison : List Nat := []
  deriving DecidableEq, Repr

/-- Why a target gate denied a request (R268): the reason, the gate when the address lies in a target,
and the gate region matched (63 for none). -/
structure Deny where
  reason : Nat
  gate   : Option Nat
  reg    : Nat
  deriving DecidableEq, Repr

/-- What a request asks of a target gate (R269). -/
inductive Rq where
  | read
  | write
  | fetch
  | dbg (write : Bool)
  deriving DecidableEq, Repr

/-- A message a hardware producer has posted and the queue manager has not yet taken (R315). -/
structure Posting where
  producer : Nat
  queue    : Nat
  msg      : List Byte
  deriving DecidableEq, Repr

/-- A queue descriptor in its manager's cache (R300, R317): its eight words, and whether it may never be
evicted because its write-back failed (R321). -/
structure QDesc where
  q     : Nat
  ws    : List W
  stuck : Bool
  deriving DecidableEq, Repr

/-- An entry of the event log (R488). The time is that of TIME96, in units of 2^-16 ns. -/
structure LogRec where
  time   : Nat
  seq    : Nat
  src    : Nat
  sev    : Nat
  code   : Nat
  unit   : Nat
  flags  : Nat
  detail : W
  deriving DecidableEq, Repr

/-- The levels that keep an error record (R17, R295). -/
inductive Rec where
  | cell (n : Nat)
  | block (b : Nat)
  | region (r : Nat)
  | chip
  deriving DecidableEq, Repr

/-- The live state of the timebase (R397 to R405), beside its registers. -/
structure TimeSt where
  /-- TAI since the epoch in units of 2^-32 ns. -/
  now     : Nat := 0
  /-- The same with the steps removed, for durations (R402). -/
  dur     : Nat := 0
  /-- The increment per tick, in units of 2^-32 ns (R399). -/
  inc     : Nat := 0x280000000
  /-- 0 free-running, 1 acquiring, 2 locked, 3 holdover (R400). -/
  state   : Nat := 0
  /-- When lock was lost, on the duration clock. -/
  lost    : Nat := 0
  /-- Holdover has reached holdlim (R400). -/
  expired : Bool := false
  /-- An offset has been measured since acquiring was entered (R420). -/
  hasOff  : Bool := false
  /-- Consecutive measurements within lockthr, and beyond 8 × lockthr (R400). -/
  good    : Nat := 0
  bad     : Nat := 0
  /-- The last source that was active (R405). -/
  lastSrc : Nat := 0
  /-- Increments of the locked state with the times from which they were in force, newest first, on the
  duration clock (R400). -/
  incs    : List (Nat × Nat) := []
  /-- Since when each source is valid, on the duration clock (R405). -/
  since   : Tbl Nat := []
  /-- The timebase seconds have been set by a source or by the host (R405). -/
  secSet  : Bool := false
  /-- The last measured offset of each source, in units of 2^-16 ns. -/
  soff    : Tbl Int := []
  /-- The timebase has been locked or in holdover since start (R400). -/
  held    : Bool := false
  /-- The steps since start, newest first: when, on the duration clock, and by how much in units of 2^-16 ns (R402). -/
  steps   : List (Nat × Int) := []
  /-- When the timebase began or ceased to count as locked since start, newest first, on the duration clock (R422). -/
  flips   : List Nat := []
  deriving DecidableEq, Repr

/-- The IRIG-B input (R405): consecutive accepted frames, the TAI second of the last, and when it was received, on the
duration clock. -/
structure IrigSt where
  good : Nat := 0
  last : Option Int := none
  seen : Nat := 0
  deriving DecidableEq, Repr

/-- The 1PPS input (R405, R415): consecutive edges a second apart, and the last edge used, on the duration clock. -/
structure PpsSt where
  good : Nat := 0
  last : Option Nat := none
  deriving DecidableEq, Repr

/-- The IRIG-B and 1PPS outputs (R414, R415): the last second for which a frame was sent and a pulse begun, and
when the pulse in progress falls, on the duration clock. -/
structure OutSt where
  irig : Option Nat := none
  pps  : Option Int := none
  fall : Option Nat := none
  deriving DecidableEq, Repr

/-- A Sync that waits for its Follow_Up: sender, sequence number, ingress stamp and correction. -/
structure PtpSync where
  sender : List Byte
  seq    : Nat
  stamp  : Nat
  corr   : Int
  deriving DecidableEq, Repr

/-- A peer-delay exchange in progress: the stamps of the request's departure, its reception, and the
response's arrival, and the corrections so far; the responder when its Follow_Up is awaited. -/
structure PtpPd where
  seq  : Nat
  t1   : Nat
  resp : Option (Nat × Nat × Int) := none
  deriving DecidableEq, Repr

/-- The live state of a PTP port (R406 to R411). Times are on the duration clock. -/
structure PtpPort where
  /-- The last Announce message of each sender, and when it came. -/
  anns   : List (List Byte × Nat) := []
  /-- When the announce receipt timer was started, and whether it has run out since the last Announce (R406). -/
  annAt  : Nat := 0
  out    : Bool := false
  sync   : Option PtpSync := none
  /-- The last offset measured at a SLAVE or PASSIVE port, in units of 2^-16 ns, and when (R410). -/
  syncAt : Option Nat := none
  off    : Option Int := none
  pd     : Option PtpPd := none
  /-- Mean peer link delay in units of 2^-16 ns. -/
  link   : Int := 0
  /-- The next sequence number and the last transmission of each kind of message. -/
  seqs   : Tbl Nat := []
  sent   : Tbl Nat := []
  /-- Messages of a ring that have been seen: sender, type and sequence number (R410). -/
  seen   : List (List Byte) := []
  deriving DecidableEq, Repr

/-- A fabric link (R290): the times of its replays and retrains, and of a retrain in progress, on the
duration clock. Links 0 to 15 are the block links, 16 to 19 the port-hub links, 20 to 25 the inter-region
links. -/
structure LinkSt where
  replays  : List Nat := []
  retrains : List Nat := []
  training : Option Nat := none
  failed   : Bool := false
  deriving DecidableEq, Repr

/-- A DMA transfer (R272, R273): its capabilities, length, mode and cookie, and the outcome of the checks
that precede it (R274). -/
structure DmaJob where
  src    : Cap
  dst    : Cap
  cq     : Cap
  len    : Nat
  cp     : Bool
  cookie : W
  status : Nat
  detail : Nat
  deriving DecidableEq, Repr

/-! # Sampled values (chapter 10). Times are TAI since the epoch in units of 2^-16 ns. -/

/-- A sample of a stream: its place in the stream's sequence, its time, each channel's value and 13 quality
bits, whether it was placed in arrival or holdover state, whether hpol makes it invalid, and the arrival
time of its frame. -/
structure Sample where
  k     : Nat
  t     : Int
  chans : List (BitVec 32 × Nat)
  held  : Bool
  inv   : Bool
  arr   : Nat
  /-- Kept for continuity alone: accepted before the last change of the channels' source (R339). -/
  cut   : Bool := false
  deriving DecidableEq, Repr

/-- The live state of a subscription beside its words (R341 to R348). -/
structure SubSt where
  /-- Accepted samples since the stream last started afresh, newest first. -/
  samples : List Sample := []
  /-- When the last frame counted in nfrm arrived, on the duration clock; none once the timeout has expired (R343). -/
  lastFrm : Option Nat := none
  /-- Consecutive frames whose smpSynch satisfies synreq (R348). -/
  ok      : Nat := 0
  /-- The delays of the last accepted frames in the synchronised state, newest first (R347). -/
  ds      : List Int := []
  /-- A simulation takeover is in force (R339). -/
  takes   : Bool := false
  /-- A gmIdentity mismatch has been posted since the last commit or recovery (R344). -/
  gm      : Bool := false
  deriving DecidableEq, Repr

/-- A plane that has begun and not completed (R351, R352), with the grid words in force for it. -/
structure Plane where
  p     : Nat
  tg    : Int
  rbase : Nat
  hbase : Nat
  dl    : Nat
  ctol  : Nat
  dbl   : Nat
  dbn   : Nat
  /-- Channels whose entry has been written. -/
  done  : List Nat
  ngood : Nat
  nsub  : Nat
  ninv  : Nat
  wfail : Bool
  gap   : Bool
  sim   : Bool
  deriving DecidableEq, Repr

/-- The live state of a sample grid: the planes begun, the index of the next grid instant, and whether the
next plane's header has gap set (R353). -/
structure GridSt where
  planes : List Plane := []
  next   : Int := 0
  gap    : Bool := false
  deriving DecidableEq, Repr

/-- An entry of a pair's duplicate table (R329): when it was made, on which lane, and whether a second copy
has matched it. -/
structure DupEntry where
  mac  : Nat
  seq  : Nat
  lane : Nat
  made : Nat
  seen : Bool
  deriving DecidableEq, Repr

/-! # Trips, publications and binary inputs (chapter 11). Intervals run on the duration clock. -/

/-- A registration (R372): voter, arrival, region and word. -/
structure VoteReg where
  voter  : Nat
  ti     : Nat
  region : Nat
  word   : W32
  deriving DecidableEq, Repr

/-- An enabled trip object: its configuration as copied at enable, and its live state (R369, R376). The
positions are those with pen set: octet offset, width in octets, shift. -/
structure TripObj where
  rule   : Nat
  lmode  : Nat
  omask  : Nat
  pub    : Nat
  pon    : Bool
  win    : Nat
  tpulse : Nat
  pos    : List (Nat × Nat × Nat)
  ven    : Nat
  act    : Bool
  word   : W32
  regs   : List VoteReg
  ntrip  : Nat
  /-- When act last changed. -/
  since  : Nat
  deriving DecidableEq, Repr

/-- The counters of a trip object (R396). -/
structure TripCnt where
  ninv    : Nat := 0
  nmet    : Nat := 0
  ndis    : Nat := 0
  nact    : Nat := 0
  nexp    : Nat := 0
  nsame   : Nat := 0
  nlw     : Nat := 0
  nrel    : Nat := 0
  nrelref : Nat := 0
  deriving DecidableEq, Repr

/-- An enabled publication: its configuration as copied at enable, and its live state (R381, R384, R385). -/
structure Pub where
  dmac    : Nat
  vid     : Nat
  pcp     : Nat
  vtag    : Bool
  appid   : Nat
  ed      : Nat
  sim     : Bool
  ndscom  : Bool
  confrev : Nat
  lanes   : Nat
  dlen    : Nat
  nent    : Nat
  tmin    : Nat
  t0      : Nat
  gocbref : List Byte
  datset  : List Byte
  goid    : List Byte
  st      : Nat
  sq      : Nat
  /-- The t field of the last state change. -/
  t       : List Byte
  /-- When the planned frame is due, and the interval that follows it, in us. -/
  due     : Nat
  iv      : Nat
  deriving DecidableEq, Repr

/-- The counters of a publication (R396). -/
structure PubCnt where
  ntx   : Nat := 0
  nst   : Nat := 0
  ncanc : Nat := 0
  nterr : Nat := 0
  deriving DecidableEq, Repr

/-- An access of the trip unit or of an egress engine that waits for a link or at a gate (R24, R265): lstate and ttrip of an
object, or the frame of a publication on a cage, with the cages whose reads meet an error. -/
inductive TripLate where
  | lstate (n : Nat) (o : TripObj) (bs : List Byte)
  | frame (p : Nat) (x : Pub) (bad q : Nat)
  deriving DecidableEq, Repr

/-- The trip unit. -/
structure TripSt where
  objs  : Tbl TripObj := []
  cnts  : Tbl TripCnt := []
  pubs  : Tbl Pub := []
  pcnts : Tbl PubCnt := []
  /-- The timebase instant and the region of the last request taken (R372). -/
  turn  : Option (Nat × Nat) := none
  /-- Accesses that wait, oldest first. -/
  late  : List TripLate := []
  deriving DecidableEq, Repr

/-- A binary input (R393, R394): the times of the changes of the last second, newest first; since when it
is suppressed; whether the next event says that suppression has ended; and its counters. -/
structure BinSt where
  changes : List Nat := []
  supp    : Option Nat := none
  ended   : Bool := false
  nevt    : Nat := 0
  nglitch : Nat := 0
  nchat   : Nat := 0
  deriving DecidableEq, Repr

/-! # Power (chapter 16) -/

/-- A change of level or state in progress in a block's regulator (R524, R531). -/
inductive RegPhase where
  | none
  /-- A raise, or an exit from nap or off, that waits for VIN_CORE. -/
  | vin (level : Nat)
  | vinFull (level : Nat)
  | slewUp (level : Nat)
  | divUp (level : Nat)
  | divDown (level : Nat)
  | slewDown (level : Nat)
  /-- The write-back for nap. -/
  | nap
  /-- The regulator goes to full mode, at the voltage of the level requested then. -/
  | full (level : Nat)
  deriving DecidableEq, Repr

/-- A block's regulator beside its words: the change in progress, the output voltage in mV, and since when all
four sensors have read 105 C or less. -/
structure BlkSt where
  phase : RegPhase := .none
  /-- The output current that an event has measured, with its time on the duration clock. -/
  imon  : Option (Nat × Nat) := none
  mv    : Nat := 680
  cool  : Option Nat := none
  deriving DecidableEq, Repr

/-- The VIN_CORE rail (R528, R529): the value in force, the target of a change in progress, whether the last change failed, and
since when the change or the failure stands. -/
structure VinSt where
  mv    : Nat := 750
  tgt   : Option Nat := none
  stuck : Bool := false
  since : Nat := 0
  deriving DecidableEq, Repr

/-! # Monarch (chapter 13). Times are on the duration clock. -/

/-- A placed thread (R428, R435, R441): its seat; the release of the activation in progress and the slot's runcyc
then; the next period boundary; and the cycles of its last 1,024 activations, newest first. -/
structure Thr where
  seat : Seat
  rel  : Option Nat := none
  cyc  : Nat := 0
  due  : Nat := 0
  est  : List Nat := []
  /-- It has completed an activation in the present epoch (R446). -/
  ran  : Bool := false
  /-- The slot's nobank at the end of the last epoch, and the bank waits of that epoch (R434). -/
  nob  : Nat := 0
  waits : Nat := 0
  deriving DecidableEq, Repr

/-- A loaded compartment (R426 to R455). -/
structure Comp where
  man   : List Byte
  asid  : Nat
  /-- 1 running, 2 migrating, 3 stopped, 4 standby (R455). -/
  state : Nat
  thr   : List Thr
  /-- Virtual and physical address of each object. -/
  objs  : List (Nat × Nat)
  rings : List (Nat × Nat)
  miss  : Nat := 0
  mig   : Nat := 0
  /-- The least slack of the present epoch and of the last, in ns. -/
  slack : Option Int := none
  last  : Int := 0
  /-- Times of its faults (R454). -/
  faults : List Nat := []
  /-- The migration in progress (R440). -/
  move  : Option Placement := none
  /-- It went active because the link was lost (R449). -/
  took  : Bool := false
  /-- The gate regions of its near objects (R433). -/
  near  : List GateSpan := []
  /-- The placement that would be better, the consecutive epochs for which it has been, and the last of them (R431). -/
  gain  : Option (Placement × Nat × Nat) := none
  /-- The compartments that its migration holds frozen with it (R440). -/
  held  : List Nat := []
  /-- When it was placed (R447). -/
  placed : Nat := 0
  /-- Its fault policy leaves it stopped, and the cause, faddr and finfo of its last fault (R454). -/
  halt  : Bool := false
  flt   : Option (W × W × W) := none
  deriving DecidableEq, Repr

/-- A tenant (R433): the cells of its domain, its gate regions, and the epoch in which a thread of it last ran on each
cell. -/
structure Tenant where
  domain : List Nat := []
  spans  : List GateSpan := []
  used   : Tbl Nat := []
  deriving DecidableEq, Repr

/-- Monarch's view of a block: consecutive epochs below the thermal limit, and epochs without a thread (R437 to
R439). -/
structure MonBlk where
  cool : Nat := 10
  idle : Nat := 0
  /-- For each level, the consecutive epochs for which it has qualified (R438). -/
  qual : List Nat := [0, 0, 0, 0]
  /-- It has been lowered for its temperature and not yet raised again (R437). -/
  low  : Bool := false
  /-- One more than the epoch in which its level was last changed (R437). -/
  at_  : Nat := 0
  deriving DecidableEq, Repr

/-- An advisory proposal (R445). -/
structure Proposal where
  seq    : Nat
  kind   : Nat
  target : Nat
  arg    : Nat
  gain   : BitVec 32
  posted : Nat
  ok     : Bool
  /-- The placement that a migration proposes. -/
  place  : Option Placement := none
  deriving DecidableEq, Repr

/-- Monarch's settings in force (R444, R455). -/
structure MonPar where
  mode     : Nat := 0
  ucap     : Nat := 700
  slackmin : Nat := 10
  migmax   : Nat := 8
  tthr     : Nat := 100
  advto    : Nat := 100
  sparebl  : Nat := 1
  deriving DecidableEq, Repr

structure MonSt where
  comps   : Tbl Comp := []
  tenants : Tbl Tenant := []
  /-- Manifests waiting to be placed, oldest first. -/
  wait    : List (Nat × List Byte) := []
  /-- Epochs since start. -/
  epoch   : Nat := 0
  /-- When the epochs began. -/
  start   : Nat := 0
  blks    : Tbl MonBlk := []
  prop    : Option Proposal := none
  propSeq : Nat := 0
  par     : MonPar := {}
  /-- Times at which cells stopped in the last 10 s, the cells left stopped, and those that Monarch has stopped in a block
  without threads (R439, R451). -/
  stops   : Tbl (List Nat) := []
  left    : List Nat := []
  parked  : List Nat := []
  /-- Stage 1 has given the hub cores their authority (R424, R560). -/
  auth    : Bool := false
  /-- The waiting manifests that an epoch has taken up (R436, step 3). -/
  taken   : List Nat := []
  /-- The compartment whose mirror copy comes first in the next epoch (R446). -/
  turn    : Nat := 0
  /-- A journalled manifest was not placed with result 0x00 (R470). -/
  failed  : Bool := false
  /-- The pages that hold translation tables which Monarch has written (R424). -/
  tabs    : List Nat := []
  deriving DecidableEq, Repr

/-- The twin link (R446 to R450). -/
structure TwinSt where
  /-- 0 unpaired, 1 paired, 2 split. -/
  state : Nat := 0
  /-- The last heartbeat that arrived, and the last that was sent. -/
  hb    : Option Nat := none
  sent  : Option Nat := none
  /-- When the lanes began training. -/
  since : Nat := 0
  /-- When the last mirror copy was sent or applied. -/
  mir   : Option Nat := none
  nmiss : Nat := 0
  ntake : Nat := 0
  nsplit : Nat := 0
  nerr  : Nat := 0
  /-- Takeovers asked of the partner and not acknowledged. -/
  asked : List Nat := []
  /-- rm_state, and the removal request of the latches (R450, R578). -/
  rm    : Nat := 0
  req   : Bool := false
  /-- The evacuation has begun, and the host has consented to one without a partner (R450). -/
  evac  : Bool := false
  consent : Bool := false
  /-- The partner as it showed itself when the pair formed (R447). -/
  partner : Option Partner := none
  deriving DecidableEq, Repr

/-! # The chip's power controller and the island (chapter 16, R403) -/

structure ChipSt where
  /-- The state that the wake in progress started from: 1 standby, 2 hibernate, 3 wake-failed, 0 a chip reset. -/
  origin  : Nat := 0
  /-- The cause that the start or wake in progress will report, and the sources that fired (R544, R548). -/
  cause   : Nat := 0
  fired   : Nat := 0
  /-- When the last attempt failed, while a retry is awaited (R542). -/
  retry   : Option Nat := none
  /-- The chip is in thermal standby, or wakes from it (R537). -/
  thermal : Bool := false
  /-- Blocks whose contents were saved to DDR4 (R536), and the block words and running cells to restore (R541). -/
  saved   : List Nat := []
  resume  : List (Nat × W) := []
  cells   : List Nat := []
  /-- Blocks whose contents standby has lost (R452, R536, R537), and when standby was entered (R535). -/
  lost    : List Nat := []
  slept   : Nat := 0
  /-- The supplies. -/
  mains   : Bool := true
  aux     : Bool := true
  /-- Hibernate was entered by a loss of the main supply (R543). -/
  mainsLost : Bool := false
  /-- The chip has started since the auxiliary supply was applied, and when that was (R582). -/
  started : Bool := true
  auxAt   : Nat := 0
  /-- The island's TAI copy in us, its validity, and the recorded timebase state (R403). -/
  isl     : Nat := 0
  /-- The island timer: the island clock since the auxiliary supply was applied, in units of 2^-32 ns, and its value
  when the copy was taken (R34). -/
  ref     : Nat := 0
  islRef  : Nat := 0
  islOk   : Bool := false
  islSt   : Nat := 0
  /-- When lock was lost, on the duration clock, and the last source that was active, as the island keeps them with the
  recorded state (R403). -/
  islLost : Nat := 0
  islSrc  : Nat := 0
  /-- When the present start began. -/
  bootAt  : Nat := 0
  /-- A cause of the failed state (R471). -/
  fcause  : Nat := 0
  /-- The device state that the last reset left, as the transition to configuring records it (R469, R489). -/
  was     : Nat := 0
  deriving DecidableEq, Repr

/-! # Boot, identity and debug (chapter 17) -/

/-- A request for a signature, in order (R565): an attestation report for a session's write, or a session's
identity signature. -/
inductive SignJob where
  | report (sess tid : Nat) (nonce : List Byte)
  | ident (sess tid : Nat)
  deriving DecidableEq, Repr

/-- A job of a SHA-256 lane in progress, as its words stood at go (R567). -/
structure ShaJob where
  src  : Nat
  len  : Nat
  mode : Nat
  tot  : Nat
  dig  : List Byte
  deriving DecidableEq, Repr

/-- The slot control record (R557). -/
structure SlotRec where
  gen     : Nat := 1
  active  : Nat := 0
  pending : Option Nat := none
  trial   : Nat := 0
  stA     : Nat := 4
  stB     : Nat := 0
  deriving DecidableEq, Repr

structure SecSt where
  /-- OTP bits burned since manufacture, by bit number (R553). -/
  fuses   : List Nat := []
  /-- The commissioning secrets (R564). -/
  op      : Option (List Byte) := none
  mnt     : Option (List Byte) := none
  /-- The debug nonce, rejections since reset, an unlock with its end and rights (R571, R572). -/
  nonce   : List Byte := []
  rejects : Nat := 0
  unlock  : Option (Nat × Nat) := none
  was     : Bool := false
  /-- The last attestation report (R566). -/
  report  : List Byte := []
  jobs    : List SignJob := []
  /-- The image slots, the record, the running slot, the last result (R554 to R562). -/
  flash   : Tbl (List Byte) := []
  slots   : SlotRec := {}
  run     : Nat := 0
  result  : Nat := 0
  /-- An image being programmed: the slot, and the session and transaction that wait. -/
  prog    : Option (Nat × List Byte × Nat × Nat) := none
  deriving DecidableEq, Repr

/-! # The dictionary and the link (chapters 14 and 15) -/

/-- A journal record in force: generation and content (R477). -/
structure JRec where
  gen  : Nat
  data : List Byte
  deriving DecidableEq, Repr

/-- The settings journal of one SPI NOR device: the valid records in force by bank, table image or manifest, and the bytes in
use, live and dead. A record whose CRC fails is ignored, and counts in `used` alone (R477). -/
structure Jnl where
  recs : Tbl JRec := []
  used : Nat := 0
  deriving DecidableEq, Repr

structure DictSt where
  /-- Retained values not yet in the journal, by bank (R473). -/
  dirty   : List Nat := []
  /-- The settings journals of the two devices (R477). -/
  jnl     : Jnl := {}
  jnl2    : Jnl := {}
  /-- Manifests placed or unloaded in configuring, which the journal holds from the next commit on: the record, or none for one
  that leaves it (R473). -/
  pend    : Tbl (Option JRec) := []
  /-- Bank 14 failed its check at this start (R478). -/
  tailBad : Bool := false
  rstJnl  : Nat := 0
  rstFac  : Nat := 0
  /-- autorun has committed (R480). -/
  auto    : Bool := false
  /-- Refusals by session: unit, reason, object (R487). -/
  ref     : Tbl (Nat × Nat × Nat) := []
  deriving DecidableEq, Repr

/-- An open transaction (R505 to R513). -/
structure Txn where
  tid  : Nat
  /-- 0 upload, 1 download, 2 AUTH step 1 with a signature, 3 a request whose answer waits. -/
  kind : Nat
  idx  : Nat := 0
  sub  : Nat := 0
  /-- The type and payload of the request that opened it. -/
  req  : List Byte := []
  /-- Device segments: the data, and of each segment sent the time and the number of resends. -/
  data : List Byte := []
  sent : Tbl (Nat × Nat) := []
  /-- The lowest segment not acknowledged, or not received. -/
  next : Nat := 0
  held : Tbl (List Byte) := []
  fin  : Option Nat := none
  ann  : Nat := 0
  /-- Segments accepted since the last ACK, and when one was last accepted. -/
  got  : Nat := 0
  last : Nat := 0
  /-- The payload of the last segment of a download. -/
  lastSeg : List Byte := []
  deriving DecidableEq, Repr

/-- A transaction in quarantine, with its final message (R506, R507). -/
structure Quar where
  tid   : Nat
  ends  : Nat
  req   : List Byte
  seg   : List Byte
  /-- Type, flags and payload of the final message. -/
  final : Nat × Nat × List Byte
  deriving DecidableEq, Repr

/-- An authentication between its steps (R514, R515). -/
structure AuthSt where
  tid  : Nat
  cls  : Nat
  nh   : List Byte
  nd   : List Byte
  khd  : List Byte
  kdh  : List Byte
  /-- When the keys lapse. -/
  ends : Option Nat
  deriving DecidableEq, Repr

/-- An open session (R502 to R518). -/
structure Sess where
  carrier : Carrier
  cls     : Nat := 0
  epoch   : Nat
  /-- When a message was last accepted. -/
  heard   : Nat
  sel     : Tbl Nat := []
  txs     : List Txn := []
  quar    : List Quar := []
  auth    : Option AuthSt := none
  keys    : Option (List Byte × List Byte) := none
  txSeq   : Nat := 0
  rxMax   : Nat := 0
  rxSeen  : List Nat := []
  fails   : Nat := 0
  deriving DecidableEq, Repr

/-- An OPEN in quarantine (R506): where it came from, its tid and payload, its end, and the answer: session, epoch,
type and payload. -/
structure OpenDone where
  car   : Carrier
  tid   : Nat
  req   : List Byte
  ends  : Nat
  sess  : Nat
  epoch : Nat
  typ   : Nat
  ans   : List Byte
  deriving DecidableEq, Repr

structure DunziaSt where
  sess   : Tbl Sess := []
  /-- Epoch counters, kept by the island (R503). -/
  epochs : Tbl Nat := []
  /-- Quarantined OPEN requests: source, tid, nonce, end, and the answer (R506). -/
  opens  : List OpenDone := []
  /-- Times of wrong proofs, and lockouts with their ends, by carrier (R518). -/
  wrong  : List (Carrier × Nat) := []
  locks  : List (Carrier × Nat) := []
  /-- The mailbox's response buffer, and the messages that wait for it (R497). -/
  rsp    : Option (List Byte) := none
  rspQ   : List (List Byte) := []
  deriving DecidableEq, Repr

/-! # Module hardware (chapter 18) -/

/-- A cage (R576): when it was switched off, and whether its pluggable is held in low-power mode. -/
structure Cage where
  off : Option Nat := none
  low : Bool := false
  deriving DecidableEq, Repr

structure HwSt where
  /-- The internal 12 V bus: on or off, and when it was switched off by a fault (R583). -/
  bus    : Bool := true
  busOff : Option Nat := none
  cages  : Tbl Cage := []
  /-- Lanes with link (R577). -/
  up     : List Nat := []
  ocxo   : Bool := false
  /-- When the island went over to the TCXO (R586). -/
  tcxo   : Option Nat := none
  /-- The node number that the slot pins gave (R581). -/
  node   : Nat := 1
  /-- PERST_N is high, and the PCIe link is up (R587, R589). -/
  perst  : Bool := true
  pcie   : Bool := false
  /-- The JTAG bypass bit (R569). -/
  bypass : Bool := false
  deriving DecidableEq, Repr

/-- The extension of an IRIG-B frame that is sent (R414): the year, the leap second pending in the last minute (added or
removed), the local offset, the time quality and the parity. -/
structure IrigExt where
  year    : Nat
  leap    : Option Bool
  offset  : Int
  quality : Nat
  parity  : Bool
  deriving DecidableEq, Repr

/-- What leaves the module. -/
inductive Out where
  /-- A frame sent on an Ethernet lane: the bytes from the destination MAC to the FCS, exclusive. -/
  | frame (lane : Nat) (bytes : List Byte)
  /-- An IRIG-B frame: format, UTC seconds, and the extension. -/
  | irig (code : Nat) (utc : Int) (ext : Option IrigExt)
  /-- A change of the 1PPS output's level. -/
  | pps (level : Bool)
  /-- A Dunzia message: where it goes, the CAN FD identifier or the port that it comes from, and its bytes with the padding of
  its carrier (R494, R495). -/
  | msg (dst : Carrier) (src : Nat) (bytes : List Byte)
  /-- MSI-X vector 0 (R497). -/
  | msix
  /-- A write through the PCIe outbound window, by PCIe address (R589). -/
  | outbound (addr : Nat) (bytes : List Byte)
  /-- What the twin lanes carry (R446 to R450): 0 heartbeat, 1 mirror copy, 2 takeover request, 3 acknowledgement. -/
  | twin (kind cid : Nat) (objs : List (List Byte))
  /-- The value that a JTAG instruction shifts out (R569). -/
  | jtag (bits value : Nat)
  /-- The completion of a host access through BAR2: the bytes read, or its failure (R589). -/
  | pcie (ok : Bool) (bytes : List Byte)
  deriving DecidableEq, Repr

/-! # The whole module -/

/-- The state of the module. -/
structure State where
  /-- The commands waiting, first in, first out. -/
  pending : List Instr := []
  /-- The model's own counter of free values drawn. -/
  fresh   : Nat := 0
  cells   : Tbl Cell := []
  /-- Memory bytes by physical address, in canonical form; unlisted bytes read as 0 (R80). -/
  mem     : List Host.Cell := []
  /-- The granules (address / 16) whose tag is set, rising (R71). -/
  tags    : List Nat := []
  caches  : CacheSt := {}
  /-- Control-space words that are not at their reset value, by physical address (R36). -/
  regs    : Tbl W := []
  time    : TimeSt := {}
  /-- The variant CXM-256-128, with 32 GiB on each channel (R2, R40). -/
  v128    : Bool := false
  /-- The DDR4 mapping in force is striped (R39). -/
  striped : Bool := false
  fenced  : Option Nat := none
  offline : List Nat := []
  /-- Gate configuration writes accepted and not yet applied (R265): gate, address, value. -/
  gatePend : List (Nat × Nat × W) := []
  posts   : List Posting := []
  /-- q operations that have reached a region's queue manager, oldest first (R307). -/
  qman    : Tbl (List QReq) := []
  /-- Cached descriptors by region, most recently used first (R317). -/
  qcache  : Tbl (List QDesc) := []
  /-- Waiters and blocked enqueuers by queue, oldest first (R309, R310). -/
  qwait   : Tbl (List QReq) := []
  /-- The queue table base is in force at every manager and cell (R318). -/
  qReady  : Bool := false
  /-- qbase has been written (R318). -/
  qbaseSet : Bool := false
  links   : Tbl LinkSt := []
  subs    : Tbl SubSt := []
  grids   : Tbl GridSt := []
  /-- Duplicate tables by pair, oldest entry first. -/
  dups    : Tbl (List DupEntry) := []
  /-- The addresses of the ring and header writes that meet a bus error while the command in progress runs; empty
  between commands (R362). -/
  busLost : List Nat := []
  /-- What a queue manager meets in the command in progress (R321); nothing between commands. -/
  qmet : QErr := .none
  /-- The command in progress has met, in a unit of the chip, a request that must wait for a link or at a gate; false between
  commands (R24, R265). -/
  waits   : Bool := false
  /-- When each pair last sent supervision frames, on the duration clock (R330). -/
  supvAt  : Tbl Nat := []
  trip    : TripSt := {}
  /-- Sequence numbers of the redundancy pairs (R386). -/
  pairSeq : Tbl Nat := []
  /-- When the timers of GOOSE subscriptions expire, on the duration clock (R391). -/
  gtimer  : Tbl Nat := []
  /-- The 129th octet of a GOOSE subscription's gocbRef (R390, R484). -/
  gocbTail : Tbl Nat := []
  bins    : Tbl BinSt := []
  /-- The sequence number of binary input events (R394). -/
  binSeq  : Nat := 0
  irig    : IrigSt := {}
  pps     : PpsSt := {}
  ptp     : Tbl PtpPort := []
  outs    : OutSt := {}
  blks    : Tbl BlkSt := []
  vin     : VinSt := {}
  /-- What has left the module, newest first. -/
  tx      : List Out := []
  /-- The DMA engines' transfers in progress, by 2r + e. -/
  dma     : Tbl DmaJob := []
  /-- The device state (R468). -/
  dev     : Nat := 0
  /-- Regions whose hub core is lost (R425). -/
  hubLost : List Nat := []
  /-- A fatal error has occurred and the device has not entered configuring since (R594). -/
  fatal   : Bool := false
  log     : List LogRec := []
  /-- The event tail that bank 14 holds, oldest first, and the generation of that bank (R475, R493). -/
  tail    : List LogRec := []
  tailGen : Nat := 0
  /-- Bytes that others than the service have stored to bank 14 since it last wrote the bank, by offset (R475). -/
  tailPatch : Tbl Byte := []
  logNext : Nat := 0
  logLost : Nat := 0
  /-- Values of dictionary objects that are not at their default, by index × 256 + subindex. -/
  objs    : Tbl (List Byte) := []
  mon     : MonSt := {}
  twin    : TwinSt := {}
  chip    : ChipSt := {}
  sec     : SecSt := {}
  /-- The jobs in progress of the hubs' SHA-256 lanes, by 8 × engine + lane (R567). -/
  sha     : Tbl ShaJob := []
  dict    : DictSt := {}
  dl      : DunziaSt := {}
  hw      : HwSt := {}
  deriving DecidableEq, Repr

/-- The machine stops with a fault: no meaning of this model does. -/
inductive Fault where
  | none
  deriving DecidableEq, Repr

/-- Why a command has no meaning. -/
inductive Refusal where
  /-- A command of the table whose meaning is not written yet; safe. -/
  | notModelled (mnemonic : String)
  deriving DecidableEq, Repr

/-- The root capabilities (R81): memory, executable, sealing, system. -/
def rootMem : Cap := { addr := 0, hi := 0x27D000C800000001, tag := true }
def rootExec : Cap := { addr := 0x60000000, hi := 0x017000C800000001, tag := true }
def rootSeal : Cap := { addr := 0x001, hi := 0x18100000F0000040, tag := true }
def rootSys : Cap := { addr := 0x60000000, hi := 0x60D0003B00000000, tag := true }

/-- Bank 5 of cell 0.0.00 at reset (R81, R219): the roots in c0 to c3 and pcc at the start of the boot ROM. -/
def rootBank : Bank :=
  { c := [(0x20, rootMem), (0x21, rootExec), (0x22, rootSeal), (0x23, rootSys)], pcc := rootExec }

/-- Cell 0.0.00 at reset: it runs at level 1 in vector-table mode (R219, R558). -/
def rootCell : Cell := { run := 5, banks := [(5, rootBank)], stopped := false, runBit := true }

/-- The module right after reset. -/
def State.reset : State := { cells := [(0, rootCell)] }

end Sys2Proof.Machine
end

