-- ==== Sys2Proof/Machine/Tbl.lean ====
section
/-! DEFINITION. Operations on sparse tables (register files, port state, numbered records) and the
small list helpers the machine uses. -/

namespace Sys2Proof.Machine

/-- The entry numbered `k`, if one is listed. -/
def tblFind {α : Type} : Tbl α → Nat → Option α
  | [], _ => none
  | (j, v) :: t, k => if j = k then some v else tblFind t k

/-- The entry numbered `k`, or the family's default. -/
def tblGet {α : Type} (dflt : α) (t : Tbl α) (k : Nat) : α := (tblFind t k).getD dflt

/-- The table with entry `k` made `v`, its place kept in rising order of numbers. -/
def tblSet {α : Type} (k : Nat) (v : α) : Tbl α → Tbl α
  | [] => [(k, v)]
  | (j, w) :: t =>
    if j = k then (k, v) :: t
    else if k < j then (k, v) :: (j, w) :: t
    else (j, w) :: tblSet k v t

/-- The table without entry `k`. -/
def tblDel {α : Type} (k : Nat) (t : Tbl α) : Tbl α := t.filter (fun e => e.1 ≠ k)

/-- Several entries set in order, later ones over earlier ones. -/
def tblSets {α : Type} (l : List (Nat × α)) (t : Tbl α) : Tbl α :=
  l.foldl (fun t e => tblSet e.1 e.2 t) t

/-- Element `i` of a list replaced; the list unchanged when it has no element `i`. -/
def listSet {α : Type} (l : List α) (i : Nat) (v : α) : List α := l.set i v

/-- The first element that satisfies `p`, taken out: the element and the rest of the list. -/
def takeFirst {α : Type} (p : α → Bool) : List α → Option (α × List α)
  | [] => none
  | x :: xs =>
    if p x then some (x, xs)
    else (takeFirst p xs).map (fun r => (r.1, x :: r.2))

/-- A quotient rounded to nearest, ties away from zero; the divisor is positive. -/
def roundDiv (a : Int) (b : Nat) : Int :=
  if 0 ≤ a then (2 * a + b) / (2 * b) else -((-2 * a + b) / (2 * b))

/-- The element with the least key; the earliest of equals. -/
def minBy {α : Type} (key : α → Nat) : List α → Option α
  | [] => none
  | x :: xs =>
    match minBy key xs with
    | none => some x
    | some y => if key y < key x then some y else some x

/-- Bits `[hi:lo]` of a 64-bit word, as a number (R11). -/
def fld (w : W) (hi lo : Nat) : Nat := (w.toNat / 2 ^ lo) % 2 ^ (hi + 1 - lo)

/-- Bit `i` of a word. -/
def bit (w : W) (i : Nat) : Bool := w.toNat.testBit i

/-- A word with its low `n` bits set. -/
def ones (n : Nat) : W := BitVec.ofNat 64 (2 ^ n - 1)

/-- The word with bits `[hi:lo]` replaced by the low bits of `v`. -/
def setFld (w : W) (hi lo v : Nat) : W :=
  let n := w.toNat
  let m := 2 ^ (hi + 1 - lo)
  BitVec.ofNat 64 (n - (n / 2 ^ lo % m) * 2 ^ lo + (v % m) * 2 ^ lo)

/-- 1 for true, 0 for false. -/
def b2n (b : Bool) : Nat := if b then 1 else 0

/-- A word from a number, taken modulo 2^64. -/
abbrev wd (n : Nat) : W := BitVec.ofNat 64 n

/-- Bytes of a number, least significant first (R11: little-endian). -/
def leBytes : Nat → Nat → List Byte
  | 0, _ => []
  | k + 1, v => BitVec.ofNat 8 v :: leBytes k (v / 256)

/-- The number that bytes spell, least significant first. -/
def leNat : List Byte → Nat
  | [] => 0
  | b :: bs => b.toNat + 256 * leNat bs

/-- The number that bytes spell, most significant first, as network formats have it. -/
def beNat (l : List Byte) : Nat := leNat l.reverse

/-- Bytes of a number, most significant first. -/
def beBytes (k v : Nat) : List Byte := (leBytes k v).reverse

/-- `n` elements of a byte list from offset `o`, zero where the list ends. -/
def slice (l : List Byte) (o n : Nat) : List Byte :=
  let r := (l.drop o).take n
  r ++ List.replicate (n - r.length) 0

/-- A count that stops at 2^32 − 1 (R260, R293). -/
def satInc32 (n : Nat) : Nat := if n < 0xFFFFFFFF then n + 1 else 0xFFFFFFFF

/-- The last `n` of a list. -/
def lastN {α : Type} (n : Nat) (l : List α) : List α := l.drop (l.length - n)

/-- Values limited to a range of integers. -/
def clampInt (lo hi v : Int) : Int := if v < lo then lo else if hi < v then hi else v

end Sys2Proof.Machine
end

