-- ==== Sys2Proof/Machine/Cap.lean ====
section
/-! DEFINITION. Capabilities (chapter 2): fields, bounds arithmetic, derivation and the checks that
every access passes. All arithmetic on bounds is exact, over the integers (R53). -/

namespace Sys2Proof.Machine

/-! Permission bits (R58). -/

def permGL : BitVec 12 := 0x001
def permEX : BitVec 12 := 0x002
def permLD : BitVec 12 := 0x004
def permST : BitVec 12 := 0x008
def permLDC : BitVec 12 := 0x010
def permSTC : BitVec 12 := 0x020
def permSTL : BitVec 12 := 0x040
def permSEAL : BitVec 12 := 0x080
def permUNSEAL : BitVec 12 := 0x100
def permINVOKE : BitVec 12 := 0x200
def permSYSREG : BitVec 12 := 0x400

/-! Object types (R61). -/

def otypeEntry : BitVec 12 := 0x001
def otypeReturn : BitVec 12 := 0x002
def otypeContext : BitVec 12 := 0x003
def otypeQueue : BitVec 12 := 0x004
def otypeTrip : BitVec 12 := 0x005
def otypeControl : BitVec 12 := 0x006

/-! Fields of the value (R50); bit `n` of the value, for n from 64 up, is bit `n - 64` of `hi`. -/

def capFw (c : Cap) : Bool := c.hi.getLsbD 0
def capBm (c : Cap) : Nat := fld c.hi 19 6
def capTm (c : Cap) : Nat := fld c.hi 33 20
def capExp (c : Cap) : Nat := fld c.hi 39 34
def capOtype (c : Cap) : BitVec 12 := c.hi.extractLsb' 40 12
def capPerms (c : Cap) : BitVec 12 := c.hi.extractLsb' 52 12

/-- A capability has every permission of `need`. -/
def capHas (c : Cap) (need : BitVec 12) : Bool := need &&& ~~~ (capPerms c) == 0

def capSealed (c : Cap) : Bool := capOtype c != 0

/-- The upper word from its fields (R50). -/
def capHi (perms otype : BitVec 12) (exp tm bm : Nat) (fw : Bool) : W :=
  wd (perms.toNat * 2 ^ 52 + otype.toNat * 2 ^ 40 + exp % 64 * 2 ^ 34 + tm % 2 ^ 14 * 2 ^ 20
    + bm % 2 ^ 14 * 2 ^ 6 + b2n fw)

/-- The untagged value that a 64-bit number becomes in a c-class port (R104). -/
def capOfWord (w : W) : Cap := { addr := w, hi := 0, tag := false }

/-- base (R53): exact, so an untagged value can decode below 0 or at 2^64 and above. -/
def capBase (c : Cap) : Int :=
  let e := capExp c
  let am := c.addr.toNat / 2 ^ e % 2 ^ 14
  let ahi : Int := (c.addr.toNat / 2 ^ (e + 14) : Nat)
  let bhi : Int := if capBm c ≤ am then ahi else ahi - 1
  bhi * 2 ^ (e + 14) + capBm c * 2 ^ e

/-- length (R53). -/
def capLen (c : Cap) : Nat :=
  (capTm c + 2 ^ 14 - capBm c) % 2 ^ 14 * 2 ^ capExp c + b2n (capFw c) * 2 ^ (capExp c + 14)

/-- top (R53): one past the last byte authorised. -/
def capTop (c : Cap) : Int := capBase c + capLen c

/-- An address is in the representable region (R54). -/
def capRepresentable (c : Cap) (a : Nat) : Bool :=
  decide (capBase c ≤ a) && decide ((a : Int) < capBase c + 2 ^ (capExp c + 14))

/-- The capability at another address: the tag stays only inside the representable region (R54). -/
def capSetAddr (c : Cap) (a : W) : Cap :=
  { c with addr := a, tag := c.tag && capRepresentable c a.toNat }

/-- pcc's address follows execution, and no such move clears the tag (R83). -/
def capFollow (c : Cap) (a : W) : Cap := { c with addr := a }

/-- The same capability with another otype. -/
def capWithOtype (c : Cap) (t : BitVec 12) : Cap :=
  { c with hi := wd (c.hi.toNat - c.hi.toNat / 2 ^ 40 % 2 ^ 12 * 2 ^ 40 + t.toNat * 2 ^ 40) }

/-- The same capability with other permissions. -/
def capWithPerms (c : Cap) (p : BitVec 12) : Cap :=
  { c with hi := wd (c.hi.toNat % 2 ^ 52 + p.toNat * 2 ^ 52) }

/-- The same capability unsealed. -/
def capUnsealed (c : Cap) : Cap := capWithOtype c 0

/-- The exponent for a length (R55). -/
def expFor (len : Nat) : Nat := if len ≤ 16384 then 0 else Nat.log2 (len - 1) + 1 - 14

/-- Bounds rounded at exponent `e`: base and top (R56). -/
def roundAt (e base len : Nat) : Nat × Nat :=
  (base / 2 ^ e * 2 ^ e, (base + len + 2 ^ e - 1) / 2 ^ e * 2 ^ e)

/-- Rounding of a request (R56): the exponent is increased while the rounded length does not fit. One
increase always suffices; the bound on the recursion is two. -/
def roundBounds : Nat → Nat → Nat → Nat → Nat × Nat × Nat
  | 0, e, base, len => (e, roundAt e base len)
  | k + 1, e, base, len =>
    let r := roundAt e base len
    if 2 ^ (e + 14) < r.2 - r.1 then roundBounds k (e + 1) base len else (e, r)

/-- Exponent, base and top that `cap.t.bnd` gives a request (R56). -/
def bndOf (base len : Nat) : Nat × Nat × Nat := roundBounds 2 (expFor len) base len

/-- The capability with bounds encoded at exponent `e` (R55); address and rights unchanged. -/
def capWithBounds (c : Cap) (e base top : Nat) : Cap :=
  { c with hi := capHi (capPerms c) (capOtype c) e (top / 2 ^ e) (base / 2 ^ e)
                  (decide (top - base = 2 ^ (e + 14))) }

/-! Faults. The reason kinds are those of R84. -/

def causeUndef : Nat := 0x01
def causeTag : Nat := 0x02
def causeSealed : Nat := 0x03
def causePerm : Nat := 0x04
def causeBounds : Nat := 0x05
def causeNxfetch : Nat := 0x06
def causePage : Nat := 0x08
def causePkey : Nat := 0x09
def causeAdtrap : Nat := 0x0A
def causeWalkdev : Nat := 0x0B
def causeWalkerr : Nat := 0x0C
def causeGate : Nat := 0x0D
def causeDivz : Nat := 0x0E
def causeSpill : Nat := 0x0F
def causeGatedeny : Nat := 0x10
def causeLse : Nat := 0x40
def causeMchk : Nat := 0x41

/-- A capability check's failure: cause, reason kind, permissions missing (R84). -/
structure CapFail where
  cause : Nat
  kind : Nat
  missing : BitVec 12
  deriving DecidableEq, Repr

/-- finfo of a capability fault (R84). -/
def capFinfo (src : Nat) (f : CapFail) (len : Nat) : W :=
  wd (src % 32 + (if f.kind = 1 then f.missing.toNat else 0) * 2 ^ 8 + f.kind % 16 * 2 ^ 20
    + min len 255 * 2 ^ 24)

/-- The fault of a failed capability check (R84). -/
def capFault (src : Nat) (faddr : W) (len : Nat) (f : CapFail) : Flt :=
  { code := f.cause, faddr := faddr, finfo := capFinfo src f len }

/-- Base and top of a capability that has been moved to address `a` with no regard to the representable region, when
its encoding no longer decodes to them there (R83). `lim` are those of the capability as it stands. -/
def limAt (c : Cap) (lim : Option (Int × Int)) (a : W) : Option (Int × Int) :=
  let b := lim.getD (capBase c, capTop c)
  if b = (capBase (capFollow c a), capTop (capFollow c a)) then none else some b

/-- A capability that is no longer followed as pcc, at address `a`: its tag stays where its encoding decodes there to the
bounds it has (R54). -/
def capMoved (c : Cap) (lim : Option (Int × Int)) (a : W) : Cap :=
  { c with addr := a, tag := c.tag && (limAt c lim a).isNone }

/-- The checks of R83 in order, against the bounds `base` and `top`: an access of `n` bytes at `a` that needs the
permissions `need`; `capa` for a capability access, `lcl` for the store of a local capability. -/
def boundsCheck (c : Cap) (base top : Int) (a n : Nat) (need : BitVec 12) (capa lcl : Bool) : Option CapFail :=
  if !c.tag then some ⟨causeTag, 0xA, 0⟩
  else if capSealed c then some ⟨causeSealed, 0x8, 0⟩
  else if !capHas c need then some ⟨causePerm, 0x1, need &&& ~~~ (capPerms c)⟩
  else if capa && a % 16 != 0 then some ⟨causePerm, 0x2, 0⟩
  else if lcl && !capHas c permSTL then some ⟨causePerm, 0x3, 0⟩
  else if (a : Int) < base || top < (a : Int) + n then some ⟨causeBounds, 0x0, 0⟩
  else none

/-- The checks of R83 against a capability's own bounds. -/
def capCheck (c : Cap) (a n : Nat) (need : BitVec 12) (capa lcl : Bool) : Option CapFail :=
  boundsCheck c (capBase c) (capTop c) a n need capa lcl

/-- A unit's check of a sealed operand (R66). -/
def sealedCheck (c : Cap) (accepts : BitVec 12 → Bool) : Option CapFail :=
  if !c.tag then some ⟨causeTag, 0xA, 0⟩
  else if !accepts (capOtype c) then some ⟨causeSealed, 0x9, 0⟩
  else if !capHas c permINVOKE then some ⟨causePerm, 0x1, permINVOKE⟩
  else none

/-- The check of a branch target (R154, steps 1 to 3), also of fpcc at br.t.eret (R210). -/
def jumpCheck (c : Cap) : Option CapFail :=
  if !c.tag then some ⟨causeTag, 0xA, 0⟩
  else if capOtype c != 0 && capOtype c != otypeEntry then some ⟨causeSealed, 0x9, 0⟩
  else if !capHas c permEX then some ⟨causePerm, 0x1, permEX⟩
  else none

/-- The otypes that sealing may create (R63, step 5). -/
def sealableOtype (a : Nat) : Bool :=
  (1 ≤ a && a ≤ 6) || (0x100 ≤ a && a ≤ 0x1FF) || (0x200 ≤ a && a ≤ 0xEFF)

/-- An address within a capability's own bounds. -/
def capCovers (c : Cap) (a : Nat) : Bool := capBase c ≤ (a : Int) && (a : Int) < capTop c

/-- The failing capability of a two-operand check: the operand port's is named first (R84). -/
inductive Who where
  | operand
  | authority
  deriving DecidableEq, Repr

/-- The result of a cap operation: a capability on cap.rc, a word on cap.rd, or a fault and the
capability that failed. -/
inductive CapRes where
  | cap (c : Cap)
  | word (w : W)
  | fail (who : Who) (f : CapFail)
  deriving DecidableEq, Repr

/-- The check that a derivation operand is tagged and unsealed (R62, R69). -/
def derivable (c : Cap) : Option CapFail :=
  if !c.tag then some ⟨causeTag, 0xA, 0⟩
  else if capSealed c then some ⟨causeSealed, 0x8, 0⟩
  else none

/-- cap.t.setaddr (R67): only a value that is tagged and sealed faults. -/
def capSetaddrOp (oc : Cap) (a : W) : CapRes :=
  if oc.tag && capSealed oc then .fail .operand ⟨causeSealed, 0x8, 0⟩ else .cap (capSetAddr oc a)

/-- cap.t.bnd and cap.t.bnde (R56). -/
def capBndOp (exact : Bool) (oc : Cap) (len : W) : CapRes :=
  match derivable oc with
  | some f => .fail .operand f
  | none =>
    let a := oc.addr.toNat
    let e := expFor len.toNat
    if exact && (a % 2 ^ e != 0 || len.toNat % 2 ^ e != 0) then .fail .operand ⟨causeBounds, 0x5, 0⟩
    else
      let r := bndOf a len.toNat
      if (r.2.1 : Int) < capBase oc || capTop oc < (r.2.2 : Int) then
        .fail .operand ⟨causeBounds, 0x6, 0⟩
      else .cap (capWithBounds oc r.1 r.2.1 r.2.2)

/-- cap.t.andperm (R67): bit 11 is always cleared. -/
def capAndpermOp (oc : Cap) (m : W) : CapRes :=
  match derivable oc with
  | some f => .fail .operand f
  | none => .cap (capWithPerms oc (capPerms oc &&& m.extractLsb' 0 12 &&& 0x7FF))

/-- cap.t.seal (R63): the checks in order. -/
def capSealOp (oc au : Cap) : CapRes :=
  if !oc.tag then .fail .operand ⟨causeTag, 0xA, 0⟩
  else if !au.tag then .fail .authority ⟨causeTag, 0xA, 0⟩
  else if capSealed oc then .fail .operand ⟨causeSealed, 0x8, 0⟩
  else if capSealed au then .fail .authority ⟨causeSealed, 0x8, 0⟩
  else if !capHas au permSEAL then .fail .authority ⟨causePerm, 0x1, permSEAL⟩
  else if !capCovers au au.addr.toNat then .fail .authority ⟨causeBounds, 0x7, 0⟩
  else if !sealableOtype au.addr.toNat then .fail .authority ⟨causePerm, 0x4, 0⟩
  else .cap (capWithOtype oc (au.addr.extractLsb' 0 12))

/-- cap.t.unseal (R64): the checks in order; GL becomes the AND of the two. -/
def capUnsealOp (oc au : Cap) : CapRes :=
  if !oc.tag then .fail .operand ⟨causeTag, 0xA, 0⟩
  else if !au.tag then .fail .authority ⟨causeTag, 0xA, 0⟩
  else if capSealed au then .fail .authority ⟨causeSealed, 0x8, 0⟩
  else if !capSealed oc then .fail .operand ⟨causeSealed, 0x9, 0⟩
  else if !capHas au permUNSEAL then .fail .authority ⟨causePerm, 0x1, permUNSEAL⟩
  else if !capCovers au au.addr.toNat then .fail .authority ⟨causeBounds, 0x7, 0⟩
  else if au.addr.toNat != (capOtype oc).toNat then .fail .authority ⟨causePerm, 0x7, 0⟩
  else
    let p := if capHas au permGL then capPerms oc else capPerms oc &&& ~~~ permGL
    .cap (capWithPerms (capUnsealed oc) p)

/-- cap.t.land (R65). -/
def capLandOp (oc : Cap) : CapRes :=
  match derivable oc with
  | some f => .fail .operand f
  | none =>
    let a := oc.addr.toNat
    if !capHas oc permEX then .fail .operand ⟨causePerm, 0x1, permEX⟩
    else if a % 8 != 0 || (a : Int) < capBase oc || capTop oc < (a : Int) + 8 then
      .fail .operand ⟨causeBounds, 0x0, 0⟩
    else .cap (capWithOtype oc otypeEntry)

/-- cap.t.grain (R57). -/
def capGrainOp (len : W) : CapRes := .word (wd (2 ^ expFor len.toNat))

/-- cap.t.cover (R57). The spec states no 64-bit result for a length of 2^64 or more: a free value. -/
def capCoverOp (oc : Cap) (len : W) : CapRes :=
  let r := bndOf oc.addr.toNat len.toNat
  let n := r.2.2 - r.2.1
  .word (if n < 2 ^ 64 then wd n else Config.coverOverflow oc.addr len)

/-- cap.t.getbase (R53): the exact base modulo 2^64. -/
def capGetbaseOp (oc : Cap) : CapRes := .word (BitVec.ofInt 64 (capBase oc))

/-- cap.t.getlen (R53): saturated. -/
def capGetlenOp (oc : Cap) : CapRes := .word (wd (min (capLen oc) (2 ^ 64 - 1)))

/-- cap.t.getmeta (R67). -/
def capGetmetaOp (oc : Cap) : CapRes :=
  .word (wd ((capPerms oc).toNat + (capOtype oc).toNat * 2 ^ 16 + b2n oc.tag * 2 ^ 32))

/-- cap.t.subset (R67). -/
def capSubsetOp (oc au : Cap) : CapRes :=
  .word (wd (b2n (oc.tag && decide (capBase au ≤ capBase oc) && decide (capTop oc ≤ capTop au)
    && capPerms oc &&& ~~~ (capPerms au) == 0)))

/-- cap.t.chk (R70): the cause the described access would raise, or 0. A length of 0, which R70 does not list,
describes a range of no bytes (DESIGN CHOICE, log entry 48). -/
def capChkOp (oc : Cap) (t : W) : CapRes :=
  let n := fld t 7 0
  let need : BitVec 12 := t.extractLsb' 8 12
  let a := (oc.addr + (t.extractLsb' 32 32).signExtend 64).toNat
  match capCheck oc a n need (bit t 20) (bit t 21) with
  | some f => .word (wd f.cause)
  | none => .word 0

/-- The cap operations (R67), by trigger. `tc` is the trigger operand as a capability, `td` as a word. -/
def capOp (op : CapOp) (oc : Cap) (td : W) (tc : Cap) : CapRes :=
  match op with
  | .setaddr => capSetaddrOp oc td
  | .incaddr => capSetaddrOp oc (oc.addr + td)
  | .bnd => capBndOp false oc td
  | .bnde => capBndOp true oc td
  | .andperm => capAndpermOp oc td
  | .seal => capSealOp oc tc
  | .unseal => capUnsealOp oc tc
  | .land => capLandOp oc
  | .grain => capGrainOp td
  | .cover => capCoverOp oc td
  | .getbase => capGetbaseOp oc
  | .getlen => capGetlenOp oc
  | .getmeta => capGetmetaOp oc
  | .subset => capSubsetOp oc tc
  | .chk => capChkOp oc td

end Sys2Proof.Machine
end

