-- ==== Sys2Proof/Machine/Regs.lean ====
section
/-! DEFINITION. The control space (R36): where each part's registers lie, what each word holds at
reset, and access to a word. A word that is not listed in `State.regs` holds its reset value. -/

namespace Sys2Proof.Machine

/-! Control parts (R36). -/

def partSec : Nat := 0x60000000
def partIsland : Nat := 0x61000000
def partPort : Nat := 0x62000000
def partRegion : Nat := 0x64000000
def partBlock : Nat := 0x68000000
def partCell : Nat := 0x69000000
def partTime : Nat := 0x6A000000
def partPcie : Nat := 0x6B000000

/-- The control part, 0 to 7, that holds an address (R36). -/
def controlPart (a : Nat) : Option Nat :=
  if a < partSec then none
  else if a < partIsland then some 0
  else if a < partPort then some 1
  else if a < partRegion then some 2
  else if a < partBlock then some 3
  else if a < partCell then some 4
  else if a < partTime then some 5
  else if a < partPcie then some 6
  else if a < 0x6C000000 then some 7
  else none

/-- First address of control part `p`, and of the part after it. -/
def partBase (p : Nat) : Nat :=
  match p with
  | 0 => partSec | 1 => partIsland | 2 => partPort | 3 => partRegion
  | 4 => partBlock | 5 => partCell | 6 => partTime | 7 => partPcie | _ => 0x6C000000

/-- The address lies in the control space (R35). -/
def inControl (a : Nat) : Bool := decide (0x60000000 ≤ a) && decide (a < 0x6C000000)

/-- A region hub's control part (R36). -/
def hubBase (r : Nat) : Nat := partRegion + r * 0x1000000

/-- A block's control part (R36). -/
def blockBase (b : Nat) : Nat := partBlock + b * 0x100000

/-- A cell's control block (R36). A hub core has none in the address map; the words the model keeps for
one stand above the 48-bit physical space. -/
def ctlBase (core : Nat) : Nat :=
  if core < 256 then partCell + core * 0x10000 else 2 ^ 48 + core * 0x10000

/-! Target gates (R256). -/

/-- A gate's kind code. -/
def gateKind (g : Nat) : Nat :=
  if g < 0x100 then 0 else if g < 0x110 then 1 else if g < 0x114 then 2 else if g < 0x118 then 3
  else if g < 0x120 then 4 else 5

/-- Where the words of a gate's register block are kept: at the address of the block, but for gate 0x0FF, whose address
the control gate of part 4 answers (R256, log entry 39). -/
def gateBlock (g : Nat) : Nat :=
  if g = 0xFF then 2 ^ 49
  else if g < 0x100 then blockBase (g / 16) + 0x80000 + 0x8000 * (g % 16)
  else if g < 0x110 then blockBase (g - 0x100) + 0x78000
  else if g < 0x114 then hubBase (g - 0x110) + 0xF08000
  else if g < 0x118 then hubBase (g - 0x114) + 0xF00000
  else if g < 0x120 then partBase (g - 0x118 + 1) - 0x8000
  else 0x6BFF0000

/-- The address of a gate's register block (R256). -/
def gateAddr (g : Nat) : Nat := if g = 0xFF then 0x68FF8000 else gateBlock g

/-- The gate whose register block holds an address. The block of gate 0x0FF is also the last 32 KiB of
control part 4; the control gate answers there (R256, DESIGN CHOICE, log entry 39). -/
def gateAt (a : Nat) : Option Nat :=
  match controlPart a with
  | none => none
  | some p =>
    if partBase (p + 1) - 0x8000 ≤ a then some (0x118 + p)
    else if p = 4 then
      let b := (a - partBlock) / 0x100000
      let o := (a - partBlock) % 0x100000
      if 0x80000 ≤ o then some (b * 16 + (o - 0x80000) / 0x8000)
      else if 0x78000 ≤ o then some (0x100 + b) else none
    else if p = 3 then
      let r := (a - partRegion) / 0x1000000
      let o := (a - partRegion) % 0x1000000
      if 0xF08000 ≤ o ∧ o < 0xF10000 then some (0x110 + r)
      else if 0xF00000 ≤ o ∧ o < 0xF08000 then some (0x114 + r) else none
    else if p = 7 ∧ 0x6BFF0000 ≤ a then some 0x120
    else none

/-- First and last page addresses of a gate's whole target (R263), under the mapping in use. -/
def gateRange (striped : Bool) (g : Nat) : Nat × Nat :=
  if g < 0x100 then (0x40000000 + g * 0x20000, 0x40000000 + g * 0x20000 + 0x1F000)
  else if g < 0x110 then
    (0x44000000 + (g - 0x100) * 0x400000, 0x44000000 + (g - 0x100) * 0x400000 + 0x3FF000)
  else if g < 0x114 then
    (0x48000000 + (g - 0x110) * 0x800000, 0x48000000 + (g - 0x110) * 0x800000 + 0x7FF000)
  else if g < 0x118 then
    if striped then (0x1000000000, 0x4FFFFFF000)
    else (0x1000000000 + (g - 0x114) * 0x1000000000, 0x1FFFFFF000 + (g - 0x114) * 0x1000000000)
  else if g < 0x120 then (partBase (g - 0x118), partBase (g - 0x118 + 1) - 0x1000)
  else (0x8000000000, 0xBFFFFFF000)

/-- The fixed or reset attribute bits of a gate region by kind: the cache and ord fields (R262). -/
def gateAttr0 (g : Nat) : Nat :=
  match gateKind g with
  | 0 => 0x080
  | 4 => 0x280
  | 5 => 0x180
  | _ => 0x000

/-- Reset values of a gate's register block, by offset (R260, R261, R263). -/
def gateReset (striped : Bool) (g off : Nat) : Nat :=
  if off = 0 then g + gateKind g * 2 ^ 12 + 64 * 2 ^ 16
  else if off = 0x38 then 1
  else if off = 0x1000 then (gateRange striped g).1
  else if off = 0x1008 then (gateRange striped g).2
  else if off = 0x1010 then gateAttr0 g + 0xF
  else if off = 0x1080 then 1
  else if 0x1000 ≤ off ∧ off < 0x5000 ∧ off % 0x100 = 0x10 then gateAttr0 g
  else 0

/-- Reset values of a cell control block, by offset (R218, R219). -/
def cellReset (n off : Nat) : Nat :=
  match off with
  | 0x0000 => n
  | 0x0028 => 0x751
  | _ => 0

/-- Reset values of a block's control part, by offset (R284, R527). -/
def blockReset (off : Nat) : Nat :=
  match off with
  | 0x0000 => 0x813
  | 0x1000 => 0xFFFF0003
  | 0x1008 => 0xFFFF0043
  | 0x1010 => 680 * 2 ^ 16
  | _ => 0

/-- Reset values of the port part, by offset (R338, R350). -/
def portReset (off : Nat) : Nat :=
  if 0x300000 ≤ off ∧ off < 0x310000 then
    (match off % 0x1000 with
     | 0x00 => 4800 * 2
     | 0x18 => 250 * 2 ^ 32
     | 0x20 => 10
     | _ => 0)
  else if off = 0x400008 then 400
  else 0

/-- Reset values of the timebase part, by offset (R393, R405, R411, R413, R416): the factory defaults of its
retained fields. -/
def timeReset (off : Nat) : Nat :=
  if 0x100000 ≤ off ∧ off < 0x110000 then (if off % 0x1000 = 0 then 4 * 2 ^ 20 else 0)
  else if 0x400100 ≤ off ∧ off < 0x400200 ∧ off % 8 = 0 then 1000
  else match off with
  | 0x010 => 0x280000000
  | 0x018 => 0x0D1
  | 0x020 => 1000 + 100 * 2 ^ 32
  | 0x028 => 600
  | 0x070 => 128 + 128 * 2 ^ 8
  | 0x200000 => 4 * 2 ^ 8
  | 0x200020 => 100000 * 2 ^ 32
  | 0x300000 => 37 * 2 ^ 48 + 2 ^ 56
  | 0x400018 => 0xFFFFFFFFFFFFFFFF
  | _ => 0

/-- Reset values of the island's part and of the PCIe part, by offset (R497, R545). -/
def islandReset (off : Nat) : Nat := if off = 0x100010 then 0x0003 else 0
def pcieReset (off : Nat) : Nat := if off = 0x5020 then 1 else 0

/-- Reset value of the control-space word at an address. -/
def regReset (striped : Bool) (a : Nat) : W :=
  match gateAt a with
  | some g => wd (gateReset striped g (a - gateBlock g))
  | none =>
    if 2 ^ 49 ≤ a then wd (gateReset striped 0xFF (a - 2 ^ 49))
    else if 2 ^ 48 ≤ a then wd (cellReset ((a - 2 ^ 48) / 0x10000) (a % 0x10000))
    else match controlPart a with
    | some 1 => wd (islandReset (a - partIsland))
    | some 2 => wd (portReset (a - partPort))
    | some 3 => if (a - partRegion) % 0x1000000 = 0xF11000 then 256 else 0
    | some 4 => wd (blockReset ((a - partBlock) % 0x100000))
    | some 5 => wd (cellReset ((a - partCell) / 0x10000) (a % 0x10000))
    | some 6 => wd (timeReset (a - partTime))
    | some 7 => wd (pcieReset (a - partPcie))
    | _ => 0

/-- The word at a control-space address. -/
def reg (s : State) (a : Nat) : W := (tblFind s.regs a).getD (regReset s.striped a)

/-- The word set. -/
def setReg (a : Nat) (v : W) (s : State) : State := { s with regs := tblSet a v s.regs }

/-- Bits `[hi:lo]` of the word at an address. -/
def regF (s : State) (a hi lo : Nat) : Nat := fld (reg s a) hi lo

/-- A field of the word at an address set. -/
def setRegF (a hi lo v : Nat) (s : State) : State := setReg a (setFld (reg s a) hi lo v) s

/-- A 32-bit counter in a field counted up, stopping at 2^32 - 1 (R260, R293). -/
def bumpReg (a lo : Nat) (s : State) : State :=
  setRegF a (lo + 31) lo (satInc32 (regF s a (lo + 31) lo)) s

/-- A 16-bit counter in a field counted up, stopping at its largest value. -/
def bump16 (a lo : Nat) (s : State) : State :=
  setRegF a (lo + 15) lo (min 0xFFFF (regF s a (lo + 15) lo + 1)) s

/-! Cells. -/

/-- The state of a core before anything has touched it: all banks zero, stopped (R82, R219). -/
def cellBlank : Cell := {}

/-- The core numbered `n`: 0 to 255 a cell, 0x100 + r the hub core of region r (R46). -/
def cellOf (s : State) (n : Nat) : Cell := tblGet cellBlank s.cells n

def setCell (n : Nat) (c : Cell) (s : State) : State := { s with cells := tblSet n c s.cells }

def modCell (n : Nat) (f : Cell → Cell) (s : State) : State := setCell n (f (cellOf s n)) s

/-- The hub core numbers. -/
def isHub (n : Nat) : Bool := decide (0x100 ≤ n) && decide (n < 0x104)

/-- A core exists under this number. -/
def isCore (n : Nat) : Bool := decide (n < 0x104)

/-- The block of a cell (R10). -/
def blockOf (n : Nat) : Nat := n / 16

/-- The region of a core (R10, R22). -/
def regionOf (n : Nat) : Nat := if n < 256 then n / 64 else n - 256

def bankOf (c : Cell) (b : Nat) : Bank := tblGet {} c.banks b

def setBank (b : Nat) (k : Bank) (c : Cell) : Cell := { c with banks := tblSet b k c.banks }

/-- The level of a bank (R189): 0 for banks 0 to 4. -/
def bankLevel (b : Nat) : Nat := b - 4

/-- A core's thread slot. -/
def slotOf (c : Cell) (n : Nat) : ThSlot := tblGet {} c.slots n

def setSlot (n : Nat) (t : ThSlot) (c : Cell) : Cell := { c with slots := tblSet n t c.slots }

end Sys2Proof.Machine
end

