-- ==== Sys2Proof/Machine/Operands.lean ====
section
/-! DEFINITION. The operands of a move (chapter 3): slot words, the port space, what a source yields,
what a value becomes in another register class, and what a destination does with it. -/

namespace Sys2Proof.Machine

/-! Slots (R94). -/

/-- The fields of a slot word. `low` is bits [15:0]. -/
structure Slot where
  word : BitVec 32
  gsel : BitVec 3
  ginv : Bool
  form : BitVec 2
  dst  : BitVec 10
  src  : BitVec 10
  low  : BitVec 16
  deriving DecidableEq, Repr

/-- A slot decoded from its word. -/
def slotOfWord (w : BitVec 32) : Slot :=
  { word := w, gsel := w.extractLsb' 29 3, ginv := w.getLsbD 28, form := w.extractLsb' 26 2,
    dst := w.extractLsb' 16 10, src := w.extractLsb' 6 10, low := w.extractLsb' 0 16 }

/-- The form field that a source takes (R94). -/
def formOf : Src → BitVec 2
  | .port _ => 0
  | .imm _ => 1
  | .lit _ => 2

/-- Bits [15:0] that a source takes (R94). -/
def lowOf : Src → BitVec 16
  | .port p => p ++ (0 : BitVec 6)
  | .imm i => i
  | .lit _ => 0

/-- The slot word of a move (R94). -/
def slotWord (gsel : BitVec 3) (ginv : Bool) (dst : BitVec 10) (src : Src) : BitVec 32 :=
  gsel ++ BitVec.ofBool ginv ++ formOf src ++ dst ++ lowOf src

/-- The slot of a command's own move. -/
def issSlot (m : Iss) (dst : BitVec 10) : Slot :=
  { word := slotWord m.gsel m.ginv dst m.src, gsel := m.gsel, ginv := m.ginv, form := formOf m.src,
    dst := dst, src := (match m.src with | .port p => p | _ => (lowOf m.src).extractLsb' 6 10),
    low := lowOf m.src }

/-- Slots A and B of the bundle that holds a command's move (R93, R105). -/
def issSlots (m : Iss) (dst : BitVec 10) : Slot × Slot :=
  match m.src with
  | .lit l => (issSlot m dst, slotOfWord l)
  | _ => if m.slotB then (slotOfWord m.other, issSlot m dst) else (issSlot m dst, slotOfWord m.other)

/-- A never slot (R96). -/
def slotNever (t : Slot) : Bool := t.gsel == 0 && t.ginv

/-! The port space (R99 to R101 and chapter 4). -/

/-- The function units. -/
inductive FU where
  | alu0 | alu1 | mul | div | shf | mem | cap | br | mac | ph | q | trp | sys
  deriving DecidableEq, Repr

/-- The trigger ports of alu0 and alu1 (R127), by port number. -/
def trigTableAlu : List (Nat × Trig) :=
  [(0x048, .alu false .add), (0x049, .alu false .sub), (0x04A, .alu false .and),
   (0x04B, .alu false .or), (0x04C, .alu false .xor), (0x04D, .alu false .andn),
   (0x04E, .alu false .neg), (0x04F, .alu false .min), (0x050, .alu false .max),
   (0x051, .alu false .minu), (0x052, .alu false .maxu), (0x058, .alu false .eq),
   (0x059, .alu false .ne), (0x05A, .alu false .lt), (0x05B, .alu false .ltu),
   (0x05C, .alu false .ge), (0x05D, .alu false .geu), (0x05E, .alu false .tst),
   (0x05F, .alu false .tstz),
   (0x068, .alu true .add), (0x069, .alu true .sub), (0x06A, .alu true .and),
   (0x06B, .alu true .or), (0x06C, .alu true .xor), (0x06D, .alu true .andn),
   (0x06E, .alu true .neg), (0x06F, .alu true .min), (0x070, .alu true .max),
   (0x071, .alu true .minu), (0x072, .alu true .maxu), (0x078, .alu true .eq),
   (0x079, .alu true .ne), (0x07A, .alu true .lt), (0x07B, .alu true .ltu),
   (0x07C, .alu true .ge), (0x07D, .alu true .geu), (0x07E, .alu true .tst),
   (0x07F, .alu true .tstz)]

/-- The trigger ports of mul, div, shf and mem (R129, R130, R135, R138), by port number. -/
def trigTableInt : List (Nat × Trig) :=
  [(0x088, .mul .mul), (0x089, .mul .mulh), (0x08A, .mul .mulhu), (0x08B, .mul .mulhsu),
   (0x098, .div true), (0x099, .div false),
   (0x0A8, .shf .shl), (0x0A9, .shf .shr), (0x0AA, .shf .sar), (0x0AB, .shf .rol),
   (0x0AC, .shf .ror), (0x0AD, .shf .ext), (0x0AE, .shf .exts), (0x0AF, .shf .ins),
   (0x0B0, .shf .clz), (0x0B1, .shf .ctz), (0x0B2, .shf .popc), (0x0B3, .shf .bswap),
   (0x0D0, .load 1 true), (0x0D1, .load 1 false), (0x0D2, .load 2 true), (0x0D3, .load 2 false),
   (0x0D4, .load 4 true), (0x0D5, .load 4 false), (0x0D6, .load 8 false), (0x0D7, .ldc),
   (0x0D8, .store 1), (0x0D9, .store 2), (0x0DA, .store 4), (0x0DB, .store 8), (0x0DC, .stc),
   (0x0DD, .blk false), (0x0DE, .blk true), (0x0DF, .pf)]

/-- The trigger ports of cap and br (R152, R153), by port number. -/
def trigTableCap : List (Nat × Trig) :=
  [(0x108, .cap .setaddr), (0x109, .cap .incaddr), (0x10A, .cap .bnd), (0x10B, .cap .bnde),
   (0x10C, .cap .andperm), (0x10D, .cap .seal), (0x10E, .cap .unseal), (0x10F, .cap .land),
   (0x110, .cap .grain), (0x111, .cap .cover), (0x112, .cap .getbase), (0x113, .cap .getlen),
   (0x114, .cap .getmeta), (0x115, .cap .subset), (0x116, .cap .chk),
   (0x128, .br .br), (0x129, .br .call), (0x12A, .br .jmp), (0x12B, .br .jc), (0x12C, .br .callc),
   (0x12D, .br .gate), (0x12E, .br .gret), (0x12F, .br .eret), (0x130, .br .rep),
   (0x131, .br .repn)]

/-- The trigger ports of mac, ph, q, trp and sys (chapter 4), by port number. -/
def trigTableRest : List (Nat × Trig) :=
  [(0x148, .mac .dot), (0x149, .mac .dotn), (0x14A, .mac .cre), (0x14B, .mac .cim),
   (0x14C, .mac .mul), (0x14D, .mac .set), (0x14E, .mac .sar),
   (0x150, .macRd .rds), (0x151, .macRd .rdw), (0x152, .macRd .rdr), (0x153, .macRd .rdt),
   (0x154, .stclr), (0x168, .ph false), (0x169, .ph true),
   (0x180, .q .enq), (0x181, .q .enqd), (0x182, .q .deq), (0x183, .q .deqd), (0x184, .q .wait),
   (0x185, .q .arm), (0x186, .q .stat),
   (0x198, .trp .inv), (0x199, .trp .rel), (0x19A, .trp .query),
   (0x1B0, .sys .invleaf), (0x1B1, .sys .invwalk), (0x1B2, .sys .invsync), (0x1B4, .sys .fence),
   (0x1B5, .sys .gfence), (0x1B8, .sys .krset), (0x1BC, .sys .ctlrd), (0x1BD, .sys .ctlwr),
   (0x1C0, .sys .pwr), (0x1C1, .sys .yield), (0x1C4, .sys .cyc), (0x1C5, .sys .time)]

/-- The trigger ports (chapter 4), by port number. -/
def trigTable : List (Nat × Trig) := trigTableAlu ++ trigTableInt ++ trigTableCap ++ trigTableRest

/-- The operation of a trigger port. -/
def trigOf (p : Nat) : Option Trig := tblFind trigTable p

/-- The unit of a trigger. -/
def trigUnit : Trig → FU
  | .alu false _ => .alu0
  | .alu true _ => .alu1
  | .mul _ => .mul
  | .div _ => .div
  | .shf _ => .shf
  | .load _ _ => .mem
  | .ldc => .mem
  | .store _ => .mem
  | .stc => .mem
  | .blk _ => .mem
  | .pf => .mem
  | .cap _ => .cap
  | .br _ => .br
  | .mac _ => .mac
  | .macRd _ => .mac
  | .stclr => .mac
  | .ph _ => .ph
  | .q _ => .q
  | .trp _ => .trp
  | .sys _ => .sys

/-- The triggers of class c (R84). -/
def trigIsC : Trig → Bool
  | .cap .seal => true
  | .cap .unseal => true
  | .cap .subset => true
  | .br .jc => true
  | .br .callc => true
  | .br .gate => true
  | .br .gret => true
  | .trp _ => true
  | .sys .gfence => true
  | _ => false

/-- Operand ports of class d and of class c (chapter 4). -/
def operD : List Nat :=
  [0x040, 0x041, 0x060, 0x061, 0x080, 0x090, 0x0A0, 0x0A1, 0x0C1, 0x140, 0x141, 0x161, 0x172, 0x190,
   0x1A0, 0x1A1]
def operC : List Nat := [0x0C0, 0x0C2, 0x100, 0x160, 0x170, 0x171, 0x1A2]

/-- Result ports of class d and of class c (chapter 4). -/
def resD : List Nat :=
  [0x042, 0x062, 0x081, 0x091, 0x092, 0x093, 0x0A2, 0x0C8, 0x102, 0x142, 0x143, 0x162, 0x163, 0x164,
   0x178, 0x179, 0x191, 0x192, 0x1A8]
def resC : List Nat := [0x0C9, 0x101]

/-- Control ports (R101). -/
def ctlD : List Nat := [0x200, 0x210, 0x211, 0x212, 0x213, 0x215, 0x216, 0x220, 0x221]
def ctlC : List Nat := [0x201, 0x214]

/-- The kinds of port numbers (R87, R99). -/
inductive PKind where
  | regD | regC | regA | regG
  | opD | opC
  | resD | resC
  | trig (t : Trig)
  | ctlD | ctlC
  | reserved
  deriving DecidableEq, Repr

/-- Port numbers of the units a hub core does not have (R22). -/
def hubLacks (p : Nat) : Bool :=
  (0x140 ≤ p && p < 0x170) || (0x190 ≤ p && p < 0x1A0)

/-- What a port number names on a core. -/
def portKind (hub : Bool) (p : Nat) : PKind :=
  if p < 0x20 then .regD
  else if p < 0x30 then .regC
  else if p < 0x34 then .regA
  else if p < 0x38 then .reserved
  else if p < 0x40 then .regG
  else if hub && hubLacks p then .reserved
  else if operD.contains p then .opD
  else if operC.contains p then .opC
  else if resD.contains p then .resD
  else if resC.contains p then .resC
  else if ctlD.contains p then .ctlD
  else if ctlC.contains p then .ctlC
  else match trigOf p with
    | some t => .trig t
    | none => .reserved

/-- A control port that a move may write at a level: status and fpcc from level 1, krrl, krrh (R101). -/
def ctlWritable (lvl p : Nat) : Bool :=
  p == 0x220 || p == 0x221 || (decide (1 ≤ lvl) && (p == 0x210 || p == 0x214))

/-- A port that may be a destination at a level (R87, R98, R101, R102). -/
def dstOk (hub : Bool) (lvl p : Nat) : Bool :=
  match portKind hub p with
  | .regD => true
  | .regC => true
  | .regA => true
  | .regG => p != 0x38
  | .opD => true
  | .opC => true
  | .trig _ => true
  | .ctlD => ctlWritable lvl p
  | .ctlC => ctlWritable lvl p
  | .resD => false
  | .resC => false
  | .reserved => true

/-- A port that may be a source (R87). -/
def srcOk (hub : Bool) (p : Nat) : Bool :=
  match portKind hub p with
  | .opD => false
  | .opC => false
  | .trig _ => false
  | _ => true

/-! Reading a source. -/

/-- The status word (R202). -/
def statusWord (c : Cell) (b : Nat) (k : Bank) : W :=
  wd (bankLevel b + k.mask * 2 ^ 4 + k.asid * 2 ^ 8 + b2n c.vtm * 2 ^ 16 + b2n k.poison * 2 ^ 17)

/-- rstate (R116). -/
def rstateWord (k : Bank) : W :=
  wd (k.rcnt + b2n k.ract * 2 ^ 32 + b2n k.rnint * 2 ^ 33 + k.dly * 2 ^ 34)

/-- progress (R149). -/
def progressWord (k : Bank) : W :=
  wd (k.done.toNat + b2n k.act * 2 ^ 52 + b2n k.dir * 2 ^ 53)

/-- div.st and ph.st of a bank (R130, R133, R157). -/
def npSt (u : NpUnit) (b : Nat) : W :=
  let held := u.wait.any (fun j => j.bank == b)
  let busy := held || (match u.cur with | some (_, j) => j.bank == b | none => false)
  wd (b2n busy + 2 * b2n held)

/-- trp.st of a bank (R167). -/
def trpSt (c : Cell) (b : Nat) : W := wd (b2n (c.trp.any (fun r => r.bank == b)))

/-- A class-d control port's value; cause, faddr and finfo read as zero at level 0 (R102). -/
def ctlRead (c : Cell) (b : Nat) (k : Bank) (p : Nat) : W :=
  match p with
  | 0x200 => k.pcc.addr
  | 0x210 => statusWord c b k
  | 0x211 => if b ≤ 4 then 0 else k.cause
  | 0x212 => if b ≤ 4 then 0 else k.faddr
  | 0x213 => if b ≤ 4 then 0 else k.finfo
  | 0x215 => rstateWord k
  | 0x216 => progressWord k
  | 0x220 => k.krrl
  | _ => k.krrh

/-- A class-c control port's value: pcc, or fpcc, which reads as zero at level 0 (R101, R102). An fpcc whose address
stands where its encoding does not decode to its bounds is read without its tag (R54, R68; DEDUCED, log entry 49). -/
def ctlReadC (b : Nat) (k : Bank) (p : Nat) : Cap :=
  if p = 0x201 then k.pcc
  else if b ≤ 4 then Cap.null
  else { k.fpcc with tag := k.fpcc.tag && k.fpLim.isNone }

/-- A class-d result port's value. -/
def resRead (c : Cell) (b : Nat) (k : Bank) (p : Nat) : W :=
  match p with
  | 0x093 => npSt c.div b
  | 0x164 => npSt c.ph b
  | 0x192 => trpSt c b
  | _ => tblGet 0 k.x p

/-- The value of guard `n`; g0 reads as 1 (R98). -/
def guardOf (k : Bank) (n : Nat) : Bool := n == 0 || k.g.getLsbD n

/-- The value a source port yields in bank `b` (R87, R178). -/
def readPort (hub : Bool) (c : Cell) (b p : Nat) : Val :=
  let k := bankOf c b
  match portKind hub p with
  | .regD => .d (tblGet 0 k.x p)
  | .regC => .c (tblGet Cap.null k.c p)
  | .regA => .a (tblGet 0 k.a (p - 0x30))
  | .regG => .g (guardOf k (p - 0x38))
  | .resD => .d (resRead c b k p)
  | .resC => .c (tblGet Cap.null k.c p)
  | .ctlD => .d (ctlRead c b k p)
  | .ctlC => .c (ctlReadC b k p)
  | _ => .d 0

/-! Cross-class moves (R104). -/

def valD : Val → W
  | .d w => w
  | .c c => c.addr
  | .a v => v.setWidth 64
  | .g b => wd (b2n b)

def valC : Val → Cap
  | .d w => capOfWord w
  | .c c => c
  | .a v => capOfWord (v.setWidth 64)
  | .g b => capOfWord (wd (b2n b))

def valA : Val → BitVec 80
  | .d w => w.signExtend 80
  | .c c => c.addr.signExtend 80
  | .a v => v
  | .g b => BitVec.ofNat 80 (b2n b)

def valG : Val → Bool
  | .d w => w != 0
  | .c c => c.tag
  | .a v => v != 0
  | .g b => b

/-! Writing a destination. -/

/-- The register group of a port (R192). -/
def groupOf (p : Nat) : Nat :=
  if p < 0x20 then p / 8 else if p < 0x30 then 4 + (p - 0x20) / 8 else if p < 0x34 then 6 else 7

def markDirty (g : Nat) (k : Bank) : Bank := { k with dirty := k.dirty ||| BitVec.ofNat 8 (2 ^ g) }

/-- Guard `n` set; g0 has no state. -/
def setGuard (n : Nat) (b : Bool) (k : Bank) : Bank :=
  if n = 0 then k
  else
    let m := BitVec.ofNat 8 (2 ^ n)
    { k with g := if b then k.g ||| m else k.g &&& ~~~ m }

def setX (p : Nat) (v : W) (k : Bank) : Bank := { k with x := tblSet p v k.x }
def setC (p : Nat) (v : Cap) (k : Bank) : Bank := { k with c := tblSet p v k.c }
def setA (n : Nat) (v : BitVec 80) (k : Bank) : Bank := { k with a := tblSet n v k.a }

/-- Port number given as the source of an immediate. -/
def srcImm : Nat := 0x400

/-- finfo.src of a capability that a move takes from a port: the c register, or none (R84, R139). -/
def srcCode (p : Nat) : Nat := if 0x20 ≤ p ∧ p < 0x30 then p - 0x20 else 0x1F

/-- A write of a class-d control port. -/
def ctlWrite (p : Nat) (v : W) (k : Bank) : Bank :=
  match p with
  | 0x210 => { k with mask := fld v 6 4, asid := fld v 15 8 }
  | 0x220 => { k with krrl := v }
  | 0x221 => { k with krrh := v }
  | _ => k

/-- The bank after a move writes `v` to a register, operand or control port, its group marked dirty
(R104, R194). A trigger port holds no state. -/
def writePort (hub : Bool) (p src : Nat) (v : Val) (k : Bank) : Bank :=
  let k := markDirty (groupOf p) k
  match portKind hub p with
  | .regD => setX p (valD v) k
  | .regC => setC p (valC v) k
  | .regA => setA (p - 0x30) (valA v) k
  | .regG => setGuard (p - 0x38) (valG v) k
  | .opD => setX p (valD v) k
  | .opC =>
    let k := if p = 0x0C0 then { k with memSrc := srcCode src } else k
    setC p (valC v) k
  | .ctlD => ctlWrite p (valD v) k
  | .ctlC => { k with fpcc := valC v, fpLim := none, fpccW := true }
  | _ => k

/-- An operand or register port of class d, as a unit reads it. -/
def portX (k : Bank) (p : Nat) : W := tblGet 0 k.x p

/-- An operand or register port of class c, as a unit reads it. -/
def portC (k : Bank) (p : Nat) : Cap := tblGet Cap.null k.c p

end Sys2Proof.Machine
end

