-- ==== Sys2Proof/Machine/Flags.lean ====
section
/-! DEFINITION. The flags that units compute: guards written by compares (R128), sticky saturation flags
of the accumulators (R155), the result flags of the phasor unit (R160), and the finfo of UNDEF. -/

namespace Sys2Proof.Machine

/-- A compare of o and t (R127): `none` for the operations that are no compare. -/
def aluCompare (op : AluOp) (o t : W) : Option Bool :=
  match op with
  | .eq => some (o == t)
  | .ne => some (o != t)
  | .lt => some (o.slt t)
  | .ltu => some (o.ult t)
  | .ge => some (!o.slt t)
  | .geu => some (!o.ult t)
  | .tst => some (o &&& t != 0)
  | .tstz => some (o &&& t == 0)
  | _ => none

/-- The guard that a compare writes: og[2:0], 0 for none (R127, R128). -/
def compareGuard (og : W) : Nat := fld og 2 0

/-- The range of an accumulator (R155). -/
def accMax : Int := 2 ^ 79 - 1
def accMin : Int := -2 ^ 79

/-- An accumulate's exact result lies outside the accumulator's range: the sticky flag (R155). -/
def accOverflow (v : Int) : Bool := decide (v < accMin) || decide (accMax < v)

/-- mac.st with the sticky flag of accumulator `sel` set (R155). -/
def setSticky (sel : Nat) (k : Bank) : Bank :=
  setX 0x143 (portX k 0x143 ||| wd (2 ^ sel)) k

/-- mac.st with the flags selected by t[3:0] cleared (R156). -/
def clearSticky (t : W) (k : Bank) : Bank :=
  setX 0x143 (portX k 0x143 &&& ~~~ (wd (fld t 3 0))) k

/-- The result flags of a phasor fit (R160), placed as in ph.rf. -/
def phFlags (conv range short inval subst sat : Bool) : Nat :=
  b2n conv * 2 ^ 32 + b2n range * 2 ^ 33 + b2n short * 2 ^ 34 + b2n inval * 2 ^ 35
    + b2n subst * 2 ^ 36 + b2n sat * 2 ^ 37

/-- finfo of UNDEF (R120). -/
def undefFinfo (reason : Nat) (slotB whole : Bool) (port : Nat) (word : BitVec 32) : W :=
  wd (reason + b2n slotB * 2 ^ 4 + b2n whole * 2 ^ 5 + port * 2 ^ 8 + word.toNat * 2 ^ 32)

end Sys2Proof.Machine
end

