-- ==== Sys2Proof/Machine/Units.lean ====
section
/-! DEFINITION. What the arithmetic units compute (chapter 4). -/

namespace Sys2Proof.Machine

/-- The alu operations (R127). A compare gives 1 or 0. -/
def aluResult (op : AluOp) (o t : W) : W :=
  match op with
  | .add => o + t
  | .sub => o - t
  | .and => o &&& t
  | .or => o ||| t
  | .xor => o ^^^ t
  | .andn => o &&& ~~~ t
  | .neg => 0 - t
  | .min => if o.slt t then o else t
  | .max => if o.slt t then t else o
  | .minu => if o.ult t then o else t
  | .maxu => if o.ult t then t else o
  | .eq => wd (b2n (o == t))
  | .ne => wd (b2n (o != t))
  | .lt => wd (b2n (o.slt t))
  | .ltu => wd (b2n (o.ult t))
  | .ge => wd (b2n (!o.slt t))
  | .geu => wd (b2n (!o.ult t))
  | .tst => wd (b2n (o &&& t != 0))
  | .tstz => wd (b2n (o &&& t == 0))

/-- The mul operations (R129), from the exact product. -/
def mulResult (op : MulOp) (o t : W) : W :=
  match op with
  | .mul => BitVec.ofInt 64 (o.toInt * t.toInt)
  | .mulh => BitVec.ofInt 64 (o.toInt * t.toInt / 2 ^ 64)
  | .mulhu => BitVec.ofNat 64 (o.toNat * t.toNat / 2 ^ 64)
  | .mulhsu => BitVec.ofInt 64 (o.toInt * (t.toNat : Int) / 2 ^ 64)

/-- Quotient and remainder, rounding towards zero (R130); the divisor is not zero. -/
def divResult (signed : Bool) (o t : W) : W × W :=
  if signed then (BitVec.ofInt 64 (o.toInt.tdiv t.toInt), BitVec.ofInt 64 (o.toInt.tmod t.toInt))
  else (wd (o.toNat / t.toNat), wd (o.toNat % t.toNat))

/-- bitlen (R131). -/
def bitlen (n : Nat) : Nat := if n = 0 then 0 else Nat.log2 n + 1

/-- The latency of a division (R131). -/
def divLatency (signed : Bool) (o t : W) : Nat :=
  let m := fun (w : W) => if signed then w.toInt.natAbs else w.toNat
  let k := bitlen (m o) + 1 - bitlen (m t)
  18 + 3 * ((k + 3) / 4)

/-- Position and width of a field descriptor, and the width taken (R135, R136). -/
def fieldOf (t : W) : Nat × Nat :=
  let pos := fld t 5 0
  let w := fld t 12 6
  (pos, min (pos + w) 64 - pos)

/-- The field of `o` at a descriptor, zero-extended (R136). -/
def extField (o t : W) : W := let f := fieldOf t; wd (o.toNat / 2 ^ f.1 % 2 ^ f.2)

/-- The field sign-extended from its highest bit taken; width 0 gives 0 (R136). -/
def extsField (o t : W) : W :=
  let f := fieldOf t
  let v := o.toNat / 2 ^ f.1 % 2 ^ f.2
  if f.2 = 0 then 0
  else if v < 2 ^ (f.2 - 1) then wd v else BitVec.ofInt 64 ((v : Int) - 2 ^ f.2)

/-- `o` with the field replaced by the low bits of `om` (R136). -/
def insField (o om t : W) : W :=
  let f := fieldOf t
  wd (o.toNat - (o.toNat / 2 ^ f.1 % 2 ^ f.2) * 2 ^ f.1 + (om.toNat % 2 ^ f.2) * 2 ^ f.1)

/-- Leading and trailing zeros, 64 for zero, and set bits (R135). -/
def clz64 (t : W) : Nat := 64 - bitlen t.toNat
def ctz64 (t : W) : Nat := ((List.range 64).find? (fun i => bit t i)).getD 64
def popc64 (t : W) : Nat := ((List.range 64).filter (fun i => bit t i)).length

/-- The bytes reversed (R135). -/
def bswap64 (t : W) : W := wd (leNat (leBytes 8 t.toNat).reverse)

/-- The shf operations (R135 to R137). -/
def shfResult (op : ShfOp) (o om t : W) : W :=
  match op with
  | .shl => if 64 ≤ t.toNat then 0 else o <<< t.toNat
  | .shr => if 64 ≤ t.toNat then 0 else o >>> t.toNat
  | .sar => o.sshiftRight (min t.toNat 63)
  | .rol => o.rotateLeft (t.toNat % 64)
  | .ror => o.rotateRight (t.toNat % 64)
  | .ext => extField o t
  | .exts => extsField o t
  | .ins => insField o om t
  | .clz => wd (clz64 t)
  | .ctz => wd (ctz64 t)
  | .popc => wd (popc64 t)
  | .bswap => bswap64 t

/-- The two signed 32-bit lanes of a word. -/
def laneLo (w : W) : Int := (w.extractLsb' 0 32).toInt
def laneHi (w : W) : Int := (w.extractLsb' 32 32).toInt

/-- The exact result of an accumulate on the accumulator's value (R155). -/
def accExact (op : MacOp) (a : Int) (o t : W) : Int :=
  let dot := laneLo o * laneLo t + laneHi o * laneHi t
  match op with
  | .dot => a + dot
  | .dotn => a - dot
  | .cre => a + (laneLo o * laneLo t - laneHi o * laneHi t)
  | .cim => a + (laneLo o * laneHi t + laneHi o * laneLo t)
  | .mul => dot
  | .set => t.toInt
  | .sar => a / 2 ^ fld t 6 0

/-- An accumulate writes its accumulator, saturated, with the sticky flag on overflow (R155). -/
def accWrite (op : MacOp) (sel : Nat) (o t : W) (k : Bank) : Bank :=
  let v := accExact op (tblGet 0 k.a sel).toInt o t
  let k := markDirty 6 (setA sel (BitVec.ofInt 80 (clampInt accMin accMax v)) k)
  if accOverflow v then markDirty 7 (setSticky sel k) else k

/-- A read-out of an accumulator's value (R156). -/
def macReadout (op : MacRd) (a : BitVec 80) (t : W) : W :=
  let s := fld t 6 0
  let sh := a.toInt / 2 ^ s
  match op with
  | .rds => BitVec.ofInt 64 (clampInt (-2 ^ 63) (2 ^ 63 - 1) sh)
  | .rdw => BitVec.ofInt 64 (clampInt (-2 ^ 31) (2 ^ 31 - 1) sh)
  | .rdr =>
    let r := if s = 0 then sh else (a.toInt + 2 ^ (s - 1)) / 2 ^ s
    BitVec.ofInt 64 (clampInt (-2 ^ 63) (2 ^ 63 - 1) r)
  | .rdt => BitVec.ofInt 64 sh

/-! The phasor fit (R157 to R161). The least-squares equations and the steps of the tracking are those of R159, with the
cosine, the sine and the angle of a phasor to 2^-80 (log entry 13). -/

/-- A rational rounded down to a multiple of 2^-96. -/
def fix96 (q : Rat) : Rat := ((q * 2 ^ 96).floor : Rat) / 2 ^ 96

/-- Two pi, to 2^-96. -/
def twoPi : Rat := 6283185307179586476925286766559005768 / 10 ^ 36

/-- The alternating series 1 - q/(d(d+1)) + q²/(d(d+1)(d+2)(d+3)) - ... to `n` terms, from the inside out: of the cosine
with d = 1, of the sine over its argument with d = 2; `q` is the argument's square. -/
def trigSeries (q : Rat) (d : Nat) : Nat → Rat
  | 0 => 1
  | n + 1 => fix96 (1 - q / (d * (d + 1) : Nat) * trigSeries q (d + 2) n)

/-- An angle in units of 2^-32 of a turn, in radians between -pi and pi. -/
def radians (a : Rat) : Rat := fix96 ((a - 2 ^ 32 * ((a + 2 ^ 31) / 2 ^ 32).floor) * twoPi / 2 ^ 32)

/-- Cosine and sine of an angle in units of 2^-32 of a turn (R159). -/
def cosTurn (a : Rat) : Rat := trigSeries (radians a * radians a) 1 24
def sinTurn (a : Rat) : Rat := radians a * trigSeries (radians a * radians a) 2 24

/-- The angle between 0 and a quarter turn at which sine is to cosine as `y` to `x`, neither negative, by halving the
quarter `n` times from `lo` on. -/
def acuteAngle (x y : Rat) : Nat → Rat → Rat → Rat
  | 0, lo, _ => lo
  | n + 1, lo, w =>
    let mid := lo + w / 2
    acuteAngle x y n (if x * sinTurn mid ≤ y * cosTurn mid then mid else lo) (w / 2)

/-- The angle of a phasor, in units of 2^-32 of a turn (R159). -/
def phasorAngle (w : Int) (re im : Rat) : Rat :=
  let t := acuteAngle |re| |im| 110 0 (2 ^ 30)
  if re = 0 ∧ im = 0 then Config.noAngle w
  else if 0 ≤ re then (if 0 ≤ im then t else -t)
  else if 0 ≤ im then 2 ^ 31 - t else t - 2 ^ 31

/-- A rational rounded to one of its neighbouring integers. -/
def phRound (q : Rat) : Int := if q = (q.floor : Rat) ∨ !Config.phUp q then q.floor else q.floor + 1

/-- The window descriptor's fields (R158). -/
def phN (t : W) : Nat := fld t 8 0
def phFmt (t : W) : Bool := bit t 9
def phNewest (t : W) : Nat := fld t 15 10

/-- A window descriptor that the unit refuses (R158). -/
def phRefused (t : W) : Bool :=
  decide (2 ^ 16 ≤ t.toNat) || decide (phN t < 32) || decide (256 < phN t)
    || (phFmt t && decide (64 < phN t))

/-- The limits of the tracked angle: ±12.5 % of the nominal angle (R159). -/
def phLimit (nom est : Int) : Int := clampInt (nom - nom / 8) (nom + nom / 8) est

/-- The samples of a window with their places: the newest at 0, the oldest at -(n - 1) (R159). -/
def phPoints (xs : List Int) : List (Int × Int) :=
  ((List.range xs.length).map (fun i => (i : Int) - (xs.length - 1))).zip xs

/-- The sum of a function over the points of a window. -/
def phSum (l : List (Int × Int)) (f : Int × Int → Rat) : Rat := l.foldl (fun a p => a + f p) 0

/-- The determinant of three columns. -/
def det3 (a b c : Rat × Rat × Rat) : Rat :=
  a.1 * (b.2.1 * c.2.2 - b.2.2 * c.2.1) - b.1 * (a.2.1 * c.2.2 - a.2.2 * c.2.1)
    + c.1 * (a.2.1 * b.2.2 - a.2.2 * b.2.1)

/-- The least-squares fit of dc + A cos(wk + f) to the points (R159): A cos f and A sin f, from the normal equations
in dc, A cos f and A sin f over 1, cos wk and -sin wk. -/
def phFit (w : Nat) (l : List (Int × Int)) : Rat × Rat :=
  let c := fun (p : Int × Int) => cosTurn ((w * p.1 : Int) : Rat)
  let n := fun (p : Int × Int) => -sinTurn ((w * p.1 : Int) : Rat)
  let u : Rat × Rat × Rat := (l.length, phSum l c, phSum l n)
  let v : Rat × Rat × Rat := (phSum l c, phSum l (fun p => c p * c p), phSum l (fun p => c p * n p))
  let z : Rat × Rat × Rat := (phSum l n, phSum l (fun p => c p * n p), phSum l (fun p => n p * n p))
  let y : Rat × Rat × Rat :=
    (phSum l (fun p => p.2), phSum l (fun p => p.2 * c p), phSum l (fun p => p.2 * n p))
  let d := det3 u v z
  if d = 0 then Config.phSingular w (l.map (fun p => p.2)) else (det3 u y z / d, det3 u v y / d)

/-- The angle per sample estimated from the phase advance between the first and the last ⌊n/2⌋ samples, fitted at
the angle `w` (R159; DEDUCED, log entry 13). -/
def phEstimate (w : Nat) (xs : List Int) : Int :=
  let l := phPoints xs
  let h := l.length / 2
  let a := phFit w (l.take h)
  let b := phFit w (lastN h l)
  let d := phasorAngle w b.1 b.2 - phasorAngle w a.1 a.2
  let d := d - 2 ^ 32 * ((d + 2 ^ 31) / 2 ^ 32).floor
  w + phRound (d / (l.length - h : Nat))

/-- The last two estimates of the tracking (R159): from the nominal angle, and from the first refit. Each is limited. -/
def phTrack (nom : Nat) (xs : List Int) : Int × Int :=
  let e := phEstimate nom xs
  (e, phEstimate (phLimit nom e).toNat xs)

/-- The result of a fit over the samples, oldest first: ph.r and ph.rf (R159, R160). -/
def phResult (track : Bool) (nom : Nat) (xs : List Int) (inval subst : Bool) : W × W :=
  let e := phTrack nom xs
  let w := if track then (phLimit nom e.2).toNat else nom
  let range := track && (decide (9 * (nom : Int) ≤ 8 * e.2) || decide (8 * e.2 ≤ 7 * (nom : Int)))
  let conv := track && decide ((phLimit nom e.1 - phLimit nom e.2).natAbs * 2 ^ 20 < nom)
  let f := phFit w (phPoints xs)
  let p := (phRound f.1, phRound f.2)
  let re := clampInt (-2 ^ 31) (2 ^ 31 - 1) p.1
  let im := clampInt (-2 ^ 31) (2 ^ 31 - 1) p.2
  let sat := decide (re ≠ p.1) || decide (im ≠ p.2)
  let short := decide (xs.length * w < 2 ^ 32)
  (wd ((BitVec.ofInt 32 re).toNat + (BitVec.ofInt 32 im).toNat * 2 ^ 32),
   wd (w % 2 ^ 32 + phFlags conv range short inval subst sat))

/-- The latency of a fit with its window near (R161). -/
def phLatency (track : Bool) (n : Nat) : Nat :=
  if track then 16 + (n + 1) / 2 else 8 + (n + 3) / 4

end Sys2Proof.Machine
end

