-- ==== Sys2Proof/Machine/Log.lean ====
section
/-! DEFINITION. Time stamps, the event log and the error records, which every part writes. -/

namespace Sys2Proof.Machine

/-- The chip power controller (R545). -/
def pcBase : Nat := 0x61100000

/-- The chip's power state (R533). -/
def pstateOf (s : State) : Nat := regF s pcBase 2 0

/-- One second in the units of the timebase, 2^-32 ns. -/
def tSec : Nat := 1000000000 * 2 ^ 32

/-- A time in the format of sys.t.time: seconds [31:0] above whole nanoseconds (R169). -/
def timeWordOf (t : Nat) : W := wd (t / tSec % 2 ^ 32 * 2 ^ 32 + t % tSec / 2 ^ 32)

/-- The present in the format of sys.t.time. -/
def timeWord (s : State) : W := timeWordOf s.time.now

/-- The present in units of 2^-16 ns, as TIME96 keeps it (R398). -/
def time16 (s : State) : Nat := s.time.now / 2 ^ 16

/-- The moment on the duration clock, in units of 2^-32 ns, at which the timebase read `a` units of 2^-32 ns: `shift` is
what a stamp lacks to the duration clock after the steps listed, newest first, and `last` when the next of them came. No stamp
lies ahead; of two moments with one reading it is the later (R401, R402). -/
def unstep (a : Int) : List (Nat × Int) → Int → Int → Nat
  | [], shift, _ => (a + shift).toNat
  | (at_, off) :: l, shift, last =>
    if (at_ : Int) ≤ a + shift ∧ a + shift ≤ last then (a + shift).toNat else unstep a l (shift + off * 2 ^ 16) (at_ : Int)

/-- The moment on the duration clock of a stamp in units of 2^-16 ns (R402). -/
def stampDur (s : State) (a : Nat) : Nat :=
  unstep ((a : Int) * 2 ^ 16) s.time.steps ((s.time.dur : Int) - (s.time.now : Int)) s.time.dur

/-- The 12 bytes of a TIME96 from a time in units of 2^-16 ns (R344). -/
def time96 (t : Nat) : List Byte :=
  let sec := 1000000000 * 2 ^ 16
  leBytes 2 (t % 2 ^ 16) ++ leBytes 4 (t % sec / 2 ^ 16) ++ leBytes 6 (t / sec)

/-- The time in units of 2^-16 ns that the 12 bytes of a TIME96 hold. -/
def time96Of (b : List Byte) : Nat :=
  leNat (slice b 0 2) + leNat (slice b 2 4) * 2 ^ 16 + leNat (slice b 6 6) * (1000000000 * 2 ^ 16)

/-- The timebase counts as locked (R400). -/
def tlock (s : State) : Bool := s.time.state == 2 || (s.time.state == 3 && !s.time.expired)

/-- The timebase counted as locked at a moment of the duration clock since start (R422). -/
def tlockAt (s : State) (d : Nat) : Bool := tlock s != ((s.time.flips.filter (fun f => decide (d < f))).length % 2 == 1)

/-- A change of whether the timebase counts as locked is remembered (R422). -/
def keepLock (s t : State) : State :=
  if tlock s = tlock t then t else { t with time := { t.time with flips := t.time.dur :: t.time.flips } }

/-! Dictionary objects as plain stored values. -/

/-- The key of an object. -/
def okey (idx sub : Nat) : Nat := idx * 256 + sub

/-- A stored object value as a number; `d` when it is at its default. -/
def objNat (s : State) (idx sub d : Nat) : Nat :=
  match tblFind s.objs (okey idx sub) with
  | some b => leNat b
  | none => d

def setObj (idx sub : Nat) (v : List Byte) (s : State) : State :=
  { s with objs := tblSet (okey idx sub) v s.objs }

def setObjNat (idx sub n v : Nat) (s : State) : State := setObj idx sub (leBytes n v) s

/-- A 32-bit counter object counted up, stopping at 2^32 - 1. -/
def bumpObj (idx sub : Nat) (s : State) : State := setObjNat idx sub 4 (satInc32 (objNat s idx sub 0)) s

/-! The event log (R488 to R493). -/

/-- Error-record codes of an uncorrectable error, a failed link, a fenced region, a stopped cell or a
watchdog reset (R490). -/
def errCodeSev2 (code : Nat) : Bool :=
  [0x02, 0x06, 0x07, 0x11, 0x13, 0x15, 0x21, 0x23, 0x26, 0x27, 0x32, 0x33].contains code

/-- The severity of an event (R490). -/
def logSev (src code : Nat) : Nat :=
  if src = 0x05 ∧ code = 0x35 then 3
  else if 0x02 ≤ src ∧ src ≤ 0x05 ∧ errCodeSev2 code then 2
  else if src = 0x07 ∧ [0x01, 0x04, 0x0B, 0x0C, 0x0D, 0x0E].contains code then 2
  else if src = 0x09 ∧ [0x06, 0x07].contains code then 2
  else if src = 0x01 ∧ code = 0x08 then 2
  else if src = 0x01 ∧ [0x01, 0x04].contains code then 0
  else if src = 0x0D ∧ [0x01, 0x02, 0x04].contains code then 0
  else if src = 0x07 ∧ [0x03, 0x07].contains code then 0
  else if src = 0x0A ∧ code = 0x04 then 0
  else 1

/-- Entries the log holds (R488). -/
def logCap : Nat := 4096

/-- Entries the event tail of bank 14 holds (R493). -/
def tailCap : Nat := 113

/-- The timebase runs: while the chip is on, and in a wake from step 4 on, when it has been loaded (R403, R541). -/
def timeRuns (s : State) : Bool := pstateOf s == 0 || (pstateOf s == 3 && decide (4 ≤ regF s pcBase 11 8))

/-- The island's time in us: its copy, counted on by its own timer (R403). -/
def islandTime (s : State) : Nat := s.chip.isl + (s.chip.ref - s.chip.islRef) / (1000 * 2 ^ 32)

/-- The stamp of an event: the timebase's, or while that does not run the island timer's (R422). -/
def eventTime (s : State) : Nat := if timeRuns s then time16 s else islandTime s * (1000 * 2 ^ 16)

/-- An event recorded: in the log under the next sequence number, and in the tail when its severity is
1 or more (R488, R493). Below ev_minsev nothing is recorded. -/
def logEvent (src code unit : Nat) (detail : W) (s : State) : State :=
  let sev := logSev src code
  if sev < objNat s 0x8000 4 0 then s
  else
    let r : LogRec := { time := eventTime s, seq := s.logNext % 2 ^ 32, src := src, sev := sev,
                        code := code, unit := unit, flags := b2n (!tlock s), detail := detail }
    { s with
      log := lastN logCap (s.log ++ [r]),
      logLost := if logCap ≤ s.log.length then satInc32 s.logLost else s.logLost,
      tail := if 1 ≤ sev then lastN tailCap (s.tail ++ [r]) else s.tail,
      tailGen := if 1 ≤ sev then s.tailGen + 1 else s.tailGen,
      tailPatch := if 1 ≤ sev then [] else s.tailPatch,
      logNext := (s.logNext + 1) % 2 ^ 32 }

/-- An event whose detail has no stated layout, with the words that it is about. -/
def logWords (src code unit : Nat) (about : List W) (s : State) : State :=
  logEvent src code unit (Config.logDetail src code about) s

/-- The same, about one word. -/
def logFree (src code unit about : Nat) (s : State) : State := logWords src code unit [wd about] s

/-! Error records (R293 to R295). -/

/-- Where a record lies (R284, R295). -/
def recAddr : Rec → Nat
  | .cell n => blockBase (n / 16) + 0x400 + 0x40 * (n % 16)
  | .block b => blockBase b + 0x200
  | .region r => hubBase r + 0xF10000
  | .chip => partIsland + 0x800000

/-- The log source of a record's level (R489), and the unit it names. -/
def recSrc : Rec → Nat × Nat
  | .cell n => (0x02, n)
  | .block b => (0x03, b)
  | .region r => (0x04, r)
  | .chip => (0x05, 0)

/-- An event in an error record: the event words, the count, and the event log (R293, R294). -/
def errEvent (r : Rec) (code init evd addr : Nat) (s : State) : State :=
  let a := recAddr r
  let s := bumpReg (a + 0x10) 0 s
  let s := setReg (a + 0x18) (wd (code + init % 1024 * 2 ^ 16 + evd % 2 ^ 32 * 2 ^ 32)) s
  let s := setReg (a + 0x20) (wd (addr % 2 ^ 48)) s
  let s := setReg (a + 0x28) (timeWord s) s
  logEvent (recSrc r).1 code (recSrc r).2 (wd addr) s

/-- The counters of a record (R293). -/
def recCe (r : Rec) (s : State) : State := bumpReg (recAddr r) 0 s
def recUe (r : Rec) (s : State) : State := bumpReg (recAddr r) 32 s
def recTmo (r : Rec) (s : State) : State := bumpReg (recAddr r + 8) 0 s
def recRetry (r : Rec) (s : State) : State := bumpReg (recAddr r + 8) 32 s
def recLvc (r : Rec) (s : State) : State := bumpReg (recAddr r + 0x10) 32 s

/-- The out bit of a record (R293). -/
def recOut (r : Rec) (b : Bool) (s : State) : State := setRegF (recAddr r + 0x30) 0 0 (b2n b) s

/-- A message put on its way from a hardware producer to a queue (R315). -/
def post (producer queue : Nat) (msg : List Byte) (s : State) : State :=
  { s with posts := s.posts ++ [{ producer := producer, queue := queue, msg := msg }] }

end Sys2Proof.Machine
end

