-- ==== Sys2Proof/Machine/Gates.lean ====
section
/-! DEFINITION. Target gates (chapter 8): which gate guards an address, the check of every request, what
a denial records, and the configuration writes. -/

namespace Sys2Proof.Machine

/-- Where a request's first byte lies (R268, checks 1 and 2). -/
inductive Target where
  | unmapped
  | cacheWay (gate : Nat)
  | fenced (gate : Nat)
  | gate (g : Nat)
  deriving DecidableEq, Repr

/-- Bytes fitted on one DDR4 channel (R40). -/
def ddrFit (s : State) : Nat := if s.v128 then 0x800000000 else 0x400000000

/-- Scratch ways of a block: wcfg set and not changing (R284, R285). -/
def wayScratch (s : State) (b w : Nat) : Bool :=
  bit (reg s (blockBase b + 0x8)) w && !bit (reg s (blockBase b + 0x10)) w

/-- A region is out of service (R43). -/
def regionOut (s : State) (r : Nat) : Bool := s.fenced == some r

/-- A block is in nap or off, and serves no request (R530). -/
def blockAsleep (s : State) (b : Nat) : Bool := bit (reg s (blockBase b + 0x1008)) 5

/-- The DDR4 channel of an address, and the address within the channel, under the mapping in force (R40, R41). -/
def ddrChannel (s : State) (a : Nat) : Nat :=
  let o := a - 0x1000000000
  if s.striped then o / 0x1000 % 4 else o / 0x1000000000 % 4
def channelAddr (s : State) (a : Nat) : Nat :=
  let o := a - 0x1000000000
  if s.striped then o / 0x4000 * 0x1000 + o % 0x1000 else o % 0x1000000000

/-- The target of a DDR4 address (R40, R41, R44). -/
def ddrTarget (s : State) (a : Nat) : Target :=
  if channelAddr s a < ddrFit s then
    if !s.striped && regionOut s (ddrChannel s a) then .unmapped else .gate (0x114 + ddrChannel s a)
  else .unmapped

/-- A control-space address out of service: in a fenced region's hub, blocks and cells, but for its error record
(R291), or in an offline block and its cells, but for the block's and the cells' error records (R268, R288). -/
def controlOut (s : State) (p a : Nat) : Bool :=
  let hub := p == 3 && regionOut s ((a - partRegion) / 0x1000000)
    && !((a - partRegion) / 0x1000000 == (s.fenced.getD 4) &&
      decide (recAddr (.region (s.fenced.getD 4)) ≤ a) && decide (a < recAddr (.region (s.fenced.getD 4)) + 0x40))
  let b := (a - partBlock) / 0x100000
  let o := (a - partBlock) % 0x100000
  let block := p == 4 && (regionOut s (b / 4) || (s.offline.contains b && !(decide (0x200 ≤ o) && decide (o < 0x800))))
  let cell := p == 5 && (regionOut s ((a - partCell) / 0x400000) || s.offline.contains ((a - partCell) / 0x100000))
  hub || block || cell

/-- The target of a control-space address; engines 0 to 3 of the security unit are unmapped (R567). -/
def controlTarget (s : State) (p a : Nat) : Target :=
  if controlOut s p a then .fenced (0x118 + p)
  else if 0x60100000 ≤ a ∧ a < 0x60104000 then .unmapped
  else .gate (0x118 + p)

/-- The target of a physical address (R35, R256). -/
def targetOf (s : State) (a : Nat) : Target :=
  if a < 0x40000000 then .unmapped
  else if a < 0x42000000 then
    let n := (a - 0x40000000) / 0x20000
    if regionOut s (n / 64) || s.offline.contains (n / 16) || blockAsleep s (n / 16) then .fenced n else .gate n
  else if a < 0x44000000 then .unmapped
  else if a < 0x48000000 then
    let b := (a - 0x44000000) / 0x400000
    if regionOut s (b / 4) || s.offline.contains b || blockAsleep s b then .fenced (0x100 + b)
    else if wayScratch s b ((a - 0x44000000) % 0x400000 / 0x80000) then .gate (0x100 + b)
    else .cacheWay (0x100 + b)
  else if a < 0x4A000000 then
    let r := (a - 0x48000000) / 0x800000
    if regionOut s r then .fenced (0x110 + r) else .gate (0x110 + r)
  else if 0x1000000000 ≤ a ∧ a < 0x5000000000 then ddrTarget s a
  else if 0x8000000000 ≤ a ∧ a < 0xC000000000 then .gate 0x120
  else match controlPart a with
    | some p => controlTarget s p a
    | none => .unmapped

/-- Areas of the control space that take accesses of any width within a line (R268): boot ROM, OTP
window, retention banks, mailbox buffers. -/
def anyWidth (a : Nat) : Bool :=
  (partSec ≤ a && a < partSec + 0x42000) || (partIsland ≤ a && a < partIsland + 0x10000)
  || (partPcie + 0x1000 ≤ a && a < partPcie + 0x5000)

/-- A gate's word as newly arriving requests see it: with the accepted writes that wait to be applied,
since a held request is checked under the new rule (R265). -/
def gateReg (s : State) (a : Nat) : W :=
  match s.gatePend.reverse.find? (fun e => e.2.1 == a) with
  | some e => e.2.2
  | none => reg s a

/-- The address of gate region `i`'s words. -/
def regionAt (g i : Nat) : Nat := gateBlock g + 0x1000 + 0x100 * i

/-- A gate region's attributes (R262). -/
def regionAttr (s : State) (g i : Nat) : W := gateReg s (regionAt g i + 0x10)

/-- An enabled gate region covers an address. -/
def regionHit (s : State) (g a i : Nat) : Bool :=
  bit (regionAttr s g i) 0
  && decide ((gateReg s (regionAt g i)).toNat ≤ a)
  && decide (a < (gateReg s (regionAt g i + 8)).toNat + 0x1000)

/-- The enabled gate regions that match an address, lowest first. -/
def regionHits (s : State) (g a : Nat) : List Nat := (List.range 64).filter (regionHit s g a)

/-- The initiator set bit of an initiator in a gate region (R261). -/
def isetBit (s : State) (g i init : Nat) : Bool :=
  bit (gateReg s (regionAt g i + 0x80 + 8 * (init / 64))) (init % 64)

/-- Check 5: the initiator is admitted (R269); the reason when it is not. -/
def admitFail (s : State) (g i init : Nat) (rq : Rq) : Option Nat :=
  let at_ := regionAttr s g i
  match rq with
  | .dbg _ => if bit at_ 4 || (!bit at_ 5 && isetBit s g i 1023) then none else some 0x05
  | _ => if isetBit s g i init then none else some 0x02

/-- Check 6: the right that the request needs (R269). -/
def rightOk (at_ : W) : Rq → Bool
  | .read => bit at_ 1
  | .write => bit at_ 2
  | .fetch => bit at_ 3
  | .dbg w => if w then bit at_ 2 else bit at_ 1

/-- The check of a request of `n` bytes at `a` (R268): the gate, or why it is denied. -/
def gateCheck (s : State) (init a n : Nat) (rq : Rq) : Except Deny Nat :=
  match targetOf s a with
  | .unmapped => .error ⟨0x06, none, 63⟩
  | .cacheWay g => .error ⟨0x06, some g, 63⟩
  | .fenced g => .error ⟨0x09, some g, 63⟩
  | .gate g =>
    match regionHits s g a with
    | [] => .error ⟨0x01, some g, 63⟩
    | [i] =>
      match admitFail s g i init rq with
      | some r => .error ⟨r, some g, i⟩
      | none =>
        if !rightOk (regionAttr s g i) rq then .error ⟨0x03, some g, i⟩
        else if inControl a && !anyWidth a && !(n == 8 && a % 8 == 0) then .error ⟨0x0B, some g, i⟩
        else .ok g
    | i :: _ => .error ⟨0x04, some g, i⟩

/-- The attributes of the gate region that answers a request (R276 to R278); 0 when none does. -/
def attrOf (s : State) (a : Nat) : W :=
  match targetOf s a with
  | .gate g => match regionHits s g a with
    | i :: _ => regionAttr s g i
    | [] => 0
  | _ => 0

/-- The ordering attribute at an address: 0 relaxed, 1 ordered, 2 strict device (R262). -/
def ordOf (s : State) (a : Nat) : Nat := fld (attrOf s a) 9 8

/-- evacc (R260). -/
def accCode : Rq → Nat
  | .read => 0 | .write => 1 | .fetch => 2 | .dbg _ => 3

/-- The 32-byte gate event message (R271). -/
def gateMsg (s : State) (g : Nat) : List Byte :=
  let b := gateBlock g
  leBytes 8 (reg s (b + 0x20)).toNat ++ leBytes 8 (reg s (b + 0x28)).toNat
    ++ leBytes 8 (reg s (b + 0x30)).toNat ++ leBytes 2 g ++ leBytes 6 0

/-- What a denial records (R271): the gate's counter and event words, its message, the event log. An
address that no gate guards is event 0x34 of the chip record instead (R257). -/
def gateEvent (init a : Nat) (rq : Rq) (d : Deny) (s : State) : State :=
  match d.gate with
  | none => errEvent .chip 0x34 init 0 a s
  | some g =>
    let b := gateBlock g
    let s := bumpReg (b + 0x18) 0 s
    let s := setReg (b + 0x20) (wd (a % 2 ^ 48)) s
    let s := setReg (b + 0x28)
      (wd (d.reason + init % 1024 * 2 ^ 8 + accCode rq * 2 ^ 18 + d.reg % 64 * 2 ^ 20)) s
    let s := setReg (b + 0x30) (timeWord s) s
    let s := logEvent 0x06 d.reason g (wd a) s
    if bit (reg s (b + 0x8)) 31 then post (0x400 + g) (regF s (b + 0x8) 17 0) (gateMsg s g) s else s

/-! Configuration writes (R264 to R267). -/

/-- Bits of a base or limit word that must be zero. -/
def pageReserved (v : W) : Bool := v.toNat % 0x1000 != 0 || decide (2 ^ 48 ≤ v.toNat)

/-- attr as it is kept: a fixed field is unchanged by a write (R262). -/
def attrKeep (g : Nat) (v : W) : W :=
  match gateKind g with
  | 0 => setFld v 7 6 2
  | 4 => setFld (setFld v 7 6 2) 9 8 2
  | 5 => setFld v 7 6 2
  | _ => v

/-- An enabled region other than `i` that overlaps the pages from `lo` to `hi`. -/
def overlapOf (s : State) (g i lo hi : Nat) : Option Nat :=
  (List.range 64).find? (fun j => j != i && bit (regionAttr s g j) 0
    && decide ((gateReg s (regionAt g j)).toNat ≤ hi)
    && decide (lo ≤ (gateReg s (regionAt g j + 8)).toNat))

/-- The refusal of a commit (R264): reason and the region named. -/
def commitRefusal (s : State) (g i : Nat) (v : W) : Option (Nat × Nat) :=
  let lo := (gateReg s (regionAt g i)).toNat
  let hi := (gateReg s (regionAt g i + 8)).toNat
  let rg := gateRange s.striped g
  if hi < lo then some (0x3, i)
  else if lo < rg.1 ∨ rg.2 < hi then some (0x4, i)
  else match overlapOf s g i lo hi with
    | some j => some (0x5, j)
    | none =>
      if 2 ^ 10 ≤ v.toNat ∨ fld v 7 6 = 3 ∨ fld v 9 8 = 3 then some (0x6, i) else none

/-- The refusal of a configuration write of `v` at offset `off` of gate `g`'s block (R264, R267), the
lowest reason first; `none` when it is accepted. -/
def configRefusal (s : State) (g off : Nat) (v : W) : Option (Nat × Nat) :=
  if off < 0x1000 ∨ 0x5000 ≤ off then some (0x7, 0)
  else
    let i := (off - 0x1000) / 0x100
    let w := off % 0x100
    let at_ := regionAttr s g i
    if bit at_ 5 && bit at_ 0 then some (0x1, i)
    else if !(w == 0 || w == 8 || w == 0x10 || decide (0x80 ≤ w)) then some (0x7, i)
    else
      if w = 0x10 then
        if bit v 0 then
          match commitRefusal s g i (attrKeep g v) with
          | some r => some r
          | none => none
        else if 2 ^ 10 ≤ v.toNat then some (0x6, i) else none
      else if bit at_ 0 then some (0x2, i)
      else if (w = 0 ∨ w = 8) ∧ pageReserved v then some (0x6, i)
      else none

/-- The enmask and lkmask words, kept with the regions (R260). -/
def gateMasks (g i : Nat) (at_ : W) (s : State) : State :=
  let b := gateBlock g
  let s := setRegF (b + 0x38) i i (b2n (bit at_ 0)) s
  setRegF (b + 0x40) i i (b2n (bit at_ 5 && bit at_ 0)) s

/-- A refused configuration write (R264). -/
def gateRefuse (g rsn r : Nat) (s : State) : State :=
  let b := gateBlock g
  let s := bumpReg (b + 0x18) 32 s
  setReg (b + 0x10)
    (wd (regF s (b + 0x10) 0 0 + 2 + rsn * 2 ^ 8 + r % 64 * 2 ^ 16)) s

/-- An accepted configuration write waits for the gate to drain (R265): drain is set. -/
def gateAccept (g a : Nat) (v : W) (s : State) : State :=
  let b := gateBlock g
  let s := setReg (b + 0x10) 1 s
  { s with gatePend := s.gatePend ++ [(g, a, v)] }

/-- A gate holds newly arriving requests while an accepted write waits (R265). -/
def gateHolds (s : State) (a : Nat) : Bool :=
  match targetOf s a with
  | .gate g => s.gatePend.any (fun e => e.1 == g)
  | _ => false

/-- The gate that guards an address, whatever it answers there. -/
def gateGuard (s : State) (a : Nat) : Option Nat :=
  match targetOf s a with
  | .unmapped => none
  | .cacheWay g => some g
  | .fenced g => some g
  | .gate g => some g

/-- A request that a gate has accepted has not completed: a load that was read there and has not arrived (R265). -/
def gateBusy (s : State) (g : Nat) : Bool :=
  s.cells.any (fun e => e.2.loads.any (fun l =>
    !l.arr && !l.fwd && l.got.isSome && l.parts.any (fun p => gateGuard s p.1 == some g)))

/-- A gate fence waits at a gate (R260, R266). -/
def gateFenced (s : State) (g : Nat) : Bool := s.cells.any (fun e => decide (e.2.stall = .gfence g true))

/-- A gate fence reaches its gate: drain is set (R260). -/
def gateFence (g : Nat) (s : State) : State := setRegF (gateBlock g + 0x10) 0 0 1 s

/-- drain follows what waits for the gate (R260). -/
def gateSettle (g : Nat) (s : State) : State :=
  setRegF (gateBlock g + 0x10) 0 0 (b2n (s.gatePend.any (fun e => e.1 == g) || gateFenced s g)) s

/-- A write to a word of a gate's register block that arrives at it: the new state, and whether it was
refused (R260, R264). A write to a read-only header word changes nothing. -/
def gateWrite (g off : Nat) (v : W) (s : State) : State × Bool :=
  let b := gateBlock g
  if off = 0x8 then (gateAccept g (b + 8) (wd (fld v 17 0 + b2n (bit v 31) * 2 ^ 31)) s, false)
  else if off = 0x48 then
    (if bit v 0 then
      setReg (b + 0x18) 0 (setReg (b + 0x20) 0 (setReg (b + 0x28) 0 (setReg (b + 0x30) 0 s)))
     else s, false)
  else if off ≤ 0x40 ∧ off % 8 = 0 then (s, false)
  else match configRefusal s g off v with
    | some r => (gateRefuse g r.1 r.2 s, true)
    | none =>
      let v := if off % 0x100 = 0x10 then attrKeep g v else v
      (gateAccept g (b + off) v s, false)

/-- The word of busy ways of the block that a gate guards (R284). -/
def wbusyAt (g : Nat) : Nat := blockBase (g - 0x100) + 0x10

/-- One accepted write applied (R265): the word changes and the masks with it. A change of ways ends so too: its ways are
busy no more (R285). -/
def gateApplyOne (e : Nat × Nat × W) (s : State) : State :=
  if e.2.1 = wbusyAt e.1 then setReg e.2.1 (reg s e.2.1 &&& ~~~e.2.2) s else
  let s := setReg e.2.1 e.2.2 s
  let off := e.2.1 - gateBlock e.1
  if off % 0x100 = 0x10 then gateMasks e.1 ((off - 0x1000) / 0x100) e.2.2 s else s

/-- Every accepted write of a gate applied, once the requests accepted before have completed, and drain cleared
(R265). -/
def gateApply (g : Nat) (s : State) : State :=
  if gateBusy s g then s
  else
    let mine := s.gatePend.filter (fun e => e.1 == g)
    let s := mine.foldl (fun s e => gateApplyOne e s) s
    gateSettle g { s with gatePend := s.gatePend.filter (fun e => e.1 != g) }

/-- Every accepted write of every gate applied. -/
def gatesApplied (s : State) : State :=
  let l := s.gatePend
  let s := l.foldl (fun s e => gateApplyOne e s) { s with gatePend := [] }
  l.foldl (fun s e => gateSettle e.1 s) s

end Sys2Proof.Machine
end

