-- ==== Sys2Proof/Machine/Live.lean ====
section
/-! DEFINITION. The fields of the control space that follow other state: trip outputs, the leap-second offset in
force, the queue manager's words, the OTP window. -/

namespace Sys2Proof.Machine

/-! Trip outputs (R378 to R380). -/

def tripBlock : Nat := 0x62800000
def toutBlock : Nat := 0x6A500000

/-- The device gives service: rings are written, publications sent, trip outputs driven (R354, R378, R380, R387). -/
def inService (s : State) : Bool := (s.dev == 1 || s.dev == 2 || s.dev == 3) && pstateOf s == 0

/-- FAULT_N is asserted (R594). -/
def faultN (s : State) : Bool := s.fatal || s.dev == 4 || pstateOf s == 4 || s.chip.thermal || !s.chip.aux

/-- Outputs that an active object holds. -/
def toutHold (s : State) : Nat :=
  s.trip.objs.foldl (fun a e => if e.2.act then a ||| e.2.omask else a) 0

/-- The levels of TOUT0 to TOUT15. -/
def toutLevel (s : State) : Nat :=
  if inService s && !faultN s then
    let force := if s.dev = 2 then regF s (toutBlock + 8) 15 0 else 0
    regF s toutBlock 15 0 &&& (toutHold s ||| force)
  else 0

/-! Leap seconds (R416, R417). -/

/-- The address of leap-second entry `i` (R416). -/
def leapAt (i : Nat) : Nat := 0x6A300000 + 8 * i

def leapWord (s : State) (i : Nat) : W := reg s (leapAt i)

/-- One of two leap-second entries for the same or different seconds (R417): the greater second, then a
host entry, then the higher number. -/
def leapBetter (s : State) (best i : Nat) : Nat :=
  let a := leapWord s best
  let b := leapWord s i
  if fld a 47 0 < fld b 47 0 then i
  else if fld b 47 0 < fld a 47 0 then best
  else if fld b 57 56 = 1 then i
  else if fld a 57 56 = 1 then best else i

/-- The entry in force at a TAI second (R417). -/
def leapAtSec (s : State) (sec : Nat) : Option Nat :=
  match (List.range 32).filter (fun i =>
      fld (leapWord s i) 57 56 != 0 && decide (fld (leapWord s i) 47 0 ≤ sec)) with
  | [] => none
  | i :: l => some (l.foldl (leapBetter s) i)

/-- TAI - UTC in force at a TAI second (R417). -/
def utcOffset (s : State) (sec : Nat) : Nat :=
  match leapAtSec s sec with
  | some i => fld (leapWord s i) 55 48
  | none => (Config.noLeapEntry sec).toNat

/-! Queue descriptors (R300) and the manager's live words (R318). -/

def dW (d : QDesc) (i : Nat) : W := d.ws.getD i 0

def dSet (i : Nat) (v : W) (d : QDesc) : QDesc := { d with ws := d.ws.set i v }

def dFld (d : QDesc) (i hi lo : Nat) : Nat := fld (dW d i) hi lo

def dPut (i hi lo v : Nat) (d : QDesc) : QDesc := dSet i (setFld (dW d i) hi lo v) d

def dPin (d : QDesc) : Bool := bit (dW d 0) 59

def qCacheOf (s : State) (r : Nat) : List QDesc := tblGet [] s.qcache r

/-- Pinned descriptors of a manager. -/
def qPinned (s : State) (r : Nat) : Nat := ((qCacheOf s r).filter dPin).length

/-- The live fields of word 0x008 (R318). -/
def qStatusWord (s : State) (r : Nat) : W :=
  wd (b2n s.qReady + (qCacheOf s r).length % 2 ^ 13 * 2 ^ 16 + qPinned s r % 2 ^ 11 * 2 ^ 32)

/-! OTP (R553). -/

/-- An OTP bit as the module left the factory: in the provisioned state (R551), the rest as burned. -/
def otpMade (i : Nat) : Bool :=
  if i = 0 then true
  else if i < 8 then (i == 4 || i == 5) && Config.otp i
  else Config.otp i

/-- An OTP bit: a fuse once burned reads 1. -/
def otpBit (s : State) (i : Nat) : Bool := s.sec.fuses.contains i || otpMade i

/-- Offsets that hold a field; all others read as zero. -/
def otpHeld (o : Nat) : Bool :=
  o == 0 || (decide (0x10 ≤ o) && decide (o < 0x26)) || (decide (0x40 ≤ o) && decide (o < 0x140) &&
    decide (o % 0x40 ≤ 0x20)) || (decide (0x140 ≤ o) && decide (o < 0x150)) ||
  (decide (0x200 ≤ o) && decide (o < 0x220))

/-- An octet of the OTP array. -/
def otpByte (s : State) (o : Nat) : Byte :=
  if otpHeld o then
    BitVec.ofNat 8 ((List.range 8).foldl (fun n k => if otpBit s (8 * o + k) then n + 2 ^ k else n) 0)
  else 0

/-- Octets of the OTP array, as the security unit reads them. -/
def otpBytes (s : State) (o n : Nat) : List Byte := (List.range n).map (fun i => otpByte s (o + i))

/-- An octet of the OTP window: the device secret reads as zero. -/
def otpWindow (s : State) (o : Nat) : Byte := if 0x200 ≤ o ∧ o < 0x220 then 0 else otpByte s o

/-- lmac of a lane: macbase, read as an address with its first octet in the low byte, plus the lane number, which
counts in its last octets (R553). The octets as a number with the first in the low byte. -/
def laneMac (n : Nat) : BitVec 48 :=
  let made := (List.range 48).foldl (fun v k => if Config.otp (0x100 + k) then v + 2 ^ k else v) 0
  BitVec.ofNat 48 (leNat (beBytes 6 (beNat (leBytes 6 made) + n)))

end Sys2Proof.Machine
end

