-- ==== Sys2Proof/Machine/Crypto.lean ====
section
/-! DEFINITION. The functions that the spec names by their standards and that the security unit, the retention
banks and the Dunzia link use: SHA-256 (FIPS 180-4), HMAC and HKDF over it, and CRC-32C. -/

namespace Sys2Proof.Machine

/-- The greatest number below `2^bits`, from `r` on, whose `k`-th power does not pass `n`: its bits are tried from
the highest down. -/
def rootBits (k n : Nat) : Nat → Nat → Nat
  | 0, r => r
  | b + 1, r =>
    let t := r + 2 ^ b
    rootBits k n b (if t ^ k ≤ n then t else r)

/-- The first 32 bits of the fractional part of the `k`-th root of `p`, for `p` below 1,024. -/
def rootFrac (k p : Nat) : BitVec 32 := BitVec.ofNat 32 (rootBits k (p * 2 ^ (32 * k)) 38 0)

/-- The primes below `n`, for `n` up to 529. -/
def primesTo (n : Nat) : List Nat :=
  (List.range n).filter (fun p => decide (2 ≤ p) && [2, 3, 5, 7, 11, 13, 17, 19].all (fun d => decide (p % d ≠ 0 ∨ p = d)))

/-- The round constants of SHA-256: from the cube roots of the 64 primes below 312. -/
def shaK : List (BitVec 32) := (primesTo 312).map (rootFrac 3)

/-- The initial value of SHA-256: from the square roots of the eight primes below 20. -/
def shaH0 : List (BitVec 32) := (primesTo 20).map (rootFrac 2)

/-- A word's rotations to the right by the given amounts, combined by exclusive or with a first word. -/
def rotXor (x0 : BitVec 32) (ns : List Nat) (x : BitVec 32) : BitVec 32 :=
  ns.foldl (fun y n => y ^^^ x.rotateRight n) x0

/-- One word of the message schedule after the sixteen before it, oldest first. -/
def shaNext (w : List (BitVec 32)) : BitVec 32 :=
  let at_ := fun k => w.getD k 0
  at_ 0 + at_ 9 + rotXor (at_ 1 >>> 3) [7, 18] (at_ 1) + rotXor (at_ 14 >>> 10) [17, 19] (at_ 14)

/-- What a round adds to its constant and schedule word: the last working variable, the mix of the fifth and its
choice between the next two. -/
def shaMix (v : List (BitVec 32)) : BitVec 32 :=
  match v.drop 4 with
  | [x, y, z, last] => last + rotXor 0 [6, 11, 25] x + (z ^^^ (x &&& (y ^^^ z)))
  | _ => 0

/-- What a round adds beside it to the first working variable: the mix of the first and the majority of three. -/
def shaTop (v : List (BitVec 32)) : BitVec 32 :=
  match v.take 3 with
  | [x, y, z] => rotXor 0 [2, 13, 22] x + ((x &&& (y ||| z)) ||| (y &&& z))
  | _ => 0

/-- The rounds: the working variables, the constants left, and the next sixteen schedule words. Each round moves the
variables one place on, replaces the first and adds to the fifth. -/
def shaRounds (v : List (BitVec 32)) : List (BitVec 32) → List (BitVec 32) → List (BitVec 32)
  | [], _ => v
  | k :: ks, w =>
    let m := shaMix v + k + w.headD 0
    shaRounds ((m + shaTop v) :: (v.take 7).modify 3 (· + m)) ks (w.tail ++ [shaNext w])

/-- A block of 64 bytes hashed into the value. -/
def shaBlock (h : List (BitVec 32)) (b : List Byte) : List (BitVec 32) :=
  let w := (List.range 16).map (fun i => BitVec.ofNat 32 (beNat (slice b (4 * i) 4)))
  (h.zip (shaRounds h shaK w)).map (fun p => p.1 + p.2)

/-- `n` blocks hashed in order. -/
def shaBlocks : Nat → List (BitVec 32) → List Byte → List (BitVec 32)
  | 0, h, _ => h
  | n + 1, h, b => shaBlocks n (shaBlock h (b.take 64)) (b.drop 64)

/-- The padding of the end of a message whose length in bytes is `tot`. -/
def shaPad (b : List Byte) (tot : Nat) : List Byte :=
  let z := (119 - b.length % 64) % 64
  b ++ 0x80#8 :: List.replicate z 0 ++ beBytes 8 (8 * tot)

def shaBytes (h : List (BitVec 32)) : List Byte := h.flatMap (fun x => beBytes 4 x.toNat)

def shaOfBytes (b : List Byte) : List (BitVec 32) :=
  (List.range 8).map (fun i => BitVec.ofNat 32 (beNat (slice b (4 * i) 4)))

/-- The last part of a message, from a value, padded with the total length (R567, mode 3). -/
def shaLast (h : List (BitVec 32)) (b : List Byte) (tot : Nat) : List (BitVec 32) :=
  let m := shaPad b tot
  shaBlocks (m.length / 64) h m

/-- SHA-256. -/
def sha256 (b : List Byte) : List Byte := shaBytes (shaLast shaH0 b b.length)

def xorByte (x : Byte) (b : List Byte) : List Byte := b.map (fun y => y ^^^ x)

/-- HMAC-SHA-256 (R516, R564). -/
def hmac (key msg : List Byte) : List Byte :=
  let k := if 64 < key.length then sha256 key else key
  let k := k ++ List.replicate (64 - k.length) 0
  sha256 (xorByte 0x5C k ++ sha256 (xorByte 0x36 k ++ msg))

/-- The blocks of the expansion of HKDF, from block `i` on. -/
def hkdfExpand (prk info : List Byte) : Nat → Nat → List Byte → List Byte
  | 0, _, _ => []
  | n + 1, i, t =>
    let t := hmac prk (t ++ info ++ beBytes 1 i)
    t ++ hkdfExpand prk info n (i + 1) t

/-- HKDF-SHA-256 (R515, R565). -/
def hkdf (salt ikm info : List Byte) (n : Nat) : List Byte :=
  (hkdfExpand (hmac salt ikm) info ((n + 31) / 32) 1 []).take n

/-- A byte into a reflected CRC-32C register. -/
def crcBits : Nat → BitVec 32 → BitVec 32
  | 0, c => c
  | n + 1, c => crcBits n (if c.getLsbD 0 then (c >>> 1) ^^^ 0x82F63B78#32 else c >>> 1)

/-- CRC-32C (R475 to R477). -/
def crc32c (b : List Byte) : BitVec 32 :=
  ~~~(b.foldl (fun c x => crcBits 8 (c ^^^ x.setWidth 32)) 0xFFFFFFFF#32)

/-- The octets of a text. -/
def octets (t : String) : List Byte := t.toList.map (fun c => BitVec.ofNat 8 c.toNat)

end Sys2Proof.Machine
end

