-- ==== Sys2Proof/Machine/Mem.lean ====
section
/-! DEFINITION. Memory: bytes and tags by physical address, in canonical form. -/

namespace Sys2Proof.Machine

/-- What a byte that nothing has written reads as: every reset other than a wake from standby writes
zeros to all on-chip SRAM and all fitted DDR4 (R80). -/
def memBlank : Byte := 0

/-- The byte at an address. -/
def memGet : List Host.Cell → Nat → Byte
  | [], _ => memBlank
  | (a, b) :: m, x => if a = x then b else memGet m x

/-- The memory with byte `b` at address `x`: unlisted when it is what an unlisted address reads as. -/
def memPut (x : Nat) (b : Byte) : List Host.Cell → List Host.Cell
  | [] => if b = memBlank then [] else [(x, b)]
  | (a, v) :: m =>
    if a = x then (if b = memBlank then m else (x, b) :: m)
    else if x < a then (if b = memBlank then (a, v) :: m else (x, b) :: (a, v) :: m)
    else (a, v) :: memPut x b m

/-- Bytes from an address up. -/
def memRead (m : List Host.Cell) : Nat → Nat → List Byte
  | _, 0 => []
  | a, n + 1 => memGet m a :: memRead m (a + 1) n

/-- Bytes written from an address up. -/
def memWrite : Nat → List Byte → List Host.Cell → List Host.Cell
  | _, [], m => m
  | a, b :: bs, m => memWrite (a + 1) bs (memPut a b m)

/-- Addresses strictly rising from above `lo`, and no entry that reads as an unlisted address does. -/
def memWfFrom : Option Nat → List Host.Cell → Bool
  | _, [] => true
  | lo, (a, b) :: m => (match lo with | none => true | some l => decide (l < a)) && b != memBlank
      && memWfFrom (some a) m

/-- The canonical form of memory. -/
def Memory.wf (m : List Host.Cell) : Bool := memWfFrom none m

/-- The tag set as a rising list: granule `g` in or out. -/
def tagPut (g : Nat) (b : Bool) : List Nat → List Nat
  | [] => if b then [g] else []
  | x :: xs =>
    if x = g then (if b then x :: xs else xs)
    else if g < x then (if b then g :: x :: xs else x :: xs)
    else x :: tagPut g b xs

/-- The tags of the granules that `n` bytes from `a` touch, cleared (R77). -/
def tagsClear (a n : Nat) (t : List Nat) : List Nat :=
  if n = 0 then t else t.filter (fun g => decide (g < a / 16) || decide ((a + n - 1) / 16 < g))

/-- A line has a byte of the range of `n` bytes from `a`. -/
def lineIn (a n l : Nat) : Bool := decide (l * 64 < a + n) && decide (a < l * 64 + 64) && decide (0 < n)

/-- A write at a line's home leaves no copy of the line in a cache (R276), and takes the poison code from a line that it
writes whole. -/
def cacheDrop (a n : Nat) (x : CacheSt) : CacheSt :=
  { d := x.d.map (fun e => (e.1, e.2.filter (fun l => !lineIn a n l.line))),
    w := x.w.map (fun e => (e.1, e.2.filter (fun l => !lineIn a n l.2.line))),
    i := x.i.map (fun e => (e.1, e.2.filter (fun l => !lineIn a n l))),
    poison := x.poison.filter (fun l => !(decide (a ≤ l * 64) && decide (l * 64 + 64 ≤ a + n))) }

/-- A data write: the bytes change and every granule touched loses its tag (R77). -/
def memStore (a : Nat) (bs : List Byte) (s : State) : State :=
  { s with mem := memWrite a bs s.mem, tags := tagsClear a bs.length s.tags,
           caches := cacheDrop a bs.length s.caches }

/-- A capability write to a granule: 16 bytes and the tag together (R51, R75). -/
def memStoreCap (a : Nat) (bs : List Byte) (tag : Bool) (s : State) : State :=
  { s with mem := memWrite a bs s.mem, tags := tagPut (a / 16) tag s.tags,
           caches := cacheDrop a bs.length s.caches }

/-- A range of memory made zero, with its tags clear (R80, R285). -/
def memZero (a n : Nat) (s : State) : State :=
  { s with mem := s.mem.filter (fun e => decide (e.1 < a) || decide (a + n ≤ e.1)), tags := tagsClear a n s.tags,
           caches := cacheDrop a n s.caches }

/-- The tag of the granule that holds address `a`. -/
def memTag (s : State) (a : Nat) : Bool := s.tags.contains (a / 16)

/-- A capability's 16 bytes, as memory holds them (R51). -/
def capBytes (c : Cap) : List Byte := leBytes 8 c.addr.toNat ++ leBytes 8 c.hi.toNat

/-- The capability that 16 bytes and a tag make (R51). -/
def capOfBytes (bs : List Byte) (tag : Bool) : Cap :=
  { addr := wd (leNat (bs.take 8)), hi := wd (leNat (bs.drop 8)), tag := tag }

/-- The capability in the granule at `a`. -/
def memCap (s : State) (a : Nat) : Cap := capOfBytes (memRead s.mem a 16) (memTag s a)

/-- A little-endian number of `n` bytes in memory. -/
def memNat (s : State) (a n : Nat) : Nat := leNat (memRead s.mem a n)

end Sys2Proof.Machine
end

