-- ==== Sys2Proof/Machine/Retain.lean ====
section
/-! DEFINITION. The retention banks (R474, R475, R476, R493): their layout, their check, and the anchors that they
hold. Bank 14 is the event tail; the others stand in memory as bytes. -/

namespace Sys2Proof.Machine

/-- Where bank `k` lies. -/
def bankAt (k : Nat) : Nat := partIsland + 0x1000 * k

/-- A record of a bank: index, subindex, value. -/
structure BankRec where
  idx : Nat
  sub : Nat
  val : List Byte
  deriving DecidableEq, Repr

def bankRecBytes (r : BankRec) : List Byte := leBytes 2 r.idx ++ leBytes 1 r.sub ++ leBytes 1 r.val.length ++ r.val

/-- The 4,096 bytes of a bank. -/
def bankImage (k gen : Nat) (recs : List BankRec) : List Byte :=
  let pay := recs.flatMap bankRecBytes
  let body := leBytes 4 gen ++ leBytes 1 k ++ leBytes 1 1 ++ leBytes 2 pay.length ++ pay
    ++ List.replicate (4084 - pay.length) 0
  body ++ leBytes 4 (crc32c body).toNat

/-- The records of a payload that they fill exactly. -/
def bankParse : Nat → List Byte → Option (List BankRec)
  | _, [] => some []
  | 0, _ => none
  | k + 1, b =>
    let n := leNat (slice b 3 1)
    if b.length < 4 + n then none
    else (bankParse k (b.drop (4 + n))).map (fun l =>
      { idx := leNat (slice b 0 2), sub := leNat (slice b 2 1), val := slice b 4 n } :: l)

/-- The check of a bank: its generation and records when it passes. -/
def bankCheck (k : Nat) (b : List Byte) : Option (Nat × List BankRec) :=
  let n := leNat (slice b 6 2)
  if (crc32c (b.take 0xFFC)).toNat = leNat (slice b 0xFFC 4) ∧ leNat (slice b 4 1) = k ∧ leNat (slice b 5 1) = 1
      ∧ n ≤ 4084 then
    (bankParse 4084 (slice b 8 n)).map (fun l => (leNat (slice b 0 4), l))
  else none

/-! The event tail (R488, R493). -/

/-- The 32 bytes of an event log entry. -/
def logBytes (r : LogRec) : List Byte :=
  time96 r.time ++ leBytes 4 r.seq ++ leBytes 1 r.src ++ leBytes 1 r.sev ++ leBytes 2 r.code ++ leBytes 2 r.unit
    ++ leBytes 2 r.flags ++ leBytes 8 r.detail.toNat

/-- Bank 14 as the service left it: zero since the auxiliary supply was applied, then the tail under the entry object's
number. -/
def tailWritten (s : State) : List Byte :=
  if s.tailGen = 0 then List.replicate 4096 0
  else bankImage 14 s.tailGen (s.tail.map (fun r => { idx := 0x8000, sub := 3, val := logBytes r }))

/-- Bank 14, with what others have stored there since (R475; DEDUCED, log entry 112). -/
def tailImage (s : State) : List Byte := s.tailPatch.foldl (fun b e => b.set e.1 e.2) (tailWritten s)

/-- A store of others to bank 14: the service writes the whole bank again at its next entry (R475, R493). -/
def tailStore (a : Nat) (bs : List Byte) (s : State) : State :=
  { s with tailPatch := ((List.range bs.length).zip bs).foldl (fun t e => tblSet (a - bankAt 14 + e.1) e.2 t) s.tailPatch }

/-- The bytes of a bank. -/
def bankBytes (s : State) (k : Nat) : List Byte := if k = 14 then tailImage s else memRead s.mem (bankAt k) 4096

/-- An event log entry from its 32 bytes (R488). -/
def logOf (b : List Byte) : LogRec :=
  { time := time96Of (slice b 0 12), seq := leNat (slice b 12 4), src := leNat (slice b 16 1), sev := leNat (slice b 17 1),
    code := leNat (slice b 18 2), unit := leNat (slice b 20 2), flags := leNat (slice b 22 2), detail := wd (leNat (slice b 24 8)) }

/-- A bank's generation and records, when it passes its check. -/
def bankRead (s : State) (k : Nat) : Option (Nat × List BankRec) := bankCheck k (bankBytes s k)

/-- The entries that bank 14 holds, when it passes its check (R478, R493). -/
def tailCheck (s : State) : Option (List LogRec) :=
  if s.tailPatch.isEmpty then (if s.tailGen = 0 then none else some s.tail)
  else (bankRead s 14).map (fun x => x.2.map (fun r => logOf r.val))

/-- The event tail as bank 14 gives it. -/
def tailNow (s : State) : List LogRec := (tailCheck s).getD []

/-- The generation field as it stands. -/
def bankGen (s : State) (k : Nat) : Nat := leNat (slice (bankBytes s k) 0 4)

/-- A bank written in place with a generation. -/
def bankPut (k gen : Nat) (recs : List BankRec) (s : State) : State :=
  memStore (bankAt k) (bankImage k gen recs) s

/-! The settings journal (R477). -/

/-- The room of one device's journal (R477). -/
def jnlSize : Nat := 0x800000

/-- A device's live records. -/
def Jnl.live (j : Jnl) : Nat := j.recs.foldl (fun n e => n + e.2.data.length + 16) 0

/-- The journal record of a key: the valid record of highest generation on either device. -/
def jnlRec (s : State) (key : Nat) : Option JRec :=
  match tblFind s.dict.jnl.recs key, tblFind s.dict.jnl2.recs key with
  | some a, some b => some (if a.gen < b.gen then b else a)
  | some a, none => some a
  | none, b => b

/-- A record written to a device's journal; a write that fails leaves the previous record in force and uses room all the
same. At three quarters the live records are copied to a fresh area: the journal, and whether that happened. -/
def Jnl.put (j : Jnl) (ok : Bool) (key : Nat) (r : JRec) : Jnl × Bool :=
  let j : Jnl := { recs := if ok then tblSet key r j.recs else j.recs, used := j.used + r.data.length + 16 }
  if 3 * jnlSize ≤ 4 * j.used ∧ j.live < j.used then ({ j with used := j.live }, true) else (j, false)

/-- A record written to both copies; `ok` tells which of the two writes succeeds. -/
def jnlPut (ok : NorOk) (key : Nat) (r : JRec) (s : State) : State :=
  let x := s.dict.jnl.put ok.first key r
  let y := s.dict.jnl2.put ok.second key r
  let s := { s with dict := { s.dict with jnl := x.1, jnl2 := y.1 } }
  if x.2 || y.2 then logFree 0x01 0x07 0 0 s else s

/-- A record that leaves both copies. -/
def jnlDrop (key : Nat) (s : State) : State :=
  { s with dict := { s.dict with jnl := { s.dict.jnl with recs := tblDel key s.dict.jnl.recs },
                                 jnl2 := { s.dict.jnl2 with recs := tblDel key s.dict.jnl2.recs } } }

/-- The journal key of a placed manifest (R426, R477). -/
def manKey (cid : Nat) : Nat := 0xA0000 + cid

/-- The record of a manifest as the device has it: as it awaits the commit, or else as journalled (R473). -/
def manRec (s : State) (cid : Nat) : Option JRec :=
  match tblFind s.dict.pend (manKey cid) with
  | some r => r
  | none => jnlRec s (manKey cid)

/-- A manifest's record changes: in configuring at the commit alone (R473). -/
def manPut (cid : Nat) (r : Option JRec) (s : State) : State :=
  if s.dev = 0 then { s with dict := { s.dict with pend := tblSet (manKey cid) r s.dict.pend } }
  else match r with
    | some r => jnlPut {} (manKey cid) r s
    | none => jnlDrop (manKey cid) s

/-- The records that awaited the commit reach the journal (R470, R473). -/
def pendCommit (s : State) : State :=
  s.dict.pend.foldl (fun s e => match e.2 with
    | some r => jnlPut {} e.1 r s
    | none => jnlDrop e.1 s) { s with dict := { s.dict with pend := [] } }

/-! Anchors (R447, R476, R485). -/

/-- The anchor of a table: image generation, entry count, CRC of the image. -/
def tableAnchor (gen count : Nat) (image : List Byte) : BankRec :=
  { idx := 0, sub := 1, val := leBytes 4 gen ++ leBytes 2 count ++ leBytes 4 (crc32c image).toNat }

/-- The anchors of the manifests, 42 to a record from subindex 1 on: cid with the recorded role in bits 15 and 14
(0 not mirrored, 1 active, 2 standby), and the generation. -/
def manifestAnchors (l : List (Nat × Nat × Nat)) : List BankRec :=
  (List.range ((l.length + 41) / 42)).map (fun i =>
    { idx := 0, sub := i + 1,
      val := ((l.drop (42 * i)).take 42).flatMap (fun e => leBytes 2 (e.1 + e.2.1 * 2 ^ 14) ++ leBytes 4 e.2.2) })

/-- Cid, role and generation of every journalled manifest, as records name them. -/
def anchorsOf (recs : List BankRec) : List (Nat × Nat × Nat) :=
  (recs.filter (fun r => r.idx == 0)).flatMap (fun r =>
    (List.range (r.val.length / 6)).map (fun i =>
      let w := leNat (slice r.val (6 * i) 2)
      (w % 1024, w / 2 ^ 14, leNat (slice r.val (6 * i + 2) 4))))

/-- The anchors of a bank that passes its check. -/
def checkedAnchors : Option (Nat × List BankRec) → List (Nat × Nat × Nat)
  | some (_, l) => anchorsOf l
  | none => []

/-- The anchors that bank 10 holds. -/
def bankAnchors (s : State) : List (Nat × Nat × Nat) := checkedAnchors (bankRead s 10)

/-- The role of a compartment among anchors. -/
def roleIn (cid : Nat) (l : List (Nat × Nat × Nat)) : Nat :=
  match l.find? (fun e => e.1 == cid) with
  | some e => e.2.1
  | none => 0

/-- The role recorded for a compartment at the last commit. -/
def anchorRole (s : State) (cid : Nat) : Nat := roleIn cid (bankAnchors s)

end Sys2Proof.Machine
end

