-- ==== Sys2Proof/Machine/CtlRead.lean ====
section
/-! DEFINITION. Reads of physical addresses: control-space words, with the live fields of the cells, and
the bytes of memory, boot ROM and host memory. -/

namespace Sys2Proof.Machine

/-- A thread slot's words (R220). -/
def slotWordRead (c : Cell) (n off : Nat) : W :=
  let t := slotOf c n
  match off with
  | 0x00 => wd (t.state + t.prio * 2 ^ 8
      + (match t.bank with | some b => 2 ^ 16 + b * 2 ^ 17 | none => 0))
  | 0x08 => wd t.quantum
  | 0x18 => wd t.sres
  | 0x20 =>
    let d := match t.bank with | some b => (bankOf c b).dirty | none => 0
    wd ((t.wmask ||| d).toNat + d.toNat * 2 ^ 8)
  | 0x28 => wd t.runcyc
  | 0x30 => wd ((if t.state = 3 then t.waitq else 0) + t.nobank * 2 ^ 32)
  | 0x38 => wd t.tid
  | _ => 0

/-- cctl (R219): run, vtm and stopped; stopped is set when the stop flush has ended (R217). -/
def cctlWord (c : Cell) : W :=
  wd (b2n c.runBit + b2n c.vtm * 2 + b2n (c.stopped && !c.flush) * 8)

/-- A word of a core's control block (R218). -/
def cellWordRead (s : State) (n off : Nat) : W :=
  let c := cellOf s n
  if 0x1000 ≤ off ∧ off < 0x2000 then slotWordRead c ((off - 0x1000) / 64) ((off - 0x1000) % 64)
  else if 0x400 ≤ off ∧ off < 0x800 then
    let i := (off - 0x400) / 8
    wd (regF s (ctlBase n + off) 2 0 + b2n (c.ipend.getLsbD i) * 8)
  else match off with
    | 0x0008 => cctlWord c
    | 0x0018 => wd (b2n c.entry.tag + b2n c.entRef * 2)
    | 0x00C0 => wd (c.lse.length + c.lseDrop * 2 ^ 16)
    | 0x0110 => wd (b2n c.bkBusy.isSome + b2n c.bkRef * 2)
    | _ => reg s (ctlBase n + off)

/-- The fields of the time part that move with other state (R378, R405). -/
def timeWordRead (s : State) (off : Nat) : W :=
  let w := reg s (partTime + off)
  let sec := s.time.now / tSec
  match off with
  | 0x000 => setFld (setFld (setFld w 2 0 s.time.state) 3 3 (b2n (tlock s))) 15 8 (utcOffset s sec)
  | 0x010 => wd s.time.inc
  | 0x060 => wd (sec % 2 ^ 48)
  | 0x500010 => wd (toutLevel s)
  | 0x500018 => wd (toutHold s)
  | _ => w

/-- A block's output current (R527): nothing while the block is off; what an event has just measured; otherwise a measurement,
which is a free value. -/
def imonNow (s : State) (b : Nat) : Nat :=
  let free := (Config.measured (blockBase b + 0x1010) s.time.dur).toNat % 2 ^ 16
  if regF s (blockBase b + 0x1008) 5 4 = 3 then 0
  else match (tblGet {} s.blks b).imon with
    | some (t, v) => if t = s.time.dur then v else free
    | none => free

/-- The word at a control-space address, as a read finds it. -/
def ctlWordRead (s : State) (a : Nat) : W :=
  match gateAt a with
  | some _ => gateReg s a
  | none =>
    match controlPart a with
    | some 5 => cellWordRead s ((a - partCell) / 0x10000) (a % 0x10000)
    | some 6 => timeWordRead s (a - partTime)
    | some 4 =>
      if (a - partBlock) % 0x100000 = 0x1010 then setFld (reg s a) 15 0 (imonNow s ((a - partBlock) / 0x100000)) else reg s a
    | some 3 =>
      if (a - partRegion) % 0x1000000 = 0xE00008 then qStatusWord s ((a - partRegion) / 0x1000000) else reg s a
    | _ => reg s a

/-- The byte at a physical address. -/
def physByte (s : State) (a : Nat) : Byte :=
  if partSec ≤ a ∧ a < partSec + 0x40000 then Config.bootRom (a - partSec)
  else if partSec + 0x40000 ≤ a ∧ a < partSec + 0x42000 then otpWindow s (a - partSec - 0x40000)
  else if 0x8000000000 ≤ a ∧ a < 0xC000000000 then Config.hostByte s.fresh (a - 0x8000000000)
  else if inControl a && !anyWidth a then
    BitVec.ofNat 8 ((ctlWordRead s (a / 8 * 8)).toNat / 2 ^ (8 * (a % 8)))
  else if bankAt 14 ≤ a ∧ a < bankAt 15 then (tailImage s).getD (a - bankAt 14) 0
  else memGet s.mem a

/-- What a read of a control-space word does beside giving its value: a read of nows latches nown and nowf
(R405). -/
def readEffect (a : Nat) (s : State) : State :=
  if a = partTime + 0x60 then
    setReg (partTime + 0x68) (wd (s.time.now % tSec / 2 ^ 32 + s.time.now % 2 ^ 32 / 2 ^ 16 * 2 ^ 32)) s
  else s

/-- Bytes from a physical address. -/
def physRead (s : State) : Nat → Nat → List Byte
  | _, 0 => []
  | a, n + 1 => physByte s a :: physRead s (a + 1) n

/-- A little-endian number read at a physical address. -/
def physNat (s : State) (a n : Nat) : Nat := leNat (physRead s a n)

/-- A granule that has a tag: the control space and host memory hold none (R71, R79). -/
def taggable (a : Nat) : Bool := !inControl a && decide (a < 0x8000000000)

/-- The tag that a read of a granule finds. -/
def physTag (s : State) (a : Nat) : Bool := memTag s a && taggable a

/-- The capability in a granule. -/
def physCap (s : State) (a : Nat) : Cap := capOfBytes (physRead s a 16) (physTag s a)

/-- A checked read under an initiator: the bytes, or the denial. -/
def reqRead (s : State) (init a n : Nat) : Except Deny (List Byte) :=
  match gateCheck s init a n .read with
  | .ok _ => .ok (physRead s a n)
  | .error d => .error d

/-- The first denial among the lines that `n` bytes from `a` touch (R258): a request never crosses a
64-byte line. `k` bounds the number of lines. -/
def linesCheck (s : State) (init : Nat) (rq : Rq) : Nat → Nat → Nat → Option (Deny × Nat)
  | 0, _, _ => none
  | k + 1, a, n =>
    if n = 0 then none
    else
      let m := min n (64 - a % 64)
      match gateCheck s init a m rq with
      | .error d => some (d, a)
      | .ok _ => linesCheck s init rq k (a + m) (n - m)

/-- The check of all the requests that an access of `n` bytes makes. -/
def rangeCheck (s : State) (init a n : Nat) (rq : Rq) : Option (Deny × Nat) :=
  linesCheck s init rq (n / 64 + 2) a n

end Sys2Proof.Machine
end

