-- ==== Sys2Proof/Machine/Errors.lean ====
section
/-! DEFINITION. The caches (R276, R277), the paths of the fabric while a link retrains (R24, R290), and what the levels
record of memory errors (R288, R294). -/

namespace Sys2Proof.Machine

/-! Data caches and cache ways (R277). -/

/-- Lines of a data cache, and of a way of a block store. -/
def dCap : Nat := 512
def wayCap : Nat := 8192

/-- The address lies in DDR4 or in a region store, which cache ways may hold lines of. -/
def homeAtHub (a : Nat) : Bool :=
  (decide (0x48000000 ≤ a) && decide (a < 0x4A000000)) || (decide (0x1000000000 ≤ a) && decide (a < 0x5000000000))

/-- A line at this address may be held in a cache, by the attributes that its gate answers (R262, R277). -/
def cacheable (s : State) (a : Nat) : Bool :=
  (homeAtHub a || (decide (0x44000000 ≤ a) && decide (a < 0x48000000)))
    && (match targetOf s a with
      | .gate _ => decide (fld (attrOf s a) 7 6 ≤ 1) && fld (attrOf s a) 9 8 != 2
      | _ => false)

/-- A line at this address is written through (R262). -/
def writeThrough (s : State) (a : Nat) : Bool := fld (attrOf s a) 7 6 == 1

def dLines (s : State) (core : Nat) : List CLine := tblGet [] s.caches.d core
def wLines (s : State) (b : Nat) : List (Nat × CLine) := tblGet [] s.caches.w b

def setD (core : Nat) (l : List CLine) (s : State) : State :=
  { s with caches := { s.caches with d := tblSet core l s.caches.d } }
def setWays (b : Nat) (l : List (Nat × CLine)) (s : State) : State :=
  { s with caches := { s.caches with w := tblSet b l s.caches.w } }

/-- The lines that a range touches. -/
def linesOf (a n : Nat) : List Nat :=
  if n = 0 then [] else (List.range ((a + n - 1) / 64 + 1 - a / 64)).map (fun i => a / 64 + i)

/-- Every line of a range is in a core's data cache. -/
def dHit (s : State) (core a n : Nat) : Bool :=
  (linesOf a n).all (fun l => (dLines s core).any (fun c => c.line == l))

/-- The ways of a block that serve as cache (R284, R285). -/
def cacheWays (s : State) (b : Nat) : List Nat :=
  (List.range 8).filter (fun w => !bit (reg s (blockBase b + 0x8)) w && !bit (reg s (blockBase b + 0x10)) w)

/-- A clean line as it is taken into a cache. -/
def cleanLine (s : State) (l : Nat) : CLine :=
  { line := l, wt := writeThrough s (l * 64), dirty := false, home := [], tags := [] }

/-- A line taken into a core's data cache as the most recently used; the least recently used leaves a full cache
(DESIGN CHOICE, log entry 58: the spec gives no placement and no replacement). -/
def dAlloc (core l : Nat) (s : State) : State :=
  let old := dLines s core
  let c := (old.find? (fun x => x.line == l)).getD (cleanLine s l)
  setD core ((c :: old.filter (fun x => x.line != l)).take dCap) s

/-- A line taken into a cache way of a block (log entry 58). -/
def wAlloc (b l : Nat) (s : State) : State :=
  match cacheWays s b with
  | [] => s
  | w :: ws =>
    let way := (w :: ws).getD (l % (ws.length + 1)) w
    let old := wLines s b
    let c := (old.find? (fun x => x.2.line == l)).getD (way, cleanLine s l)
    let rest := old.filter (fun x => x.2.line != l)
    let same := (rest.filter (fun x => x.1 == c.1)).take (wayCap - 1)
    setWays b (c :: rest.filter (fun x => x.1 != c.1 || same.contains x)) s

/-- A line that a load or a prefetch of a core has read is held where its attributes allow it (R277). -/
def lineFill (core l : Nat) (s : State) : State :=
  if !cacheable s (l * 64) || !decide (core < 256) then s
  else
    let s := if homeAtHub (l * 64) then wAlloc (core / 16) l s else s
    dAlloc core l s

def linesFill (core : Nat) (ps : List (Nat × Nat)) (s : State) : State :=
  (ps.flatMap (fun p => linesOf p.1 p.2)).foldl (fun s l => lineFill core l s) s

/-- Lines of an instruction cache (R17). -/
def iCap : Nat := 512
def iLines (s : State) (core : Nat) : List Nat := tblGet [] s.caches.i core

/-- A fetch at an address finds its line in the core's instruction cache (R176). -/
def iHit (s : State) (core a : Nat) : Bool := (iLines s core).contains (a / 64)

/-- The line of a fetch taken into the instruction cache as the most recently used, where its attributes allow it (R276,
R277; log entry 58). -/
def iFill (core a : Nat) (s : State) : State :=
  if !cacheable s a || !decide (core < 256) then s
  else { s with caches := { s.caches with
    i := tblSet core (((a / 64) :: (iLines s core).filter (fun l => l != a / 64)).take iCap) s.caches.i } }

/-- A line made dirty by a store: from then on its home holds the bytes and tags from before the first store. -/
def dirtied (s : State) (c : CLine) : CLine :=
  if c.dirty then c
  else { c with dirty := true, home := memRead s.mem (c.line * 64) 64,
                tags := s.tags.filter (fun g => g / 4 == c.line) }

/-- A write of a core that may find its line in a cache (R277): a write-back line of its data cache, or of a cache way of
its block, is dirtied and stays; in every other case the write goes to the home and no cache keeps the line. `f` is the
write at the home. -/
def cachedWrite (core a : Nat) (f : State → State) (s : State) : State :=
  let l := a / 64
  match (dLines s core).find? (fun c => c.line == l && !c.wt) with
  | some c =>
    let t := f s
    setD core (dirtied s c :: (dLines t core).filter (fun x => x.line != l)) t
  | none =>
    match (wLines s (core / 16)).find? (fun c => c.2.line == l && !c.2.wt && decide (core < 256)) with
    | some c =>
      let t := f s
      setWays (core / 16) ((c.1, dirtied s c.2) :: (wLines t (core / 16)).filter (fun x => x.2.line != l)) t
    | none => f s

/-- A dirty line lost without a write-back: its home's bytes and tags are what is left (R531). -/
def lineLost (c : CLine) (s : State) : State :=
  if !c.dirty then s
  else
    let t := memStore (c.line * 64) c.home s
    { t with tags := c.tags.foldl (fun t g => tagPut g true t) t.tags }

/-- The data and instruction caches of a block's cells and the block's cache ways emptied; with `discard` the dirty lines are lost, and
otherwise they are written back (R285, R531). -/
def blockCachesEmpty (discard : Bool) (b : Nat) (s : State) : State :=
  let cores := (List.range 16).map (fun i => b * 16 + i)
  let ls := (cores.flatMap (dLines s)) ++ (wLines s b).map (fun x => x.2)
  let s := if discard then ls.foldl (fun s c => lineLost c s) s else s
  { s with caches := { s.caches with d := s.caches.d.filter (fun e => e.1 / 16 != b || decide (256 ≤ e.1)),
                                     i := s.caches.i.filter (fun e => e.1 / 16 != b || decide (256 ≤ e.1)),
                                     w := tblDel b s.caches.w } }

/-- The lines of one way written back and gone (R285). -/
def wayEmpty (b w : Nat) (s : State) : State := setWays b ((wLines s b).filter (fun x => x.1 != w)) s

/-! Paths (R22 to R24, R46). -/

/-- Where an initiator or a target stands: a region and, in it, a block; no region is the port hub. -/
structure Site where
  region : Option Nat
  block  : Option Nat
  deriving DecidableEq, Repr

/-- The place of an initiator (R46). -/
def initSite (i : Nat) : Site :=
  if i < 256 then ⟨some (i / 64), some (i / 16)⟩
  else if i < 0x104 then ⟨some (i - 0x100), none⟩
  else if 0x130 ≤ i ∧ i < 0x138 then ⟨some ((i - 0x130) / 2), none⟩
  else ⟨none, none⟩

/-- The place of a target (R35, R36): the SHA-256 engines of the hubs lie in their regions (R26, R567). The spec gives the
other units of the chip no link: their requests pass the port hub, behind each region's link to it (DESIGN CHOICE, log
entry 105). -/
def addrSite (s : State) (a : Nat) : Site :=
  if a < 0x44000000 then ⟨some ((a - 0x40000000) / 0x20000 / 64), some ((a - 0x40000000) / 0x20000 / 16)⟩
  else if a < 0x48000000 then ⟨some ((a - 0x44000000) / 0x400000 / 4), some ((a - 0x44000000) / 0x400000)⟩
  else if a < 0x4A000000 then ⟨some ((a - 0x48000000) / 0x800000), none⟩
  else if 0x1000000000 ≤ a ∧ a < 0x5000000000 then ⟨some (ddrChannel s a), none⟩
  else if 0x60104000 ≤ a ∧ a < 0x60110000 then ⟨some ((a - 0x60104000) / 0x3000), none⟩
  else match controlPart a with
    | some 3 => ⟨some ((a - partRegion) / 0x1000000), none⟩
    | some 4 => ⟨some ((a - partBlock) / 0x400000), some ((a - partBlock) / 0x100000)⟩
    | some 5 => ⟨some ((a - partCell) / 0x400000), some ((a - partCell) / 0x100000)⟩
    | _ => ⟨none, none⟩

/-- The link between two regions, 20 to 25 in the order 0-1, 0-2, 0-3, 1-2, 1-3, 2-3. -/
def regionLink (a b : Nat) : Nat :=
  let i := min a b
  let j := max a b
  if i = 0 then 19 + j else if i = 1 then 21 + j else 25

/-- The links that a transfer between two places takes (R22 to R24). -/
def pathLinks (a b : Site) : List Nat :=
  (if a.block = b.block then []
   else (match a.block with | some x => [x] | none => []) ++ (match b.block with | some x => [x] | none => []))
  ++ (match a.region, b.region with
    | some x, some y => if x = y then [] else [regionLink x y]
    | some x, none => [16 + x]
    | none, some y => [16 + y]
    | none, none => [])

/-- A transfer waits while a link of its path retrains (R24, R290). -/
def pathWaits (s : State) (a b : Site) : Bool :=
  (pathLinks a b).any (fun l => (tblGet {} s.links l).training.isSome)

/-- A core's block is in service, and its region (R43, R288). -/
def coreInService (s : State) (core : Nat) : Bool :=
  !regionOut s (regionOf core) && !(decide (core < 256) && s.offline.contains (core / 16))

/-- The IDs that requests carry (R46); a request never carries another (R47). -/
def issuedId (i : Nat) : Bool :=
  decide (i < 0x104) || (decide (0x110 ≤ i) && decide (i < 0x125)) || (decide (0x130 ≤ i) && decide (i < 0x138))
  || i == 0x140 || i == 0x141 || i == 0x3FF

/-- An initiator that can send requests: a unit of the chip, and in service when it is a core (R43, R47). -/
def initLive (s : State) (i : Nat) : Bool := issuedId i && (!isCore i || coreInService s i)

/-- A request of a region comes in turn at the trip unit: within a timebase cycle none of a lower region follows one of a
higher (R372; DESIGN CHOICE, log entry 70). -/
def tripTurn (s : State) (region : Nat) : Bool :=
  match s.trip.turn with
  | some (t, r) => decide (t ≠ s.time.dur) || decide (r ≤ region)
  | none => true

/-- A read of the trip unit's tables would wait, for a link or at a gate: of the channels that hold them (R24, R265). -/
def tripTablesWait (s : State) : Bool :=
  let bases := [regF s tripBlock 47 20 * 2 ^ 20, regF s (tripBlock + 8) 47 21 * 2 ^ 21]
  let pages := fun (a : Nat) => if a = 0 then [] else if s.striped then (List.range 4).map (fun i => a + 0x1000 * i) else [a]
  (bases.flatMap pages).any (fun a => pathWaits s ⟨none, none⟩ (addrSite s a) || gateHolds s a)

/-- A command of a region's initiator to the trip unit that is not in turn, or any command while the reads that it asks for
would wait (R24, R372). -/
def tripHolds (s : State) (init a : Nat) : Bool :=
  a == tripBlock + 0x10 && (tripTablesWait s || (match (initSite init).region with
    | some r => !tripTurn s r
    | none => false))

/-- A request of an initiator to an address waits: for a link that retrains, at its gate, or for its turn at the trip
unit; and a core that is out of service sends none (R24, R43, R265, R372). -/
def reqWaits (s : State) (init a : Nat) : Bool :=
  (isCore init && !coreInService s init) || pathWaits s (initSite init) (addrSite s a) || gateHolds s a
  || tripHolds s init a

/-- The command in progress meets, in a unit of the chip, a request that must wait: it is left undone, and comes again once
the request can go (R24, R265). -/
def waitUp (s : State) : State := { s with waits := true }
def orWaits (f : State → State) (s : State) : State :=
  let t := f { s with waits := false }
  if t.waits then s else t

/-- The command in progress meets a request that must wait: it is left undone (`orWait`). -/
def holdUp (core : Nat) (s : State) : State := modCell core (fun c => { c with heldUp := true }) s

/-- A command that has met a request that must wait is left undone: it comes again once the request can go (R24,
R265). -/
def orWait (core : Nat) (s t : State) : State := if (cellOf t core).heldUp then s else t

/-! Writes of memory by physical address. -/

/-- Bytes written to memory, and with them the tags (R77): the boot ROM and the OTP window are read-only (R37,
R553), the event tail's bank is kept beside the memory (R475, R493), and a write through the outbound window leaves the module
(R589). -/
def physStore (a : Nat) (bs : List Byte) (s : State) : State :=
  if partSec ≤ a ∧ a < partSec + 0x42000 then s
  else if bankAt 14 ≤ a ∧ a < bankAt 15 then tailStore a bs s
  else if 0x8000000000 ≤ a ∧ a < 0xC000000000 then
    { s with tx := .outbound ((reg s (partPcie + 0x10)).toNat + (a - 0x8000000000)) bs :: s.tx }
  else memStore a bs s

/-- A granule written with its tag (R51, R75), where it has one. -/
def physStoreCap (a : Nat) (bs : List Byte) (tag : Bool) (s : State) : State :=
  if taggable a then memStoreCap a bs tag s else physStore a bs s

/-! Memory errors (R74, R141, R214, R288). -/

/-- A line's home holds a poison code. -/
def poisoned (s : State) (pa : Nat) : Bool := s.caches.poison.contains (pa / 64)

/-- A line lies in a cache way of an initiator's block. -/
def inOwnWay (s : State) (init pa : Nat) : Bool :=
  decide (init < 256) && (wLines s (init / 16)).any (fun l => l.2.line == pa / 64)

/-- The MCHK source and the level's record of a physical address that an initiator accesses, with its corrected and
uncorrectable event codes (R214, R288, R294): the block store's for a line in a cache way of its block. A poisoned line, and
a transfer from outside the stores, is src 0x6. -/
def errPlace (s : State) (init pa : Nat) : Nat × Option (Rec × Nat × Nat) :=
  if poisoned s pa then (6, none)
  else if inOwnWay s init pa then (2, some (.block (init / 16), 0x10, 0x11))
  else if pa < 0x44000000 then (1, some (.cell ((pa - 0x40000000) / 0x20000), 0x01, 0x02))
  else if pa < 0x48000000 then (2, some (.block ((pa - 0x44000000) / 0x400000), 0x10, 0x11))
  else if pa < 0x60000000 then (3, some (.region ((pa - 0x48000000) / 0x800000), 0x25, 0x26))
  else if 0x1000000000 ≤ pa ∧ pa < 0x5000000000 then (4, some (.region (ddrChannel s pa), 0x22, 0x23))
  else (6, none)

/-- An interrupt source raised at a cell (R216): its pend bit is set, and a second raise merges. -/
def raiseIrq (core src : Nat) (s : State) : State :=
  modCell core (fun c => { c with ipend := c.ipend ||| BitVec.ofNat 128 (2 ^ src) }) s

/-- The detail field of a corrected error: the device number, 0 to 9, of a DDR4 correction, which a demand read does not
name here: a free value (R289, log entry 59). -/
def errDetail (s : State) (pa code : Nat) : Nat := if code = 0x22 then Config.ddrDevice s.fresh pa % 10 else 0

/-- A corrected error counted (R141, R288); at ecthr corrections of the cell store source 3 is raised
(R215). -/
def correctedAt (init pa : Nat) (s : State) : State :=
  match (errPlace s init pa).2 with
  | none => s
  | some (r, code, _) =>
    let s := recCe r (errEvent r code init (errDetail s pa code) pa { s with fresh := s.fresh + 1 })
    match r with
    | .cell n =>
      let thr := regF s (ctlBase n + 0x90) 15 0
      if thr ≠ 0 ∧ regF s (recAddr (.cell n)) 31 0 = thr then raiseIrq n 3 s else s
    | _ => s

/-- The block whose cache way holds a line dirty. -/
def dirtyWay (s : State) (pa : Nat) : Option Nat :=
  (s.caches.w.find? (fun e => e.2.any (fun l => l.2.line == pa / 64 && l.2.dirty))).map (fun e => e.1)

/-- An uncorrectable error counted (R288). In a dirty line of a cache way, the line is written to its home with a poison
code, event 0x13. -/
def uncorrectableAt (init pa : Nat) (s : State) : State :=
  match dirtyWay s pa with
  | some b =>
    let s := setWays b ((wLines s b).filter (fun x => x.2.line != pa / 64)) s
    let s := { s with caches := { s.caches with poison := (pa / 64) :: s.caches.poison } }
    recUe (.block b) (errEvent (.block b) 0x13 init 0 pa s)
  | none =>
    match (errPlace s init pa).2 with
    | none => s
    | some (r, _, code) => recUe r (errEvent r code init 0 pa s)

/-- How a request to an address ends: a poisoned line never yields data (R288). -/
def retAt (s : State) (pa : Nat) (r : Ret) : Ret := if poisoned s pa && r != .pathFail then .uncorrectable else r

/-- The requests of an access to `n` bytes at `a`: pieces within 64-byte lines (R258). -/
def linePieces : Nat → Nat → Nat → List (Nat × Nat)
  | 0, _, _ => []
  | k + 1, a, n =>
    if n = 0 then []
    else
      let m := min n (64 - a % 64)
      (a, m) :: linePieces k (a + m) (n - m)

/-- The pages that a range meets, with the bytes of it in each: a gate answers alike within one (R261). -/
def pagePieces : Nat → Nat → Nat → List (Nat × Nat)
  | 0, _, _ => []
  | k + 1, a, n =>
    if n = 0 then []
    else
      let m := min n (4096 - a % 4096)
      (a, m) :: pagePieces k (a + m) (n - m)

/-- An access of a unit to a range waits in one of its pages (R24, R265). -/
def rangeWaits (s : State) (init a n : Nat) : Bool :=
  (pagePieces (n / 4096 + 2) a n).any (fun p => reqWaits s init p.1)

/-- The requests of an access to parts. -/
def partPieces (ps : List (Nat × Nat)) : List (Nat × Nat) := ps.flatMap (fun p => linePieces (p.2 / 64 + 2) p.1 p.2)

/-- The first request of a list that meets a line with a poison code, and the bytes before it; a write of a whole line
meets none (R288). -/
def piecesBad (s : State) (write : Bool) : Nat → List (Nat × Nat) → Option (Nat × Nat)
  | _, [] => none
  | off, (a, n) :: ps =>
    if poisoned s a && !(write && n == 64) then some (a, off) else piecesBad s write (off + n) ps

/-- How the requests of an access to parts end, and the address and offset of the one that fails: a line with a poison
code never yields data; of an outcome that befalls an access of several requests, the request is a free value (R214,
R288; log entry 59). -/
def partsRet (s : State) (write : Bool) (ps : List (Nat × Nat)) (r : Ret) : Ret × Nat × Nat :=
  let l := partPieces ps
  match piecesBad s write 0 l with
  | some x => if r = .pathFail then (r, x) else (.uncorrectable, x)
  | none =>
    let k := if l.length ≤ 1 then 0 else Config.badPiece s.fresh % l.length
    (r, (l.getD k (0, 0)).1, ((l.take k).map (fun p => p.2)).foldl (· + ·) 0)

/-- The part of a command in which the accesses of its units meet bus errors at the addresses `bad` (R362, R377, R388). -/
def withBusLost (bad : List Nat) (f : State → State) (s : State) : State :=
  { f { s with busLost := bad } with busLost := [] }

/-- An access of a unit of the chip to a range meets an error: a bus error among those that the command in progress brings,
or a line with a poison code, which never yields data and which only a write of the whole line replaces (R288). -/
def rangeErr (s : State) (write : Bool) (a n : Nat) : Bool :=
  s.busLost.any (fun x => decide (a ≤ x) && decide (x < a + n)) || (piecesBad s write 0 (partPieces [(a, n)])).isSome

/-- The part of a command in which a queue manager meets an error (R321). -/
def withQErr (e : QErr) (f : State → State) (s : State) : State := { f { s with qmet := e } with qmet := .none }

/-- The machine check of an access (R214). -/
def mchkFlt (s : State) (init : Nat) (va : W) (pa : Nat) (fetch : Bool) : Flt :=
  { code := causeMchk, faddr := va,
    finfo := wd ((errPlace s init pa).1 + b2n fetch * 2 ^ 8 + pa % 2 ^ 48 * 2 ^ 16) }

end Sys2Proof.Machine
end

