-- ==== Sys2Proof/Machine/Xlate.lean ====
section
/-! DEFINITION. Address translation (chapter 7): TLB, walk cache, walks and the checks of R240. -/

namespace Sys2Proof.Machine

/-- A translation fault: cause, reason, level and table of the entry concerned, key of the leaf, and the
denial of the last table read, if that is what failed (R240, R242). -/
structure XErr where
  cause  : Nat
  reason : Nat
  level  : Nat
  table  : Nat
  key    : Nat
  deny   : Option Deny
  deriving DecidableEq, Repr

/-- The acc code of an access (R242). -/
def accNum : Acc → Nat
  | .load => 0 | .store => 1 | .fetch => 2 | .capStore => 3

/-- finfo of a translation fault (R242). -/
def xFinfo (e : XErr) (part : Bool) (acc : Acc) (asid : Nat) : W :=
  wd (e.reason + e.level * 2 ^ 4 + b2n part * 2 ^ 7 + accNum acc * 2 ^ 8 + e.key * 2 ^ 10
    + asid * 2 ^ 16 + e.table / 0x1000 % 2 ^ 36 * 2 ^ 24)

/-- The translation fault of an access (R241). -/
def xFault (e : XErr) (part : Bool) (acc : Acc) (asid : Nat) (va : W) : Flt :=
  { code := e.cause, faddr := va, finfo := xFinfo e part acc asid }

/-- The address-space table's entry of a core's region (R230). -/
def asEntryAt (core asid : Nat) : Nat := 0x48000000 + regionOf core * 0x800000 + 8 * asid

/-- Levels of the tree that lv names (R230); 0 for the reserved code. -/
def treeLevels (e : W) : Nat :=
  match fld e 2 1 with
  | 0 => 3 | 1 => 4 | 2 => 5 | _ => 0

/-- The address-space entry is valid (R231). -/
def asValid (e : W) : Bool := bit e 0 && treeLevels e != 0 && fld e 23 3 == 0

/-- The virtual address is canonical for a tree of `n` levels (R234). -/
def canonical (va : W) (n : Nat) : Bool :=
  let top := va.toNat / 2 ^ (11 + 9 * n)
  top == 0 || top == 2 ^ (53 - 9 * n) - 1

/-- pa[47:12] of an entry, as an address. -/
def entryPa (e : W) : Nat := fld e 59 24 * 0x1000

/-- The size exponent of a leaf. -/
def leafSize (e : W) : Nat := fld e 14 9

/-- A malformed valid entry at a level (R236). -/
def malformed (e : W) (level : Nat) : Bool :=
  fld e 23 21 != 0 || (!bit e 1 && fld e 20 2 != 0) || (level == 0 && !bit e 1)

/-- A leaf whose size or alignment is not allowed at a level of a tree with root level `root` (R237). -/
def badLeaf (e : W) (level root : Nat) : Bool :=
  let k := 12 + 9 * level
  let s := leafSize e
  s < k || (if level = root then k + 9 else k + 8) < s || entryPa e % 2 ^ s != 0

/-- How the present table read of a walk ends, and what is left for the later ones: the error, if any, befalls the
read of the given number. -/
abbrev WalkBad := Option (Ret × Nat)
def WalkBad.here : WalkBad → Ret
  | some (r, 0) => r
  | _ => .ok
def WalkBad.next : WalkBad → WalkBad
  | some (r, k + 1) => some (r, k)
  | _ => none

/-- One 8-byte table read (R243), checks 3 to 5 of R240, that ends as `bad` says. -/
def tableRead (s : State) (core a level : Nat) (bad : WalkBad) : Except XErr W :=
  let t := a / 0x1000 * 0x1000
  let r := retAt s a bad.here
  match gateCheck s core a 8 .read with
  | .error d => .error ⟨causeWalkerr, 2, level, t, 0, some d⟩
  | .ok _ =>
    if r = .pathFail then .error ⟨causeWalkerr, 2, level, t, 0, none⟩
    else if ordOf s a = 2 then .error ⟨causeWalkdev, 1, level, t, 0, none⟩
    else if r = .uncorrectable then .error ⟨causeWalkerr, 1, level, t, 0, none⟩
    else .ok (wd (physNat s a 8))

/-- What a walk finds: the leaf, its level, the table that holds it, and the entries it passed, in order, which
the walk cache takes. -/
structure WalkOk where
  leaf  : W
  level : Nat
  table : Nat
  path  : List WcEntry
  deriving DecidableEq, Repr

/-- The walk from the table of a level down (R236, R237, R239): the addresses read, and what is found. -/
def walkDown (s : State) (core asid : Nat) (va : W) (root : Nat) :
    Nat → WalkBad → Nat → List WcEntry → List Nat × Except XErr WalkOk
  | level, bad, table, path =>
    let ea := table + 8 * (va.toNat / 2 ^ (12 + 9 * level) % 512)
    match tableRead s core ea level bad with
    | .error e => ([ea], .error e)
    | .ok e =>
      if !bit e 0 then ([ea], .error ⟨causePage, 2, level, table, 0, none⟩)
      else if malformed e level then ([ea], .error ⟨causePage, 3, level, table, 0, none⟩)
      else if bit e 1 then
        ([ea], if badLeaf e level root then .error ⟨causePage, 4, level, table, 0, none⟩
          else .ok ⟨e, level, table, path⟩)
      else match level with
        | 0 => ([ea], .error ⟨causePage, 3, level, table, 0, none⟩)
        | l + 1 =>
          let r := walkDown s core asid va root l bad.next (entryPa e)
            (path ++ [{ asid := asid, level := l + 1, vpre := va.toNat / 2 ^ (12 + 9 * (l + 1)),
                        entry := e }])
          (ea :: r.1, r.2)

/-- The walk cache's entry of a level for an address. -/
def wcFind (c : Cell) (asid level : Nat) (va : W) : Option WcEntry :=
  c.wc.find? (fun w => w.asid == asid && w.level == level
    && (level == 7 || w.vpre == va.toNat / 2 ^ (12 + 9 * level)))

/-- The deepest walk-cache hit below a root level: the level to go on from and the entry (R245). -/
def wcStart (c : Cell) (asid : Nat) (va : W) (root : Nat) : Option (Nat × WcEntry) :=
  ((List.range root).map (· + 1)).findSome? (fun l => (wcFind c asid l va).map (fun w => (l - 1, w)))

/-- A walk (R243): the address-space entry, read when the walk cache lacks it, the canonical check, then the tree from
the deepest hit. The addresses read, and what is found. -/
def walk (s : State) (core asid : Nat) (va : W) (bad : WalkBad) : List Nat × Except XErr WalkOk :=
  let c := cellOf s core
  let at7 := asEntryAt core asid
  let as : List Nat × WalkBad × Except XErr W := match wcFind c asid 7 va with
    | some w => ([], bad, .ok w.entry)
    | none => ([at7], bad.next, tableRead s core at7 7 bad)
  match as with
  | (rs, _, .error e) => (rs, .error e)
  | (rs, bad, .ok e) =>
    let n := treeLevels e
    if n != 0 && !canonical va n then (rs, .error ⟨causePage, 1, 0, 0, 0, none⟩)
    else if !asValid e then (rs, .error ⟨causePage, 8, 7, at7 / 0x1000 * 0x1000, 0, none⟩)
    else
      let p := [({ asid := asid, level := 7, vpre := 0, entry := e } : WcEntry)]
      let r := match wcStart c asid va (n - 1) with
        | some (l, w) => walkDown s core asid va (n - 1) l bad (entryPa w.entry) (p ++ [w])
        | none => walkDown s core asid va (n - 1) (n - 1) bad (entryPa e) p
      (rs ++ r.1, r.2)

/-- The entries that a walk used, in order, made the most recently used of the walk cache; 32 are kept (R245). -/
def wcFill (used : List WcEntry) (old : List WcEntry) : List WcEntry :=
  let same := fun (a b : WcEntry) => a.asid == b.asid && a.level == b.level && a.vpre == b.vpre
  (used.reverse ++ old.filter (fun o => !used.any (same o))).take 32

/-- A leaf taken into the TLB, most recently used first, 64 kept (R245). -/
def tlbFill (e : TlbEntry) (old : List TlbEntry) : List TlbEntry := (e :: old).take 64

/-- The TLB entry that a walk's leaf makes for an address (R239). -/
def tlbEntryOf (asid : Nat) (va : W) (w : WalkOk) : TlbEntry :=
  let sz := leafSize w.leaf
  { asid := asid, glob := bit w.leaf 7, vbase := va.toNat / 2 ^ sz * 2 ^ sz, size := sz,
    entry := w.leaf, level := w.level }

/-- A TLB entry covers an address in an address space (R239, R245). -/
def tlbHit (asid : Nat) (va : W) (t : TlbEntry) : Bool :=
  (t.glob || t.asid == asid) && decide (t.vbase ≤ va.toNat)
    && decide (va.toNat < t.vbase + 2 ^ t.size)

/-- The rights of a key in a bank (R249). -/
def keyRights (k : Bank) (key : Nat) : Nat :=
  if key < 32 then k.krrl.toNat / 2 ^ (2 * key) % 4 else k.krrh.toNat / 2 ^ (2 * (key - 32)) % 4

/-- The key refuses an access (R249). -/
def keyDenies (rights : Nat) : Acc → Bool
  | .load => rights == 3
  | .fetch => decide (2 ≤ rights)
  | .store => rights != 0
  | .capStore => rights != 0

/-- The page right an access needs (R240, check 10). -/
def pageRight (e : W) : Acc → Bool
  | .load => bit e 2
  | .fetch => bit e 4
  | .store => bit e 3
  | .capStore => bit e 3

def accIsStore : Acc → Bool
  | .store => true
  | .capStore => true
  | _ => false

/-- The physical address of a leaf (R238). -/
def leafPa (e : W) (va : W) : Nat := entryPa e + va.toNat % 2 ^ leafSize e

/-- Checks 10 to 14 of R240 on a leaf; `keys` is the bank whose key rights apply, if any (R241). -/
def leafCheck (e : W) (level table : Nat) (va : W) (acc : Acc) (keys : Option Bank) : Option XErr :=
  let key := fld e 20 15
  if !pageRight e acc then some ⟨causePage, 5, level, table, 0, none⟩
  else if acc = .capStore ∧ !bit e 8 then some ⟨causePage, 6, level, table, 0, none⟩
  else match keys with
    | some k =>
      if keyDenies (keyRights k key) acc then
        some ⟨causePkey, keyRights k key, level, table, key, none⟩
      else if accIsStore acc && !bit e 6 then some ⟨causeAdtrap, 2, level, table, 0, none⟩
      else if 2 ^ 48 ≤ leafPa e va then some ⟨causePage, 7, level, table, 0, none⟩ else none
    | none =>
      if accIsStore acc && !bit e 6 then some ⟨causeAdtrap, 2, level, table, 0, none⟩
      else if 2 ^ 48 ≤ leafPa e va then some ⟨causePage, 7, level, table, 0, none⟩ else none

/-- A translation's outcome: the physical address and whether tags may pass (capok), or the fault. -/
abbrev XRes := Except XErr (Nat × Bool)

/-- The error that the walk of an address meets, as TRANSLATION_WALK announced it (R243, R244). -/
def walkBadOf (c : Cell) (va : W) : WalkBad :=
  match c.walkBad with
  | some (a, r, i) => if a = va then some (r, i) else none
  | none => none

/-- The region in whose record a table read's error is counted: where the table lies (R244, R288). -/
def walkErrRegion (s : State) (core a : Nat) : Nat :=
  match (errPlace s core a).2, (addrSite s a).region with
  | some (.region r, _), _ => r
  | _, some r => r
  | _, none => regionOf core

/-- What the errors of a walk's reads leave in the records (R244, R271, R288): a denied read is a gate event, an
uncorrectable error of the last read is counted as event 0x27, and a corrected one as any. -/
def walkErrors (core : Nat) (reads : List Nat) (bad : WalkBad) (res : Except XErr WalkOk) (s : State) : State :=
  let last := reads.getLast?.getD 0
  let s := match bad with
    | some (.corrected, i) => (match reads[i]? with | some a => correctedAt core a s | none => s)
    | _ => s
  match res with
  | .error e =>
    (match e.deny with
     | some d => gateEvent core last .read d s
     | none =>
       if e.cause = causeWalkerr ∧ e.reason = 1 then
         let r := Rec.region (walkErrRegion s core last)
         recUe r (errEvent r 0x27 core 0 last s)
       else s)
  | .ok _ => s

/-- The result of the checks on a walked leaf. A leaf with a = 0 is not cached (R247). A walk one of whose reads must
wait holds up the command that made it (R24, R265); the time of any other is part of the stall of its access (R243). Level and table are 0 in finfo for reason 0x1 of PAGE alone (R242;
DEDUCED, log entry 123). -/
def xWalked (s : State) (core asid : Nat) (va : W) (acc : Acc) (keys : Option Bank)
    (fillD0 : Bool) : State × XRes :=
  let bad := walkBadOf (cellOf s core) va
  let w := walk s core asid va bad
  if w.1.any (reqWaits s core) then (holdUp core s, .error ⟨causeWalkerr, 2, 0, 0, 0, none⟩)
  else
  let s := walkErrors core w.1 bad w.2 s
  let s := modCell core (fun c => { c with walked := true, walkBad := if bad.isSome then none else c.walkBad }) s
  match w.2 with
  | .error e => (s, .error e)
  | .ok w =>
    if !bit w.leaf 5 then (s, .error ⟨causeAdtrap, 1, w.level, w.table, 0, none⟩)
    else
      let s := if fillD0 || bit w.leaf 6 then
        modCell core (fun c => { c with tlb := tlbFill (tlbEntryOf asid va w) c.tlb,
                                         wc := wcFill w.path c.wc }) s
        else s
      match leafCheck w.leaf w.level w.table va acc keys with
      | some e => (s, .error e)
      | none => (s, .ok (leafPa w.leaf va, bit w.leaf 8))

/-- A translation whose walks no bundle waits for leaves no stall (R142, R161, R198). -/
def unstalled {α : Type} (core : Nat) (f : State → State × α) (s : State) : State × α :=
  let w := (cellOf s core).walked
  let r := f s
  if (cellOf r.1 core).walked = w then r else (modCell core (fun c => { c with walked := w }) r.1, r.2)

/-- The translation of one access part (R228, R229, R240, R245, R247): the TLB and walk cache follow it.
Only cells translate; a hub core is always in bare mode (R22, R232). A hit serves also an address that the level-0 check would
refuse (R234, R240; DEDUCED, log entry 122). -/
def xlate (core asid : Nat) (va : W) (acc : Acc) (keys : Option Bank) (s : State) : State × XRes :=
  if asid = 0 ∨ 256 ≤ core then
    if 2 ^ 48 ≤ va.toNat then (s, .error ⟨causePage, 7, 0, 0, 0, none⟩) else (s, .ok (va.toNat, true))
  else
    let c := cellOf s core
    match c.tlb.filter (tlbHit asid va) with
    | [t] =>
      if accIsStore acc && !bit t.entry 6 then
        let s := modCell core (fun c => { c with tlb := c.tlb.erase t }) s
        xWalked s core asid va acc keys false
      else
        let s := modCell core (fun c => { c with tlb := t :: c.tlb.erase t }) s
        match leafCheck t.entry t.level 0 va acc keys with
        | some e => (s, .error e)
        | none => (s, .ok (leafPa t.entry va, bit t.entry 8))
    | _ =>
      let s := modCell core (fun c => { c with tlb := c.tlb.filter (fun t => !tlbHit asid va t) }) s
      xWalked s core asid va acc keys true

end Sys2Proof.Machine
end

