-- ==== Sys2Proof/Machine/Ops.lean ====
section
/-! DEFINITION. The named operations that every instruction of a core shares: results that become due,
the cell clock, raising and taking an exception, stopping, and the return from an exception. -/

namespace Sys2Proof.Machine

/-! The running bank. -/

/-- The level of the running bank (R189, R191). -/
def levelOf (c : Cell) : Nat := bankLevel c.run

def runBank (c : Cell) : Bank := bankOf c c.run

/-- The running bank changed. -/
def modRun (f : Bank → Bank) (c : Cell) : Cell := setBank c.run (f (runBank c)) c

/-- A core with a context to run: a level is active, or a thread is running (R191). -/
def hasContext (c : Cell) : Bool := decide (5 ≤ c.run) || c.cur.isSome

/-! Results that become due (R123, R124). -/

/-- An element written by a restore (R147): d, c or the low 10 bytes of an accumulator. -/
def elemWrite (k : Bank) (i : Nat) (bs : List Byte) (tag : Bool) : Bank :=
  if i < 32 then markDirty (groupOf i) (setX i (wd (leNat bs)) k)
  else if i < 48 then markDirty (groupOf i) (setC i (capOfBytes bs tag) k)
  else markDirty 6 (setA (i - 48) (BitVec.ofNat 80 (leNat (bs.take 10))) k)

/-- What an operation in flight writes in its bank (R89, R91). -/
def applyWr (w : Wr) (k : Bank) : Bank :=
  match w with
  | .ports l => markDirty 7 (l.foldl (fun k e => setX e.1 e.2 k) k)
  | .cport p v => markDirty 7 (setC p v k)
  | .acc op sel o t => accWrite op sel o t k
  | .elem i bs tag => elemWrite k i bs tag

/-- Operations in flight that are due by cycle `n` write their results, in trigger order. -/
def flyRetire (n : Nat) (c : Cell) : Cell :=
  let due := c.fly.filter (fun f => decide (f.due ≤ n))
  let c := { c with fly := c.fly.filter (fun f => !decide (f.due ≤ n)) }
  due.foldl (fun c f => setBank f.bank (applyWr f.wr (bankOf c f.bank)) c) c

/-- A non-pipelined unit followed to cycle `n` (R133): the jobs that write, and the unit after them. The
oldest waiting trigger starts in the cycle after a write. -/
def npAdvance (n due : Nat) (j : NpJob) : List NpJob → List NpJob × NpUnit
  | [] => if due ≤ n then ([j], {}) else ([], { cur := some (due, j), wait := [] })
  | w :: ws =>
    if due ≤ n then
      let r := npAdvance n (due + w.lat) w ws
      (j :: r.1, r.2)
    else ([], { cur := some (due, j), wait := w :: ws })

def npRun (n : Nat) (u : NpUnit) : List NpJob × NpUnit :=
  match u.cur with
  | none => ([], u)
  | some (due, j) => npAdvance n due j u.wait

/-- A job's results written in its bank, together (R131, R161). -/
def npWrite (j : NpJob) (c : Cell) : Cell :=
  setBank j.bank (applyWr (.ports j.wr) (bankOf c j.bank)) c

/-- div and ph followed to cycle `n`. -/
def npRetire (n : Nat) (c : Cell) : Cell :=
  let d := npRun n c.div
  let p := npRun n c.ph
  let c := { c with div := d.2, ph := p.2 }
  (d.1 ++ p.1).foldl (fun c j => npWrite j c) c

/-- A trigger of a non-pipelined unit in cycle `n` (R132, R133). -/
def npTrigger (n : Nat) (job : NpJob) (u : NpUnit) : NpUnit :=
  match u.cur with
  | none => { cur := some (n + job.lat - 1, job), wait := [] }
  | some (due, j) =>
    if j.bank = job.bank then
      match u.wait with
      | [] => { cur := some (n + job.lat - 1, job), wait := [] }
      | w :: ws => { cur := some (n + w.lat, w), wait := ws ++ [job] }
    else if u.wait.any (fun w => w.bank == job.bank) then
      { cur := some (due, j), wait := u.wait.map (fun w => if w.bank = job.bank then job else w) }
    else { cur := some (due, j), wait := u.wait ++ [job] }

/-- The value of a load's bytes (R138). -/
def loadValue (signed : Bool) (bs : List Byte) : W :=
  let n := leNat bs
  let b := 8 * bs.length
  if signed && decide (2 ^ (b - 1) ≤ n) then BitVec.ofInt 64 ((n : Int) - 2 ^ b) else wd n

/-- A load writes mem.r or mem.rc in its bank (R140). -/
def loadWrite (l : PLoad) (bs : List Byte) (tag : Bool) (c : Cell) : Cell :=
  let w : Wr := if l.isCap then .cport 0x0C9 (capOfBytes bs (tag && l.keep))
    else .ports [(0x0C8, loadValue l.signed bs)]
  setBank l.bank (applyWr w (bankOf c l.bank)) c

/-- Loads whose data is present and which are due by cycle `n` write their results, in trigger order;
the first that is not ready holds the later ones back (R140). -/
def loadsRetire (n : Nat) : List PLoad → Cell → Cell
  | [], c => { c with loads := [] }
  | l :: ls, c =>
    match l.got with
    | some (bs, tag) =>
      if l.arr && decide (l.due ≤ n) then loadsRetire n ls (loadWrite l bs tag c)
      else { c with loads := l :: ls }
    | none => { c with loads := l :: ls }

/-- Loads that write from cycle `n` on, one a cycle in trigger order, none before it is due (R140). -/
def respace : Nat → List PLoad → List PLoad
  | _, [] => []
  | n, l :: ls => { l with due := max l.due n } :: respace (max l.due n + 1) ls

/-- The start of issue cycle `c.now`: everything written in earlier cycles is visible (R123, R178). -/
def startCycle (c : Cell) : Cell :=
  let n := c.now
  let c := if n = 0 then c else npRetire (n - 1) (flyRetire (n - 1) c)
  loadsRetire n c.loads c

/-- Cycles that pass for the running bank; wait cycles and stopped time are not counted (R177). The cycle count and
the address of the next bundle are registers of group S, which the passing of a bundle's cycle dirties (R193,
R194). -/
def passCycles (k : Nat) (c : Cell) : Cell :=
  let c := if c.waiting || c.stopped || !hasContext c then c
    else modRun (fun b => markDirty 7 { b with cyc := b.cyc + k }) c
  let c := match c.cur with
    | some t => if c.run ≤ 4 then
        let x := slotOf c t
        setSlot t { x with runcyc := x.runcyc + k, used := x.used + k } c else c
    | none => c
  { c with now := c.now + k }

/-- A memory stall of the running bank ends (R176), with the walks of its access (R243): its length is a free value, of one
cycle at least (log entry 56). -/
def stallPass (core : Nat) (s : State) : State :=
  let c := passCycles (1 + Config.stallCycles s.fresh) (cellOf s core)
  { setCell core { c with walked := false } s with fresh := s.fresh + 1 }

/-- The stall of an access that has walked, where nothing else of it stalls (R140, R243). -/
def walkPass (core : Nat) (s : State) : State := if (cellOf s core).walked then stallPass core s else s

/-- The stall that an access has gone through by the time its fault is known (R176, R177): its walks, or its way to the
gate that has denied it. -/
def faultPass (core : Nat) (f : Flt) (s : State) : State :=
  if f.code = causeGatedeny then stallPass core s else walkPass core s

/-- A load is due and its data is not present: no bundle issues, whichever bank the load belongs to (R140; DESIGN CHOICE, log
entry 99). -/
def loadStall (c : Cell) : Bool := c.loads.any (fun l => decide (l.due ≤ c.now) && !l.arr)

/-! A thread's slot (R195, R201). -/

/-- A slot as it stands free (R201, R220). -/
def slotFreed (t : ThSlot) : ThSlot :=
  { t with state := 0, bank := none, clean := false, resume := none, fin := none, want := none }

/-- A slot change asked for the running or interrupted thread takes effect (R201). -/
def applyWant (c : Cell) : Cell :=
  match c.cur with
  | none => c
  | some n =>
    let t := slotOf c n
    match t.want with
    | none => c
    | some 0 => setSlot n (slotFreed t) c
    | some v => setSlot n { t with state := v, want := none } c

/-- A slot's thread is the one that ran last (R196, R198). -/
def ranLast (n : Nat) (c : Cell) : Cell :=
  { setSlot n { slotOf c n with last := c.ticket } c with ticket := c.ticket + 1 }

/-- A bundle can issue (R174 to R176). -/
def canIssue (c : Cell) : Bool :=
  !c.stopped && !c.waiting && c.powered && decide (c.stall = .none) && c.trpHeld.isNone
    && c.after.isNone && c.away.isNone && c.restore.isNone && hasContext c && !loadStall c

/-! Exceptions (R205 to R210). -/

/-- No interrupt point lies before the next bundle of a bank: delay bundles are still to execute (R111), a br.t.repn is
under way (R113), or the first repetition of a br.t.rep is the next bundle: R187 gives a point only before the other
repetitions, and a fetch stall of the first one is held to it (R176; DEDUCED, log entry 119). -/
def inSequence (k : Bank) : Bool := decide (0 < k.dly) || (k.ract && (k.rnint || k.rpre))

/-- Switch cycles of a change of bank (R188): six from the last bundle before it to the first after it, the first of
them that bundle's own (DESIGN CHOICE: a typical figure taken as a count, log entry 50). -/
def switchCycles : Nat := 5

/-- The capability that execution starts at for a cause: ENTRY, or the vector-table granule (R208,
R209), whose read ends as `r` says. `none` when the entry fails. -/
def entryTarget (core code : Nat) (s : State) (r : Ret := .ok) : State × Option Cap :=
  let c := cellOf s core
  let ok := fun (p : Cap) => if (jumpCheck p).isNone then some (capUnsealed p) else none
  if c.vtm then
    let a := (reg s (ctlBase core + 0x20)).toNat / 0x1000 * 0x1000 + 16 * code
    match gateCheck s core a 16 .read with
    | .ok _ =>
      match retAt s a r with
      | .uncorrectable => (uncorrectableAt core a s, none)
      | .pathFail => (s, none)
      | .corrected => (correctedAt core a s, ok (physCap s a))
      | _ => (s, ok (physCap s a))
    | .error d => (gateEvent core a .read d s, none)
  else (s, ok c.entry)

/-- cause (R203). -/
def causeWord (c : Cell) (code : Nat) (esc : Bool) (orig : Nat) : W :=
  let l := levelOf c
  wd (code + b2n esc * 2 ^ 8 + orig * 2 ^ 9 + l * 2 ^ 12
    + (if l = 0 then c.cur.getD 0 * 2 ^ 16 else 0))

/-- Entry to level `d` (R208): the entered bank's cause, faddr, finfo and fpcc, and execution at the target. The interrupted
bank is not written; a change asked of the running thread takes effect (R201). With no thread and no level to interrupt, fpcc
is the null capability and cause.slot 0 (DESIGN CHOICE, log entry 51). -/
def enterBank (d : Nat) (f : Flt) (esc : Bool) (orig : Nat) (target : Cap) (c : Cell) : Cell :=
  let k := bankOf c (4 + d)
  let r := if hasContext c then (runBank c).pcc else Cap.null
  let k := { k with cause := causeWord c f.code esc orig, faddr := f.faddr, finfo := f.finfo,
                    fpcc := r, fpLim := if hasContext c then (runBank c).lim else none, fpccW := false,
                    pcc := target, lim := none, seqChk := 0 }
  { applyWant (setBank (4 + d) k c) with
                             run := 4 + d, waiting := false, stall := .none, stallPc := none,
                             held := none, away := none, walked := false,
                             now := c.now + switchCycles }

/-- An entry to level `d`, or its failure: the bank is poisoned, or the target cannot be entered
(R209, R214). -/
def tryEnter (core d : Nat) (f : Flt) (esc : Bool) (orig : Nat) (s : State) (r : Ret := .ok) : State × Bool :=
  if (bankOf (cellOf s core) (4 + d)).poison then (s, false)
  else match entryTarget core f.code s r with
    | (s, some p) => (modCell core (enterBank d f esc orig p) s, true)
    | (s, none) => (s, false)

/-- The stop of a core (R217): issue ends and the stop record is written; the flush of the thread banks
is still to come. `ev` is the stopping event with its delivery level. -/
def stopCell (core : Nat) (ev : Option (Flt × Nat)) (s : State) : State :=
  let c := cellOf s core
  let b := ctlBase core
  let s := match ev with
    | some (f, p) =>
      setReg (b + 0x30) (causeWord c f.code false p)
        (setReg (b + 0x38) f.faddr (setReg (b + 0x40) f.finfo s))
    | none => setReg (b + 0x30) 0 (setReg (b + 0x38) 0 (setReg (b + 0x40) 0 s))
  let s := setReg (b + 0x48)
    (if hasContext c then c.stallPc.getD (runBank c).pcc.addr else 0) s
  let s := setReg (b + 0x50) (timeWord s) s
  setCell core { c with stopped := true, flush := true, stopReq := false, runBit := false,
                        waiting := false, stall := .none, stallPc := none, held := none,
                        after := none, away := none, trpHeld := none, walked := false } s

/-- Entry at level `p`; a failed entry below level 7 is escalated, and one to level 7 stops the core
(R209). -/
def enterLevel (core p : Nat) (f : Flt) (esc : Bool) (orig : Nat) (s : State) (r : Ret := .ok) : State :=
  match tryEnter core p f esc orig s r with
  | (s, true) => s
  | (s, false) =>
    if p < 7 then
      match tryEnter core 7 f true p s r with
      | (s, true) => s
      | (s, false) => stopCell core (some (f, 7)) s
    else stopCell core (some (f, 7)) s

/-- An event at delivery level `p` is deliverable (R206). An idle cell has the mask of bank 0, which `run` names then
(DESIGN CHOICE, log entry 51). -/
def deliverable (c : Cell) (p : Nat) : Bool :=
  decide (levelOf c < p) && (decide ((runBank c).mask < p) || p == 7)

/-- The delivery level of synchronous faults, LSE and MCHK (dlvl, R218). -/
def dlvlSync (s : State) (core : Nat) : Nat := regF s (ctlBase core + 0x28) 2 0
def dlvlLse (s : State) (core : Nat) : Nat := regF s (ctlBase core + 0x28) 6 4
def dlvlMchk (s : State) (core : Nat) : Nat := regF s (ctlBase core + 0x28) 10 8

/-- An event that is delivered, escalated to level 7, or at level 7 stops the core: synchronous faults
and MCHK (R206). -/
def raiseAt (core p : Nat) (f : Flt) (s : State) (r : Ret := .ok) : State :=
  let c := cellOf s core
  if deliverable c p then enterLevel core p f false p s r
  else if levelOf c < 7 then enterLevel core 7 f true p s r
  else stopCell core (some (f, p)) s

/-- TAKING AN EXCEPTION: a synchronous fault of the running bundle (R92, R206, R208). -/
def raiseSync (core : Nat) (f : Flt) (s : State) (r : Ret := .ok) : State := raiseAt core (dlvlSync s core) f s r

/-- A machine check found outside the issue of a bundle: at level 7 the core stops at once; otherwise it waits for the
next interrupt point (R206, R207, R214). With `esc` it is escalated whatever its delivery level. -/
def raiseMchk (core : Nat) (f : Flt) (esc : Bool) (s : State) : State :=
  if (cellOf s core).stopped then s
  else if levelOf (cellOf s core) = 7 then stopCell core (some (f, if esc then 7 else dlvlMchk s core)) s
  else modCell core (fun c => { c with mchk := c.mchk ++ [(f, esc)] }) s

/-- The repeat, delay and block-transfer state of a bank discarded (R111, R117, R150); dir too (DESIGN CHOICE, log entry
79). -/
def discardPending (k : Bank) : Bank :=
  { k with rcnt := 0, ract := false, rnint := false, rpre := false, dly := 0, pend := Cap.null,
           pendLim := none, seqChk := 0, done := 0, act := false, dir := false }

/-- The resume of a bank at `p`, whose bounds are beside it where its address does not decode to them; when the handler
wrote fpcc, the bank's pending state is discarded. Group S is dirty from the write of its pcc (R194). -/
def resumeBank (p : Cap) (lim : Option (Int × Int)) (wrote : Bool) (k : Bank) : Bank :=
  let k := if wrote then discardPending k else k
  markDirty 7 { k with pcc := capUnsealed p, lim := lim }

/-- THE RETURN FROM AN EXCEPTION (R210): level L is left for the level that cause.from records. A hub core has one context of
level 0 (R22). At level 0 of a cell the slot that cause.slot records gets the resume point, and its thread runs from its bank
when it holds one; otherwise the scheduler must choose (R196, R197). -/
def exceptionReturn (core : Nat) (s : State) : State :=
  modCell core (fun c =>
    let k := runBank c
    let from_ := fld k.cause 14 12
    let c := { c with now := c.now + switchCycles, held := none }
    let back := resumeBank k.fpcc k.fpLim k.fpccW
    if 1 ≤ from_ then { setBank (4 + from_) (back (bankOf c (4 + from_))) c with run := 4 + from_ }
    else if 256 ≤ core then { setBank 0 (back (bankOf c 0)) c with run := 0, cur := some 0 }
    else match c.cur with
      | none => { c with run := 0, resched := true }
      | some _ =>
        let n := fld k.cause 21 16
        let t := slotOf c n
        match t.bank with
        | some b =>
          let c := setSlot n { t with clean := false } (setBank b (back (bankOf c b)) c)
          if t.state = 2 then { c with run := b } else { ranLast n c with run := 0, cur := none, resched := true }
        | none =>
          let t := if t.state = 0 then t else { t with resume := some (k.fpcc, k.fpLim, k.fpccW),
                                                       state := if t.state = 2 then 1 else t.state }
          { ranLast n (setSlot n t c) with run := 0, cur := none, resched := true }) s

end Sys2Proof.Machine
end

