-- ==== Sys2Proof/Machine/MemUnit.lean ====
section
/-! DEFINITION. The mem unit (R138 to R151): checks, translation, the store buffer and loads. -/

namespace Sys2Proof.Machine

/-- What a trigger sees: the core, the issue cycle, the bank, and the bank's state with the operand port
writes of the same bundle (R90, R125). -/
structure Ctx where
  core : Nat
  n    : Nat
  b    : Nat
  k    : Bank
  /-- How the reads of a call-gate sequence of the bundle end, and its frame write (R226). -/
  ret  : Ret := .ok
  fret : Ret := .ok
  deriving DecidableEq, Repr

/-- The address space of a bank's accesses (R228): hub cores have none but bare mode (R22). -/
def ctxAsid (x : Ctx) : Nat := if 256 ≤ x.core then 0 else x.k.asid

/-- The thread slot of the running context (R212). -/
def ctxSlot (s : State) (x : Ctx) : Nat := if x.b ≤ 4 then (cellOf s x.core).cur.getD 0 else 0

/-- The access address of mem (R139). -/
def memAddr (x : Ctx) (t : W) : W := (portC x.k 0x0C0).addr + t

/-- SYSREG is required where the access touches the control space by physical address (R37, R83). In bare
mode the address is the physical one. -/
def sysregNeed (asid a n : Nat) : BitVec 12 :=
  if asid = 0 ∧ a < 0x6C000000 ∧ partSec < a + n then permSYSREG else 0

/-- The parts of a data access, split at a 4 KiB boundary (R146): address and bytes. -/
def partsOf (a n : Nat) : List (Nat × Nat) :=
  let m := 0x1000 - a % 0x1000
  if n ≤ m then [(a, n)] else [(a, m), (a + m, n - m)]

/-- The translation of the parts in order: physical parts, and of each whether tags may pass, or the fault
(R146, R240). -/
def xlatePages (x : Ctx) (acc : Acc) : Bool → List (Nat × Nat) → State →
    State × Except Flt (List (Nat × Nat) × List Bool)
  | _, [], s => (s, .ok ([], []))
  | second, (a, n) :: ps, s =>
    match xlate x.core (ctxAsid x) (wd a) acc (some x.k) s with
    | (s, .error e) => (s, .error (xFault e second acc (ctxAsid x) (wd a)))
    | (s, .ok (pa, capok)) =>
      match xlatePages x acc true ps s with
      | (s, .error f) => (s, .error f)
      | (s, .ok (qs, oks)) => (s, .ok ((pa, n) :: qs, capok :: oks))

/-- The same, with whether tags may pass throughout. -/
def xlateParts (x : Ctx) (acc : Acc) (second : Bool) (ps : List (Nat × Nat)) (s : State) :
    State × Except Flt (List (Nat × Nat) × Bool) :=
  match xlatePages x acc second ps s with
  | (s, .error f) => (s, .error f)
  | (s, .ok (qs, oks)) => (s, .ok (qs, oks.all (fun b => b)))

/-- The fault of a target-gate denial of a load or fetch (R205, R270). -/
def gateFault (va : W) (part : Bool) (d : Deny) : Flt :=
  { code := causeGatedeny, faddr := va, finfo := wd (d.reason + b2n part * 2 ^ 8) }

/-- The first part whose requests a gate denies: its index, the denial and the address. -/
def partsDenied (s : State) (core : Nat) (rq : Rq) : Nat → List (Nat × Nat) → Option (Nat × Deny × Nat)
  | _, [] => none
  | i, (a, n) :: ps =>
    match rangeCheck s core a n rq with
    | some (d, x) => some (i, d, x)
    | none => partsDenied s core rq (i + 1) ps

/-- A capability-checked and translated access: physical parts, or the fault. `need` are the permissions
beside SYSREG; `capa`, `lcl` as in R83. In a translated address space only the physical address shows the control
space, so that its check of SYSREG, order 3 of R83, comes after the translation (DESIGN CHOICE, log entry 74). -/
def accessParts (x : Ctx) (c : Cap) (src : Nat) (va : W) (n : Nat) (need : BitVec 12) (capa lcl : Bool)
    (acc : Acc) (s : State) : State × Except Flt (List (Nat × Nat) × Bool) :=
  match capCheck c va.toNat n (need ||| sysregNeed (ctxAsid x) va.toNat n) capa lcl with
  | some f => (s, .error (capFault src va n f))
  | none =>
    match xlateParts x acc false (if capa then [(va.toNat, n)] else partsOf va.toNat n) s with
    | (s, .error f) => (s, .error f)
    | (s, .ok (ps, ok)) =>
      if ctxAsid x ≠ 0 ∧ ps.any (fun p => inControl p.1) ∧ !capHas c permSYSREG then
        (s, .error (capFault src va n ⟨causePerm, 0x1, permSYSREG⟩))
      else (s, .ok (ps, ok))

/-- The requests of a read checked at their gates: the first denial is a gate event, and a precise fault (R270). -/
def partsReach (core : Nat) (va : W) (ps : List (Nat × Nat)) (s : State) : State × Option Flt :=
  match partsDenied s core .read 0 ps with
  | some (i, d, a) =>
    let first := match ps.head? with | some p => if i = 0 then 0 else p.2 | none => 0
    (gateEvent core a .read d s, some (gateFault (va + wd first) (i != 0) d))
  | none => (s, none)

/-- A checked read of memory by a core, precise on a denial (R270): the physical parts, or the fault. -/
def readParts (x : Ctx) (c : Cap) (src : Nat) (va : W) (n : Nat) (need : BitVec 12) (capa : Bool)
    (s : State) : State × Except Flt (List (Nat × Nat) × Bool) :=
  match accessParts x c src va n need capa false .load s with
  | (s, .error f) => (s, .error f)
  | (s, .ok (ps, ok)) =>
    match partsReach x.core va ps s with
    | (s, some f) => (s, .error f)
    | (s, none) => (s, .ok (ps, ok))

/-- The bytes of the parts, in order. -/
def partsRead (s : State) (ps : List (Nat × Nat)) : List Byte :=
  ps.flatMap (fun p => physRead s p.1 p.2)

/-! The store buffer (R143, R144). -/

/-- Entries of the store buffer. -/
def sbCap : Nat := 16

/-- A buffered store overlaps a range. -/
def sbOverlaps (e : SbEntry) (a n : Nat) : Bool :=
  decide (e.pa < a + n) && decide (a < e.pa + e.data.length)

/-- A buffered store contains a whole range. -/
def sbContains (e : SbEntry) (a n : Nat) : Bool :=
  decide (e.pa ≤ a) && decide (a + n ≤ e.pa + e.data.length)

/-- How a load finds the store buffer (R144). -/
inductive Fwd where
  | memory
  | forward (bs : List Byte) (tag : Bool)
  | wait
  deriving DecidableEq, Repr

/-- The service of a load of the parts `ps` by the store buffer (R144, R279). The two entries of a split store count as two
buffered stores, so that a load of two parts waits for the drain also where one split store covers it (DESIGN CHOICE, log entry
117). -/
def sbServe (sb : List SbEntry) (isCap : Bool) (ps : List (Nat × Nat)) : Fwd :=
  if ps.any (fun p => inControl p.1) then (if sb.isEmpty then .memory else .wait)
  else
    let hits := sb.filter (fun e => ps.any (fun p => sbOverlaps e p.1 p.2))
    match hits.getLast? with
    | none => .memory
    | some e =>
      match ps with
      | [p] =>
        if sbContains e p.1 p.2 && (!isCap || e.isCap) then
          .forward ((e.data.drop (p.1 - e.pa)).take p.2) (e.isCap && e.tag)
        else .wait
      | _ => .wait

/-- Every byte lies in the cell's own cell store (R140). -/
def ownStore (core : Nat) (ps : List (Nat × Nat)) : Bool :=
  decide (core < 256) && ps.all (fun p => decide (0x40000000 + core * 0x20000 ≤ p.1)
    && decide (p.1 + p.2 ≤ 0x40000000 + core * 0x20000 + 0x20000))

/-- The latency of a load (R140). -/
def loadLatency (own : Bool) (va n : Nat) : Nat :=
  (if own then 2 else 3) + (if 64 < va % 64 + n then 1 else 0)

/-- The cycle in which a load is due, after the earlier loads (R140). -/
def loadDue (c : Cell) (n : Nat) (lat : Nat) : Nat :=
  c.loads.foldl (fun d l => max d (l.due + 1)) (n + lat)

/-- Host memory read through the outbound window: each read draws a fresh value (R35). -/
def drawsHost (ps : List (Nat × Nat)) : Bool := ps.any (fun p => decide (0x8000000000 ≤ p.1))

def bumpFresh (s : State) : State := { s with fresh := s.fresh + 1 }

/-- The bytes and the tag that a read of the parts finds in memory. -/
def partsGet (s : State) (ps : List (Nat × Nat)) : List Byte × Bool :=
  (partsRead s ps, ps.any (fun p => physTag s p.1))

/-- What a read of the parts does beside giving its data (R35, R405). -/
def partsEffect (ps : List (Nat × Nat)) (s : State) : State :=
  let s := ps.foldl (fun s p => readEffect p.1 s) s
  if drawsHost ps then bumpFresh s else s

/-- Every part is in the core's data cache. -/
def partsHit (s : State) (core : Nat) (ps : List (Nat × Nat)) : Bool := ps.all (fun p => dHit s core p.1 p.2)

/-- The gate that an address goes to, when there is one. -/
def storeGate (s : State) (a : Nat) : Option Nat :=
  match targetOf s a with
  | .gate g => some g
  | _ => none

/-- Two addresses lie behind one gate that keeps the order of one initiator's requests to them (R278). -/
def sameOrder (s : State) (a b : Nat) : Bool :=
  ordOf s a != 0 && ordOf s b != 0 && storeGate s a == storeGate s b

/-- A read of parts must follow an older load of the core that has not read memory: their bytes overlap, or their gate keeps
arrival order (R278). -/
def loadAfter (s : State) (ps : List (Nat × Nat)) (o : PLoad) : Bool :=
  o.got.isNone && ps.any (fun p => o.parts.any (fun q =>
    (decide (p.1 < q.1 + q.2) && decide (q.1 < p.1 + p.2)) || sameOrder s p.1 q.1))

/-- A read of parts that the store buffer does not serve reaches memory at once: no gate holds it, and no older load goes
before it (R265, R278). -/
def readNow (s : State) (core : Nat) (ps : List (Nat × Nat)) : Bool :=
  !ps.any (fun p => gateHolds s p.1) && !(cellOf s core).loads.any (loadAfter s ps)

/-- A load started with its physical parts (R140, R144): forwarded, or read now, from the cell's own store, its data
cache or further away; or waiting for an overlapping store, for the buffer to drain, at its gate, or behind an older load
(R265, R278), before it reads memory. A walk for it ends in the stall of R140, so that near data too arrives late
(R243). -/
def startLoad (x : Ctx) (va : W) (n : Nat) (signed isCap keep : Bool) (ps : List (Nat × Nat)) (undo : Undo)
    (s : State) : State :=
  let c := cellOf s x.core
  let l : PLoad := { due := loadDue c x.n (loadLatency (ownStore x.core ps) va.toNat n), bank := x.b, va := va,
                     parts := ps, signed := signed, isCap := isCap, keep := keep, own := false, hit := false,
                     arr := false, got := none, ahead := c.sb.length, undo := undo, asid := ctxAsid x }
  let put := fun (l : PLoad) (s : State) =>
    modCell x.core (fun c => { c with loads := c.loads ++ [{ l with arr := l.arr && !c.walked }], walked := false }) s
  match sbServe c.sb isCap ps with
  | .wait => put l s
  | .forward bs tag => put { l with arr := true, fwd := true, got := some (bs, tag) } s
  | .memory =>
    if !readNow s x.core ps then put l s
    else
    let own := ownStore x.core ps
    let hit := partsHit s x.core ps
    partsEffect ps (put { l with own := own, hit := hit, arr := own || hit, got := some (partsGet s ps) }
      (if hit then linesFill x.core ps s else s))

/-- The parts of a data store as buffer entries. -/
def sbEntries (x : Ctx) (slot : Nat) (va : W) (isCap tag split : Bool) :
    List (Nat × Nat) → List Byte → List SbEntry
  | [], _ => []
  | (pa, n) :: ps, bs =>
    { pa := pa, data := bs.take n, isCap := isCap, tag := tag, va := va, bank := x.b, slot := slot,
      split := split, asid := ctxAsid x } :: sbEntries x slot (va + wd n) isCap tag split ps (bs.drop n)

/-- Stores placed in the buffer (R143). -/
def startStore (x : Ctx) (va : W) (isCap tag : Bool) (ps : List (Nat × Nat)) (bs : List Byte)
    (s : State) : State :=
  let c := cellOf s x.core
  let es := sbEntries x (ctxSlot s x) va isCap tag (decide (1 < ps.length)) ps bs
  setCell x.core { c with sb := c.sb ++ es } s

/-- The permissions a store of a capability value needs (R59). -/
def storePerms (v : Cap) : BitVec 12 := if v.tag then permST ||| permSTC else permST

/-- A local value: tagged with GL clear (R59). -/
def isLocal (v : Cap) : Bool := v.tag && !capHas v permGL

/-- The access kind of a capability store (R240, check 11). -/
def storeAcc (v : Cap) : Acc := if v.tag then .capStore else .store

/-- The gates' check of a load, made when it reads memory: at issue, or for a load that waits when it goes (R278, R279); one
that the store buffer forwards (R144) reads none. -/
def loadReach (core : Nat) (isCap : Bool) (va : W) (ps : List (Nat × Nat)) (s : State) : State × Option Flt :=
  match sbServe (cellOf s core).sb isCap ps with
  | .memory => if readNow s core ps then partsReach core va ps s else (s, none)
  | _ => (s, none)

/-- A load's access parts, checked at issue (R140, R146). -/
def loadParts (x : Ctx) (t : W) (n : Nat) (isCap : Bool) (s : State) :
    State × Except Flt (List (Nat × Nat) × Bool) :=
  let oc := portC x.k 0x0C0
  let va := memAddr x t
  match accessParts x oc x.k.memSrc va n permLD isCap false .load s with
  | (s, .error f) => (s, .error f)
  | (s, .ok (ps, ok)) =>
    match loadReach x.core isCap va ps s with
    | (s, some f) => (s, .error f)
    | (s, none) => (s, .ok (ps, ok))

/-- A data store's access parts. -/
def storeParts (x : Ctx) (t : W) (n : Nat) (s : State) :
    State × Except Flt (List (Nat × Nat) × Bool) :=
  accessParts x (portC x.k 0x0C0) x.k.memSrc (memAddr x t) n permST false false .store s

/-- A capability store's access parts (R59). -/
def stcParts (x : Ctx) (t : W) (s : State) : State × Except Flt (List (Nat × Nat) × Bool) :=
  let v := portC x.k 0x0C2
  accessParts x (portC x.k 0x0C0) x.k.memSrc (memAddr x t) 16 (storePerms v) true (isLocal v)
    (storeAcc v) s

/-- Only the state and the fault of a check. -/
def checkOf {α : Type} (r : State × Except Flt α) : State × Option Flt :=
  match r with
  | (s, .error f) => (s, some f)
  | (s, .ok _) => (s, none)

/-- A data load carried out (R140). -/
def doLoad (x : Ctx) (t : W) (n : Nat) (signed : Bool) (undo : Undo) (s : State) : State :=
  match loadParts x t n false s with
  | (s, .ok (ps, _)) => startLoad x (memAddr x t) n signed false false ps undo s
  | (s, .error _) => s

/-- A capability load carried out (R60): the tag is kept when the authority holds LDC and the page lets
tags pass (R241). -/
def doLdc (x : Ctx) (t : W) (undo : Undo) (s : State) : State :=
  match loadParts x t 16 true s with
  | (s, .ok (ps, ok)) =>
    startLoad x (memAddr x t) 16 false true (ok && capHas (portC x.k 0x0C0) permLDC) ps undo s
  | (s, .error _) => s

/-- A data store carried out (R143). -/
def doStore (x : Ctx) (t : W) (n : Nat) (s : State) : State :=
  match storeParts x t n s with
  | (s, .ok (ps, _)) =>
    startStore x (memAddr x t) false false ps (leBytes n (portX x.k 0x0C1).toNat) s
  | (s, .error _) => s

/-- A capability store carried out (R59). -/
def doStc (x : Ctx) (t : W) (s : State) : State :=
  match stcParts x t s with
  | (s, .ok (ps, _)) =>
    let v := portC x.k 0x0C2
    startStore x (memAddr x t) true v.tag ps (capBytes v) s
  | (s, .error _) => s

/-- mem.t.pf (R142), which never stalls: the line is taken into the caches where its attributes allow it (R277); a denial is no gate
event. The check covers one byte at the address (DESIGN CHOICE, log entry 55). -/
def doPf (x : Ctx) (t : W) (s : State) : State :=
  let va := memAddr x t
  match capCheck (portC x.k 0x0C0) va.toNat 1 (permLD ||| sysregNeed (ctxAsid x) va.toNat 1) false false with
  | some _ => s
  | none =>
    match unstalled x.core (xlate x.core (ctxAsid x) va .load (some x.k)) s with
    | (s, .ok (pa, _)) =>
      (match gateCheck s x.core (pa / 64 * 64) 64 .read with
       | .ok _ => if poisoned s pa || reqWaits s x.core pa then s else lineFill x.core (pa / 64) s
       | .error _ => s)
    | (s, .error _) => modCell x.core (fun c => { c with heldUp := false }) s

/-! Block save and restore (R147 to R150). -/

/-- An element of the save area by its mask bit: offset, size, and whether it is a capability (R147). -/
def elemPlace (i : Nat) : Nat × Nat × Bool :=
  if i < 32 then (8 * i, 8, false)
  else if i < 48 then (256 + 16 * (i - 32), 16, true)
  else (512 + 16 * (i - 48), 16, false)

/-- The next element to do: the lowest mask bit not done (R148). -/
def nextElem (mask done : BitVec 52) : Option Nat :=
  (List.range 52).find? (fun i => mask.getLsbD i && !done.getLsbD i)

/-- The bytes that an element saves (R147), and the capability value when it is one. -/
def elemBytes (k : Bank) (i : Nat) : List Byte × Cap :=
  if i < 32 then (leBytes 8 (portX k i).toNat, Cap.null)
  else if i < 48 then (capBytes (portC k i), portC k i)
  else (leBytes 16 ((tblGet 0 k.a (i - 48)).signExtend 128).toNat, Cap.null)

/-- The check at the trigger (R147): a misaligned base faults before any element, with the base's address and the
length of a capability element (DESIGN CHOICE, log entry 55). -/
def blkCheck (x : Ctx) (t : W) : Option Flt :=
  let va := memAddr x t
  if va.toNat % 16 ≠ 0 then some (capFault x.k.memSrc va 16 ⟨causePerm, 0x2, 0⟩) else none

end Sys2Proof.Machine
end

