-- ==== Sys2Proof/Machine/Branch.lean ====
section
/-! DEFINITION. The br unit: links and targets (R153, R154), repeat prefixes (R112, R113), and call gates
(R221 to R227). -/

namespace Sys2Proof.Machine

/-- The target address of a branch by pc or by value, and of a branch through a capability (R153). -/
def brTarget (pc : W) (op : BrOp) (td : W) (tc : Cap) : W :=
  match op with
  | .br => pc + td
  | .call => pc + td
  | .jmp => td
  | _ => tc.addr

/-- The capability that becomes pcc at the target (R153). -/
def brPcc (pcc : Cap) (op : BrOp) (td : W) (tc : Cap) : Cap :=
  match op with
  | .jc => capUnsealed tc
  | .callc => capUnsealed tc
  | _ => capFollow pcc (brTarget pcc.addr op td tc)

/-- The bounds of that pcc, where its encoding does not decode to them (R83). -/
def brLim (k : Bank) (op : BrOp) (td : W) (tc : Cap) : Option (Int × Int) :=
  match op with
  | .jc => none
  | .callc => none
  | _ => limAt k.pcc k.lim (brTarget k.pcc.addr op td tc)

/-- The link (R153): pcc at pc + 24, sealed as a sealed entry. -/
def brLink (k : Bank) : Cap := capWithOtype (capMoved k.pcc k.lim (k.pcc.addr + 24)) otypeEntry

/-- Branches with delay bundles (R109, R182). -/
def brDelayed : BrOp → Bool
  | .br => true
  | .call => true
  | .jmp => true
  | .jc => true
  | .callc => true
  | _ => false

/-- A branch taken (R109): the pending target and two delay bundles; a call writes its link to c15. -/
def brTake (op : BrOp) (td : W) (tc : Cap) (k : Bank) : Bank :=
  let t := { k with pend := brPcc k.pcc op td tc, pendLim := brLim k op td tc, dly := 2 }
  if op = .call ∨ op = .callc then markDirty 5 (setC 0x2F (brLink k) t) else t

/-- A repeat prefix (R112 to R114): the count, and whether interrupts are held. -/
def repStart (noInt : Bool) (t : W) (k : Bank) : Bank :=
  let n := fld t 31 0
  if n = 0 then { k with rcnt := 0, ract := false, rnint := false, rpre := false }
  else { k with rcnt := n, ract := true, rnint := noInt, rpre := true }

/-! Call gates. -/

/-- A granule as a gate sequence reaches it: its physical address, and whether its page lets tags pass (R241). -/
abbrev Gran := Nat × Bool

/-- Physical parts of a range of virtual addresses, granule by granule, each with its access; the state follows the
TLB. `none` on any translation fault. -/
def vGran (x : Ctx) (keys : Option Bank) : List Acc → W → State → State × Option (List Gran)
  | [], _, s => (s, some [])
  | acc :: accs, va, s =>
    match xlate x.core (ctxAsid x) va acc keys s with
    | (s, .error _) => (s, none)
    | (s, .ok g) =>
      match vGran x keys accs (va + 16) s with
      | (s, none) => (s, none)
      | (s, some ps) => (s, some (g :: ps))

/-- The granules' requests checked at their gates; a denial is a gate event, and an uncorrectable error, or a request
lost on its path, fails the sequence too (R226, R288). A request that must wait holds up the bundle (R24, R265). -/
def granCheck (core : Nat) (rq : Rq) (r : Ret) : List Gran → State → State × Bool
  | [], s => (s, true)
  | g :: gs, s =>
    if reqWaits s core g.1 then (holdUp core s, false)
    else match gateCheck s core g.1 16 rq with
    | .ok _ =>
      (match retAt s g.1 r with
       | .uncorrectable => (uncorrectableAt core g.1 s, false)
       | .pathFail => (s, false)
       | _ => granCheck core rq r gs s)
    | .error d => (gateEvent core g.1 rq d s, false)

/-- Granules of virtual memory made ready for reads, or for the accesses named, whose requests end as `r` says
(R232). -/
def vReach (x : Ctx) (accs : List Acc) (keys : Option Bank) (r : Ret) (va : W) (s : State) :
    State × Option (List Gran) :=
  match vGran x keys accs va s with
  | (s, none) => (s, none)
  | (s, some ps) =>
    match granCheck x.core (if accs.any accIsStore then .write else .read) r ps s with
    | (s, true) => (s, some ps)
    | (s, false) => (s, none)

/-- The bytes of granules, in order, and the capability in one: its tag passes where its page lets tags pass. -/
def granBytes (s : State) (ps : List Gran) : List Byte := ps.flatMap (fun p => physRead s p.1 16)
def granCap (s : State) (ps : List Gran) (i : Nat) : Cap :=
  let p := ps.getD i (0, false)
  let c := physCap s p.1
  { c with tag := c.tag && p.2 }
def granAt (ps : List Gran) (i : Nat) : Nat := (ps.getD i (0, false)).1

/-- A call-gate fault (R227). -/
def gateFlt (desc : W) (reason arg kind : Nat) (missing : BitVec 12) : Flt :=
  { code := causeGate, faddr := desc,
    finfo := wd (reason + arg * 2 ^ 8 + kind * 2 ^ 12 + missing.toNat * 2 ^ 16) }

/-- An argument check (R222): kind and missing permissions on failure. -/
def argFail (chk : Nat) (c : Cap) : Option (Nat × BitVec 12) :=
  let perms : BitVec 12 := BitVec.ofNat 12 chk
  let otype : BitVec 12 := BitVec.ofNat 12 (chk / 2 ^ 12)
  let mode := chk / 2 ^ 24 % 4
  if mode = 0 then none
  else if !c.tag then (if mode = 1 then some (0xA, 0) else none)
  else if capOtype c != otype then some (0x9, 0)
  else if !capHas c perms then some (0x1, perms &&& ~~~ (capPerms c))
  else none

/-- The first argument of c1 to c4 that fails its check (R226). -/
def argsFail (k : Bank) (d : List Byte) : Option (Nat × Nat × BitVec 12) :=
  [1, 2, 3, 4].findSome? (fun i =>
    (argFail (leNat (slice d (0x20 + 4 * (i - 1)) 4)) (portC k (0x20 + i))).map
      (fun f => (i, f.1, f.2)))

/-- A reserved descriptor field is nonzero, or an argument check has mode 0b11 (R226, reason 0x02). -/
def descReserved (d : List Byte) : Bool :=
  let w34 := leNat (slice d 0x34 4)
  let w38 := leNat (slice d 0x38 8)
  w34 / 4 % 2 ^ 14 != 0 || w38 / 2 ^ 13 % 8 != 0 || w38 / 2 ^ 22 % 2 ^ 10 != 0
    || decide (2 ^ 48 ≤ w38)
    || [0, 1, 2, 3].any (fun i =>
      let a := leNat (slice d (0x20 + 4 * i) 4)
      a / 2 ^ 24 % 4 == 3 || decide (2 ^ 26 ≤ a))

/-- Permissions of a gate stack (R221). -/
def stackPerms : BitVec 12 := permLD ||| permST ||| permLDC ||| permSTC ||| permSTL

/-- The checks of a gate descriptor in the order of R226, from reason 0x02 to 0x0C. -/
def descFail (k : Bank) (desc : W) (d : List Byte) (ent stk : Cap) : Option Flt :=
  let w34 := leNat (slice d 0x34 4)
  if descReserved d then some (gateFlt desc 0x02 0 0 0)
  else if w34 % 2 = 0 then some (gateFlt desc 0x03 0 0 0)
  else if w34 / 2 % 2 = 1 then some (gateFlt desc 0x04 0 0 0)
  else match jumpCheck ent with
  | some f => some (gateFlt desc 0x05 0 f.kind f.missing)
  | none =>
    match argsFail k d with
    | some (i, kind, miss) => some (gateFlt desc (0x05 + i) i kind miss)
    | none =>
      if !stk.tag then some (gateFlt desc 0x0A 0 0xA 0)
      else if capSealed stk then some (gateFlt desc 0x0A 0 0x8 0)
      else if !capHas stk stackPerms then
        some (gateFlt desc 0x0B 0 0x1 (stackPerms &&& ~~~ (capPerms stk)))
      else if capTop stk % 16 ≠ 0 ∨ capLen stk < 48 + 16 * (w34 / 2 ^ 16) then
        some (gateFlt desc 0x0C 0 0 0)
      else none

/-- What a gate entry does once every check has passed. -/
structure GatePlan where
  desc  : List Gran
  frame : List Gran
  bytes : List Byte
  ent   : Cap
  stk   : Cap
  clr   : Nat
  deriving DecidableEq, Repr

/-- pcc after a gate's bundle, as its frame keeps it (R223). -/
def gateBack (k : Bank) : Cap := capMoved k.pcc k.lim (k.pcc.addr + 8)

/-- The accesses of a gate's frame write: tagged capabilities need capok, and the rest does not (R240, R241). -/
def frameAccs (k : Bank) : List Acc := [storeAcc (portC k 0x2E), storeAcc (gateBack k), .store]

/-- Steps 1 and 2 of br.t.gate and the reach of its frame (R223): the plan, or the fault. The arguments c1 to c4 are
checked, and c14 is saved, as they stand at the start of the bundle, before its other move (DESIGN CHOICE, log entry
54). The table of R226 has no reason for a write of the descriptor's busy and owner fields that is refused: it is
reported as 0x01, after 0x0C and before 0x0D (DESIGN CHOICE, log entry 75). -/
def gatePlan (x : Ctx) (t : Cap) (src : Nat) (s : State) : State × Except Flt GatePlan :=
  match sealedCheck t (fun o => decide (0x100 ≤ o.toNat) && decide (o.toNat ≤ 0x1FF)) with
  | some f => (s, .error (capFault src t.addr 0 f))
  | none =>
    let a := t.addr
    if a.toNat % 16 ≠ 0 ∨ (a.toNat : Int) < capBase t ∨ capTop t < (a.toNat : Int) + 64 then
      (s, .error (gateFlt a 0x01 0 0 0))
    else
      match vReach x (List.replicate 4 .load) (some x.k) x.ret a s with
      | (s, none) => (s, .error (gateFlt a 0x01 0 0 0))
      | (s, some ps) =>
        let d := granBytes s ps
        let ent := granCap s ps 0
        let stk := granCap s ps 1
        match descFail x.k a d ent stk with
        | some f => (s, .error f)
        | none =>
          match vReach x [.store] (some x.k) .ok (a + 0x30) s with
          | (s, none) => (s, .error (gateFlt a 0x01 0 0 0))
          | (s, some _) =>
            match vReach x (frameAccs x.k) none x.fret (wd (capTop stk - 48).toNat) s with
            | (s, none) => (s, .error (gateFlt a 0x0D 0 0 0))
            | (s, some fs) => (s, .ok ⟨ps, fs, d, ent, stk, leNat (slice d 0x30 4)⟩)

/-- The callee's stack capability (R223, step 6). Bounds that cannot be encoded exactly are drawn in, the top to a free
value; and where the new top is not representable, as it is not when the length is 2^(E + 14), the tag is cleared
(R54, R68; DESIGN CHOICE, log entry 18). -/
def calleeStack (stk : Cap) : Cap :=
  let b := (capBase stk).toNat
  let t := (capTop stk - 48).toNat
  let e := expFor (t - b)
  let lo := (b + 2 ^ e - 1) / 2 ^ e * 2 ^ e
  let hi := if b % 2 ^ e = 0 ∧ t % 2 ^ e = 0 then t
    else lo + Config.gateStack stk.addr stk.hi % ((t - lo) / 2 ^ e + 1) * 2 ^ e
  capSetAddr (capWithBounds { stk with addr := wd lo } e lo hi) (wd t)

/-- The RETURN capability over a frame (R223, step 7). -/
def returnCap (frame : Nat) : Cap :=
  { addr := wd frame, hi := capHi permINVOKE otypeReturn 0 (frame + 48) frame false, tag := true }

/-- The d registers that a mask names made zero (R223, step 4). -/
def clearRegs (mask : Nat) (k : Bank) : Bank :=
  (List.range 32).foldl (fun k i => if mask.testBit i then markDirty (i / 8) (setX i 0 k) else k) k

/-- Steps 3 to 8 of br.t.gate (R223, R224). A caller at levels 1 to 7 has no thread slot, and oslot is then 0 (R221; DESIGN CHOICE,
log entry 120). -/
def gateEnter (x : Ctx) (t : Cap) (p : GatePlan) (s : State) : State :=
  let c := cellOf s x.core
  let lvl := bankLevel x.b
  let slot := if lvl = 0 then c.cur.getD 0 else 0
  let tid := if lvl = 0 then (slotOf c slot).tid else 0
  let w38 := x.core + lvl * 2 ^ 10 + slot * 2 ^ 16 + tid * 2 ^ 32
  let d3 := slice p.bytes 0x30 4 ++ leBytes 4 (leNat (slice p.bytes 0x34 4) + 2) ++ leBytes 8 w38
  let s := if x.ret = .corrected then correctedAt x.core (granAt p.desc 0) s else s
  let s := physStore (granAt p.desc 3) d3 s
  let c14 := portC x.k 0x2E
  let back := gateBack x.k
  let s := physStoreCap (granAt p.frame 0) (capBytes c14) c14.tag s
  let s := physStoreCap (granAt p.frame 1) (capBytes back) back.tag s
  let s := physStore (granAt p.frame 2) (leBytes 8 t.addr.toNat ++ leBytes 8 0) s
  modCell x.core (fun c => setBank x.b (
    let k := clearRegs p.clr (bankOf c x.b)
    let k := setC 0x2E (calleeStack p.stk) k
    let k := setC 0x2F (returnCap (capTop p.stk - 48).toNat) k
    markDirty 5 { k with pcc := capUnsealed p.ent, lim := none, seqChk := 0 }) c) s

/-- What a gate return does once its checks have passed. -/
structure RetPlan where
  desc : Nat
  w34  : Nat
  c14  : Cap
  pcc  : Cap
  deriving DecidableEq, Repr

/-- The caller matches the frame's descriptor (R225, step 2). -/
def callerMatch (c : Cell) (core lvl w38 : Nat) : Bool :=
  let slot := c.cur.getD 0
  let otid := w38 / 2 ^ 32 % 2 ^ 16
  w38 / 2 ^ 10 % 8 == lvl &&
    (if lvl = 0 then
      (if otid ≠ 0 then otid == (slotOf c slot).tid
       else w38 % 2 ^ 10 == core && w38 / 2 ^ 16 % 64 == slot)
     else w38 % 2 ^ 10 == core)

/-- The checks of br.t.gret (R225, R226). Reasons 0x10, and 0x12 for the frame, come before a descriptor is known: faddr
then holds t's address (DESIGN CHOICE, log entry 75). The write that clears busy is checked before anything changes,
and its failure is reported as 0x12, last (DESIGN CHOICE, log entry 75). -/
def gretPlan (x : Ctx) (t : Cap) (s : State) : State × Except Flt RetPlan :=
  if !t.tag || capOtype t != otypeReturn || !capHas t permINVOKE || capLen t != 48 then
    let kind := if !t.tag then 0xA else if capOtype t != otypeReturn then 0x9
      else if !capHas t permINVOKE then 0x1 else 0
    (s, .error (gateFlt t.addr 0x10 0 kind (if kind = 1 then permINVOKE else 0)))
  else
    match vReach x (List.replicate 3 .load) (some x.k) x.ret (wd (capBase t).toNat) s with
    | (s, none) => (s, .error (gateFlt t.addr 0x12 0 0 0))
    | (s, some fs) =>
      let desc := wd (physNat s (granAt fs 2) 8)
      match vReach x (List.replicate 4 .load) (some x.k) x.ret desc s with
      | (s, none) => (s, .error (gateFlt desc 0x12 0 0 0))
      | (s, some ds) =>
        let a := granAt ds 3
        let w34 := physNat s (a + 4) 4
        let w38 := physNat s (a + 8) 8
        if w34 / 2 % 2 = 0 || !callerMatch (cellOf s x.core) x.core (bankLevel x.b) w38 then
          (s, .error (gateFlt desc 0x11 0 0 0))
        else match vReach x [.store] (some x.k) .ok (desc + 0x30) s with
          | (s, none) => (s, .error (gateFlt desc 0x12 0 0 0))
          | (s, some _) => (s, .ok ⟨a, w34, granCap s fs 0, granCap s fs 1⟩)

/-- Steps 3 and 4 of br.t.gret (R225). -/
def gretLeave (x : Ctx) (p : RetPlan) (s : State) : State :=
  let s := if x.ret = .corrected then correctedAt x.core p.desc s else s
  let s := physStore (p.desc + 4) (leBytes 4 (p.w34 - 2)) s
  modCell x.core (fun c => setBank x.b (
    let k := markDirty 5 (setC 0x2E p.c14 (bankOf c x.b))
    { k with pcc := p.pcc, lim := none, seqChk := 0 }) c) s

/-- Gate cycles of br.t.gate and br.t.gret beyond the bundle's own (R188): nine and six from that bundle to the first one
entered (DESIGN CHOICE: a typical figure taken as a count, log entry 50). -/
def gateCycles (op : BrOp) : Nat := if op = .gate then 8 else 5

end Sys2Proof.Machine
end

