-- ==== Sys2Proof/Machine/Requests.lean ====
section
/-! DEFINITION. The q, trp and sys units of a core: the checks at issue and the requests they send
(R163 to R172, R298, R299, R306, R370). -/

namespace Sys2Proof.Machine

/-! q. -/

/-- The queue table base (R297, R318). -/
def qtab (s : State) : Nat := regF s (hubBase 0 + 0xE00000) 47 24 * 2 ^ 24

/-- A QUEUE capability's address and bounds (R298). -/
def queueAddrOk (s : State) (c : Cap) : Bool :=
  let a := c.addr.toNat
  decide (qtab s ≤ a) && decide (a < qtab s + 2 ^ 24) && a % 64 == 0
    && decide (capBase c ≤ (a : Int)) && decide ((a : Int) + 64 ≤ capTop c)

/-- The rights an operation needs on its queue (R299); 0 when it has them. -/
def queueMissing (op : QOp) (c : Cap) : BitVec 12 :=
  match op with
  | .enq => permST &&& ~~~ (capPerms c)
  | .enqd => permST &&& ~~~ (capPerms c)
  | .stat => if capHas c permLD || capHas c permST then 0 else permLD ||| permST
  | _ => permLD &&& ~~~ (capPerms c)

/-- An arming word that is refused (R313). -/
def armRefused (w : W) : Bool :=
  decide (fld w 6 0 < 16) || bit w 7 || fld w 21 11 != 0 || decide (2 ^ 20 < fld w 42 22)
    || decide (2 ^ 43 ≤ w.toNat)

/-- A q trigger whose operand the unit refuses (R163, R313). -/
def qRefused (op : QOp) (k : Bank) (t : W) : Bool :=
  match op with
  | .enq => decide (2 ^ 16 ≤ t.toNat)
  | .deq => decide (2 ^ 16 ≤ t.toNat)
  | .arm => armRefused (portX k 0x172)
  | _ => false

/-- The pages that a range touches, each with its share (R146 for more than two pages). -/
def pagesOf : Nat → Nat → Nat → List (Nat × Nat)
  | 0, _, _ => []
  | k + 1, a, n =>
    if n = 0 then []
    else
      let m := min n (0x1000 - a % 0x1000)
      (a, m) :: pagesOf k (a + m) (n - m)

/-- What a store of a tagged capability to each page raises, where the page does not let tags pass: reason 0x6, at its
first byte (R240, check 11). -/
def pagesNoTag (x : Ctx) : Bool → List (Nat × Nat) → State → List (Option Flt)
  | _, [], _ => []
  | second, (a, _) :: ps, s =>
    (match xlate x.core (ctxAsid x) (wd a) .capStore (some x.k) s with
     | (_, .error e) => some (xFault e second .capStore (ctxAsid x) (wd a))
     | (_, .ok _) => none) :: pagesNoTag x true ps s

/-- The pages of a message buffer translated; SYSREG where one lies in the control space (R37, R83). -/
def qPages (x : Ctx) (om : Cap) (acc : Acc) (n : Nat) (s : State) : State × Except Flt Reach :=
  let l := pagesOf 18 om.addr.toNat n
  match xlatePages x acc false l s with
  | (s, .error f) => (s, .error f)
  | (s, .ok (ps, oks)) =>
    if ctxAsid x ≠ 0 ∧ ps.any (fun p => inControl p.1) ∧ !capHas om permSYSREG then
      (s, .error (capFault 0x1F om.addr n ⟨causePerm, 0x1, permSYSREG⟩))
    else (s, .ok { parts := ps, caps := oks, noTag := if accIsStore acc then pagesNoTag x false l s else [] })

/-- The check and translation of the message buffer (R164, R305, R306). -/
def qBuffer (x : Ctx) (op : QOp) (oc : Cap) (t : W) (s : State) : State × Except Flt Reach :=
  let om := portC x.k 0x171
  let n := fld t 15 0
  let a := om.addr.toNat
  match op with
  | .enq =>
    if n = 0 then (s, .ok {})
    else
      let tags := capHas oc permSTC
      match capCheck om a n ((if tags then permLD ||| permLDC else permLD)
          ||| sysregNeed (ctxAsid x) a n) tags false with
      | some f => (s, .error (capFault 0x1F om.addr n f))
      | none => qPages x om .load n s
  | .deq =>
    match capCheck om a n (permST ||| permSTC ||| sysregNeed (ctxAsid x) a n) (capHas oc permLDC) false with
    | some f => (s, .error (capFault 0x1F om.addr n f))
    | none => qPages x om .store n s
  | _ => (s, .ok {})

/-- The checks of a q trigger at issue, in order: R66, the table and bounds, the rights, the buffer, whose parts are
what the request reaches. -/
def qCheck (x : Ctx) (op : QOp) (t : W) (s : State) : State × Except Flt Reach :=
  let oc := portC x.k 0x170
  match sealedCheck oc (· == otypeQueue) with
  | some f => (s, .error (capFault 0x1F oc.addr 0 f))
  | none =>
    if !s.qReady then (s, .ok { free := true })
    else if !queueAddrOk s oc then (s, .error (capFault 0x1F oc.addr 0 ⟨causeBounds, 0x0, 0⟩))
    else if queueMissing op oc ≠ 0 then
      (s, .error (capFault 0x1F oc.addr 0 ⟨causePerm, 0x1, queueMissing op oc⟩))
    else qBuffer x op oc t s

/-- The region that manages a queue (R296). -/
def queueRegion (q : Nat) : Nat :=
  if 0x3FF80 ≤ q ∧ q < 0x3FF88 then (q - 0x3FF80) / 2 else q / 2 ^ 16

/-- A q request handed to its manager (R307). -/
def qSend (r : QReq) (s : State) : State :=
  let g := queueRegion r.queue
  { s with qman := tblSet g (tblGet [] s.qman g ++ [r]) s.qman }

/-- A q operation started, with its buffer as found at issue: the cell stalls until the answer; the request leaves once every
earlier store has been performed (R164, R280). With qbase not in force at the trigger the unit answers by itself (R298). A hub core has no
thread to block, and answers at level 0 as at the levels above it (DESIGN CHOICE, log entry 52). -/
def qStart (x : Ctx) (op : QOp) (t : W) (undo : Undo) (got : Reach) (s : State) : State :=
  let oc := portC x.k 0x170
  if got.free then
    let v := wd (0x04 + (Config.qCount s.fresh).toNat * 2 ^ 32)
    bumpFresh (modCell x.core (fun c => setBank x.b (markDirty 7 (setX 0x178 v (bankOf c x.b))) c) s)
  else
    let om := portC x.k 0x171
    let r : QReq :=
      { op := op, queue := (oc.addr.toNat - qtab s) / 64, core := x.core, slot := ctxSlot s x, bank := x.b,
        level := if 256 ≤ x.core then max 1 (bankLevel x.b) else bankLevel x.b, t := t, od := portX x.k 0x172,
        om := om.addr, parts := got.parts, caps := got.caps, noTag := got.noTag,
        carry := capHas oc (if op = .enq then permSTC else permLDC),
        stl := (if op = .enq then capHas oc permSTL else capHas om permSTL), asid := ctxAsid x }
    let sent := (cellOf s x.core).sb.isEmpty
    let s := modCell x.core (fun c => { c with stall := .q r sent none (some undo) }) s
    if sent then qSend r s else s

/-! trp. -/

/-- The trip table base (R367). -/
def tripBase (s : State) : Nat := regF s 0x62800000 47 20 * 2 ^ 20

/-- The permissions a trp trigger needs besides INVOKE (R370). -/
def tripPerms : TrpOp → BitVec 12
  | .inv => 0
  | .rel => permST
  | .query => permLD

/-- A TRIP capability designates what the trigger needs (R370): an object, or a voter record. -/
def tripAddrOk (s : State) (op : TrpOp) (c : Cap) : Bool :=
  let a := c.addr.toNat
  let o := (a - tripBase s) % 256
  let obj := o == 0 && capBase c == (a : Int) && capLen c == 256
  let voter := (o == 64 || o == 128 || o == 192) && capBase c == (a : Int) && capLen c == 64
  decide (tripBase s ≤ a) && decide (a < tripBase s + 2 ^ 20) &&
    (match op with
     | .inv => voter
     | .rel => obj
     | .query => obj || voter)

/-- tbase is set, as this core finds it (R367, R370). -/
def tripKnown (s : State) (core : Nat) : Bool := tripBase s != 0 && (cellOf s core).tbaseOk

/-- The checks of a trp trigger at issue (R66, R370). -/
def trpCheck (x : Ctx) (op : TrpOp) (t : Cap) (src : Nat) (s : State) : Option Flt :=
  match sealedCheck t (· == otypeTrip) with
  | some f => some (capFault src t.addr 0 f)
  | none =>
    if !tripKnown s x.core then none
    else if !capHas t (tripPerms op) then
      some (capFault src t.addr 0 ⟨causePerm, 0x1, tripPerms op &&& ~~~ (capPerms t)⟩)
    else if !tripAddrOk s op t then some (capFault src t.addr 0 ⟨causeBounds, 0x0, 0⟩)
    else none

/-- Invocations a cell may have unacknowledged (R168). -/
def trpCap : Nat := 4

/-- A trp request started (R167): at most four await acknowledgement, and a fifth holds issue. -/
def doTrp (x : Ctx) (op : TrpOp) (t : Cap) (s : State) : State :=
  let o := t.addr.toNat - tripBase s
  let c := cellOf s x.core
  let r : TrpReq :=
    { op := op, bank := x.b, obj := o / 256, voter := o % 256 / 64 - 1,
      word := (portX x.k 0x190).setWidth 32, ahead := c.sb.length,
      ans := if tripKnown s x.core then none else some 0x03, no := c.reqNo }
  let c := { c with reqNo := c.reqNo + 1 }
  setCell x.core (if c.trp.length < trpCap then { c with trp := c.trp ++ [r] }
    else { c with trpHeld := some r }) s

/-! sys. -/

/-- The authority of sys.t.invleaf and sys.t.invwalk: a tagged, unsealed capability with SYSREG (R169). -/
def sysregAuth (c : Cap) : Option CapFail :=
  if !c.tag then some ⟨causeTag, 0xA, 0⟩
  else if capSealed c then some ⟨causeSealed, 0x8, 0⟩
  else if !capHas c permSYSREG then some ⟨causePerm, 0x1, permSYSREG⟩
  else none

/-- sys.t.fence with a value other than 0 and 1 is refused (R169). -/
def sysRefused (op : SysOp) (t : W) : Bool := op == .fence && decide (2 ≤ t.toNat)

/-- The physical address that sys.t.ctlrd or sys.t.ctlwr reaches, or its fault (R169, R172). The spec says 'the cause of
R83 or R66' and not which: an untagged sys.oc faults under R83 at sys.oc's address + t, a sealed one that is not CONTROL
under R66 (DESIGN CHOICE, log entry 76). -/
def ctlTarget (x : Ctx) (write : Bool) (t : W) (s : State) : State × Except Flt Nat :=
  let oc := portC x.k 0x1A2
  let bad := fun (f : CapFail) => capFault 0x1F oc.addr 0 f
  if oc.tag && capSealed oc then
    match sealedCheck oc (· == otypeControl) with
    | some f => (s, .error (bad f))
    | none =>
      let a := oc.addr.toNat
      if a < partCell ∨ partTime ≤ a ∨ 0x10000 ≤ t.toNat ∨ t.toNat % 8 ≠ 0 then
        (s, .error (bad ⟨causeBounds, 0x0, 0⟩))
      else (s, .ok (a / 0x10000 * 0x10000 + t.toNat))
  else
    let va := oc.addr + t
    let need := (if write then permST else permLD) ||| permSYSREG
    match capCheck oc va.toNat 8 need false false with
    | some f => (s, .error (capFault 0x1F va 8 f))
    | none =>
      match xlate x.core (ctxAsid x) va (if write then .store else .load) (some x.k) s with
      | (s, .error e) =>
        (s, .error (xFault e false (if write then .store else .load) (ctxAsid x) va))
      | (s, .ok (pa, _)) => (s, .ok pa)

/-- sys.t.pwr's store (R523): an 8-byte store of sys.o at sys.oc's address with ST and SYSREG. -/
def pwrParts (x : Ctx) (s : State) : State × Except Flt (List (Nat × Nat) × Bool) :=
  let oc := portC x.k 0x1A2
  accessParts x oc 0x1F oc.addr 8 (permST ||| permSYSREG) false false .store s

/-- sys.t.gfence's target gate (R266): the checks of R83 with SYSREG alone, then a gate's block. -/
def gfenceTarget (t : Cap) (src : Nat) : Except Flt Nat :=
  match capCheck t t.addr.toNat 8 permSYSREG false false with
  | some f => .error (capFault src t.addr 0 f)
  | none =>
    match gateAt t.addr.toNat with
    | some g => .ok g
    | none => .error (capFault src t.addr 0 ⟨causeBounds, 0x0, 0⟩)

/-- What a sys trigger reaches in memory, or the fault of its checks at issue. -/
def sysReach (x : Ctx) (op : SysOp) (td : W) (tc : Cap) (src : Nat) (s : State) : State × Except Flt Reach :=
  let oc := portC x.k 0x1A2
  let auth : State × Except Flt Reach := match sysregAuth oc with
    | some f => (s, .error (capFault 0x1F oc.addr 0 f))
    | none => (s, .ok {})
  let ctl := fun (write : Bool) => match ctlTarget x write td s with
    | (s, .error f) => (s, .error f)
    | (s, .ok pa) => (s, .ok ({ parts := [(pa, 8)] } : Reach))
  match op with
  | .invleaf => auth
  | .invwalk => auth
  | .gfence =>
    match gfenceTarget tc src with
    | .error f => (s, .error f)
    | .ok _ => (s, .ok {})
  | .ctlrd => ctl false
  | .ctlwr => ctl true
  | .pwr =>
    match pwrParts x s with
    | (s, .error f) => (s, .error f)
    | (s, .ok (ps, _)) => (s, .ok { parts := ps })
  | _ => (s, .ok {})

/-- Cells in the scope of an invalidation (R22, R251). -/
def invScope (core scope : Nat) : List Nat :=
  if 256 ≤ core then
    (if scope = 3 then List.range 256
     else (List.range 64).map (fun i => (core - 256) * 64 + i))
  else match scope with
    | 0 => [core]
    | 1 => (List.range 16).map (fun i => core / 16 * 16 + i)
    | 2 => (List.range 64).map (fun i => core / 64 * 64 + i)
    | _ => List.range 256

/-- Invalidations a cell keeps that have not left it (R252). -/
def invCap : Nat := 16

/-- The bank of a merged invalidation: none, so that no bundle that is undone takes the others in it back (R92, R252). -/
def noBank : Nat := 12

/-- An invalidation queued; a seventeenth merges with those that have not left (R252). -/
def invQueue (core : Nat) (r : InvReq) (s : State) : State :=
  let c := cellOf s core
  let waiting := c.inv.filter (fun i => !i.left)
  let r := { r with no := c.reqNo }
  let c := { c with reqNo := c.reqNo + 1 }
  if waiting.length < invCap then setCell core { c with inv := c.inv ++ [r] } s
  else
    let m : InvReq := { r with walk := true, len := 0, all := true, glob := true, scope := 3, bank := noBank }
    let s := setCell core { c with inv := c.inv.filter (fun i => i.left) ++ [m] } s
    if core < 256 then recLvc (.cell core) (errEvent (.cell core) 0x05 core core 0 s) else s

/-- The invalidation that a trigger describes (R169, R251). -/
def invOf (x : Ctx) (walk : Bool) (t : W) (stores : Nat) : InvReq :=
  let o2 := portX x.k 0x1A1
  { walk := walk, va := portX x.k 0x1A0, len := t, asid := fld o2 7 0, all := bit o2 8,
    glob := bit o2 9, scope := fld o2 11 10, stores := stores, left := false, acks := [], bank := x.b }

/-- One key's rights set (R171). -/
def krSet (t : W) (k : Bank) : Bank :=
  let key := fld t 5 0
  let v := fld t 9 8
  markDirty 7 (if key < 32 then { k with krrl := setFld k.krrl (2 * key + 1) (2 * key) v }
    else { k with krrh := setFld k.krrh (2 * (key - 32) + 1) (2 * (key - 32)) v })

/-- An operation that writes sys.r after 2 cycles (R170). -/
def sysFly (x : Ctx) (v : W) (s : State) : State :=
  modCell x.core (fun c => { c with fly := c.fly ++
    [{ due := x.n + 1, bank := x.b, unit := .sys, wr := .ports [(0x1A8, v)] }] }) s

/-- A sys operation started, on what it was found to reach at issue (R169 to R172). A hub core has no thread
scheduler (R22): sys.t.yield at its level 0 has no effect (DESIGN CHOICE, log entry 52). At levels 1 to 7 a yield in
one bundle with br.t.eret keeps waiting set across the return, so that the resumed context waits (DESIGN CHOICE, log entry 118). -/
def sysStart (x : Ctx) (op : SysOp) (td : W) (tc : Cap) (src : Nat) (undo : Undo) (got : Reach) (s : State) : State :=
  let va := (portC x.k 0x1A2).addr + td
  let pa := (got.parts.headD (0, 0)).1
  let asid := if capSealed (portC x.k 0x1A2) then 0 else ctxAsid x
  let stall := fun (w : Stall) (s : State) => modCell x.core (fun c => { c with stall := w }) s
  match op with
  | .invleaf => invQueue x.core (invOf x false td (cellOf s x.core).sb.length) s
  | .invwalk => invQueue x.core (invOf x true td (cellOf s x.core).sb.length) s
  | .invsync => stall .invsync s
  | .fence => stall (.fence (td == 1)) s
  | .gfence =>
    match gfenceTarget tc src with
    | .ok g =>
      let sent := (cellOf s x.core).sb.isEmpty
      let s := stall (.gfence g sent) s
      if sent then gateFence g s else s
    | .error _ => s
  | .krset => modCell x.core (fun c => setBank x.b (krSet td (bankOf c x.b)) c) s
  | .ctlrd => stall (.ctl false va pa 0 asid (some undo)) s
  | .ctlwr => stall (.ctl true va pa (portX x.k 0x1A0) asid (some undo)) s
  | .pwr =>
    startStore x (portC x.k 0x1A2).addr false false got.parts (leBytes 8 (portX x.k 0x1A0).toNat) s
  | .yield =>
    modCell x.core (fun c =>
      if 5 ≤ x.b then { c with waiting := true }
      else if 256 ≤ x.core then c else { c with resched := true, yielded := c.cur }) s
  | .cyc => sysFly x (wd (x.k.cyc + 1)) s
  | .time => sysFly x (timeWord s) s

/-! A request and its checks, as a pair sends it later than it checks it (R603). -/

/-- What a q, trp or sys trigger reaches, or the fault of its checks at issue. -/
def reqCheck (x : Ctx) (t : Trig) (td : W) (tc : Cap) (src : Nat) (s : State) : State × Except Flt Reach :=
  match t with
  | .q op => qCheck x op td s
  | .sys op => sysReach x op td tc src s
  | .trp op =>
    match trpCheck x op tc src s with
    | some f => (s, .error f)
    | none => (s, .ok {})
  | _ => (s, .ok {})

/-- A q, trp or sys request started on what it was found to reach. -/
def reqStart (x : Ctx) (t : Trig) (td : W) (tc : Cap) (src : Nat) (undo : Undo) (got : Reach) (s : State) : State :=
  match t with
  | .q op => qStart x op td undo got s
  | .trp op => doTrp x op tc s
  | .sys op => sysStart x op td tc src undo got s
  | _ => s

end Sys2Proof.Machine
end

