-- ==== Sys2Proof/Machine/Points.lean ====
section
/-! DEFINITION. What waits for an interrupt point, and comes before the next bundle (R176, R196, R206, R207): pending
events, and a choice of the scheduler. -/

namespace Sys2Proof.Machine

/-! Pending events (R207). -/

/-- The pending event that an entry takes. -/
inductive Pend where
  | mchk
  | spill
  | lse
  | irq (n : Nat)
  deriving DecidableEq, Repr

/-- The delivery level of an interrupt source at a core (R216); 0 when it is disabled or reserved. -/
def irqLevel (s : State) (core n : Nat) : Nat :=
  let l := regF s (ctlBase core + 0x400 + 8 * n) 2 0
  if l = 7 then 0 else l

/-- The level at which a machine check is delivered: its own where it is deliverable there, else 7 (R206, R214). -/
def mchkLevel (s : State) (core : Nat) (esc : Bool) : Nat :=
  if !esc && deliverable (cellOf s core) (dlvlMchk s core) then dlvlMchk s core else 7

/-- The oldest machine check that waits. -/
def pendingMchk (s : State) (core : Nat) : List (Nat × Pend) :=
  match (cellOf s core).mchk with
  | [] => []
  | e :: _ => [(mchkLevel s core e.2, Pend.mchk)]

/-- The interrupt sources that are pending, lowest first. -/
def pendingSources (c : Cell) : List Nat :=
  if c.ipend = 0 then [] else (List.range 128).filter (fun n => c.ipend.getLsbD n)

/-- Pending events that are held until they are deliverable, in the order of R207 at equal levels, each with its
level. -/
def pendingHeld (s : State) (core : Nat) : List (Nat × Pend) :=
  let c := cellOf s core
  (if c.spillEv.isEmpty then [] else [(7, Pend.spill)])
  ++ (if c.lse.isEmpty then [] else [(dlvlLse s core, Pend.lse)])
  ++ (pendingSources c).map (fun n => (irqLevel s core n, Pend.irq n))

/-- The event that is taken: deliverable, of the highest level, the first of equals (R207). A machine check is never
held back (R206). -/
def nextEvent (s : State) (core : Nat) : Option (Nat × Pend) :=
  minBy (fun e => 7 - e.1)
    (pendingMchk s core ++ (pendingHeld s core).filter (fun e => deliverable (cellOf s core) e.1))

/-! The scheduler's choice (R195 to R198). -/

/-- Threads that the scheduler may choose: the ready ones, and the running one when `self` is set. -/
def choices (c : Cell) (self : Bool) : List (Nat × ThSlot) :=
  c.slots.filter (fun e => e.2.state == 1 || (self && e.2.state == 2 && c.cur == some e.1))

/-- The choice (R196): the highest priority, then the least recently run; the running thread ran last. Of threads that
have run equally long ago, or never, the first in the slot table is chosen (DESIGN CHOICE, log entry 51). -/
def chooseThread (c : Cell) (self : Bool) : Option Nat :=
  let l := choices c self
  match minBy (fun e => 15 - e.2.prio) l with
  | none => none
  | some m =>
    (minBy (fun e => if c.cur = some e.1 then c.ticket else e.2.last)
      (l.filter (fun e => e.2.prio == m.2.prio))).map (fun e => e.1)

/-- The running thread's quantum is used up and another ready thread has its priority (R196). -/
def quantumDue (c : Cell) : Bool :=
  match c.cur with
  | none => false
  | some n =>
    let t := slotOf c n
    t.quantum != 0 && decide (t.quantum ≤ t.used)
      && c.slots.any (fun e => e.1 != n && e.2.state == 1 && e.2.prio == t.prio)

/-- A choice is due (R196). -/
def choiceDue (c : Cell) : Bool :=
  c.resched || quantumDue c ||
    (match c.cur with
     | none => true
     | some n => (slotOf c n).state != 2 || c.slots.any (fun e => e.2.state == 1 && decide ((slotOf c n).prio < e.2.prio)))

/-- The slot that holds a thread bank. -/
def holderOf (c : Cell) (b : Nat) : Option Nat :=
  (c.slots.find? (fun e => e.2.state != 0 && e.2.bank == some b)).map (fun e => e.1)

/-- A free thread bank (R198): the lowest that no thread holds, or else the one whose written-back thread ran least recently
(DESIGN CHOICE, log entry 121). -/
def freeBank (c : Cell) : Option Nat :=
  match (List.range 5).find? (fun b => (holderOf c b).isNone) with
  | some b => some b
  | none =>
    match minBy (fun e => e.2.last) (c.slots.filter (fun e => e.2.clean && e.2.state != 2)) with
    | some e => e.2.bank
    | none => none

/-- The thread that a choice gives, and has a bank to run from at once or by a restore. -/
def placeable (c : Cell) (n : Nat) : Bool := (slotOf c n).bank.isSome || (freeBank c).isSome

/-- At an interrupt point a choice comes before the next bundle (R196): one that was asked for, one that the running
thread's state asks for, or one that gives another thread that can be placed. A hub core has no scheduler (R22). -/
def choiceFirst (core : Nat) (c : Cell) : Bool :=
  decide (core < 256) && decide (c.run ≤ 4) && choiceDue c &&
    (c.resched || (match c.cur with | some n => (slotOf c n).state != 2 || (slotOf c n).want.isSome | none => true)
      || (match chooseThread c true with
        | some n => c.cur != some n && placeable c n
        | none => false))

/-- What an interrupt point is taken for: a requested stop, an event that is deliverable, or a choice (R196, R207,
R217). -/
def comesFirst (s : State) (core : Nat) : Bool :=
  let c := cellOf s core
  c.stopReq || (nextEvent s core).isSome || choiceFirst core c

/-- Something comes before the next bundle, which stands at an interrupt point. -/
def pointFirst (s : State) (core : Nat) : Bool := !inSequence (runBank (cellOf s core)) && comesFirst s core

/-- An interrupt point lies between elements of a block transfer (R118, R150, R176): in a repeated bundle and in a delay
bundle too, as R176 gives this stall no exception (DEDUCED, log entry 77), but not within a br.t.repn or its prefix
(R187). None lies before the first element, unless it has ended in a machine check. -/
def elemPoint (c : Cell) (o : BlkOp) : Bool :=
  (decide (o.start < c.now) || !c.mchk.isEmpty) && !o.nint && !((runBank c).ract && (runBank c).rnint)

/-- A change asked of the interrupted thread takes effect at an interrupt point of the level that runs (R201). -/
def pointWant (c : Cell) : Cell := if 5 ≤ c.run ∧ !inSequence (runBank c) then applyWant c else c

/-- Bundles may issue: nothing holds the core, its block and region are in service (R43, R288), and nothing comes
first. -/
def mayIssue (s : State) (core : Nat) : Bool :=
  canIssue (cellOf s core) && coreInService s core && !pointFirst s core

/-- The levels that are active, from the running one down, by their banks (R191). -/
def activeLevels (c : Cell) : Nat → Nat → List Nat
  | 0, _ => []
  | f + 1, b => if b < 5 then [] else b :: activeLevels c f (4 + fld (bankOf c b).cause 14 12)

/-- The active level that has interrupted a bank. -/
def interrupter (c : Cell) (b : Nat) : Option Nat :=
  if b ≤ 4 ∧ !(match c.cur with | some n => (slotOf c n).bank == some b | none => false) then none
  else (activeLevels c 8 c.run).find? (fun h => decide (4 + fld (bankOf c h).cause 14 12 = max 4 b))

/-! Register-bank parity (R214). -/

/-- A register-bank parity error: poison, and the slot of a thread bank fails; the machine check is escalated, or the
core stops. -/
def bankParity (core b : Nat) (s : State) : State :=
  let f : Flt := { code := causeMchk, faddr := 0, finfo := wd (0x5 + b * 2 ^ 4) }
  let s := modCell core (fun c =>
    let c := setBank b { bankOf c b with poison := true } c
    match holderOf c b with
    | some n => if b ≤ 4 then setSlot n { slotOf c n with state := 5 } c else c
    | none => c) s
  let s := if core < 256 then errEvent (.cell core) 0x03 core b 0 s else s
  if b = 11 then (if (cellOf s core).stopped then s else stopCell core (some (f, 7)) s) else raiseMchk core f true s

end Sys2Proof.Machine
end

