-- ==== Sys2Proof/Machine/Issue.lean ====
section
/-! DEFINITION. The issue of a bundle (chapters 3 and 5): fetch check, reserved encodings, the two phases,
faults, and what follows a bundle. Every trigger row of the table is a bundle issued here. -/

namespace Sys2Proof.Machine

/-! Reserved encodings (R107, R110, R119, R120). -/

/-- An UNDEF reason found: reason, slot B, whole bundle, port, word. -/
structure Undef where
  reason : Nat
  slotB  : Bool
  whole  : Bool
  port   : Nat
  word   : BitVec 32
  faddr  : Option W
  deriving DecidableEq, Repr

/-- The reasons of one slot (R119), the destination before the source for reason 0x3. -/
def slotUndef (hub : Bool) (lvl : Nat) (isB : Bool) (t : Slot) : List Undef :=
  let d := t.dst.toNat
  let p := t.src.toNat
  let mk := fun (r port : Nat) => ({ reason := r, slotB := isB, whole := false, port := port,
                                      word := t.word, faddr := none } : Undef)
  (if t.form = 3 then [mk 0x1 0] else [])
  ++ (if t.form = 0 ∧ t.low.extractLsb' 0 6 ≠ 0 then [mk 0x2 0] else [])
  ++ (if t.form = 2 ∧ !isB ∧ t.low ≠ 0 then [mk 0x2 0] else [])
  ++ (if portKind hub d = .reserved then [mk 0x3 d] else [])
  ++ (if t.form = 0 ∧ portKind hub p = .reserved then [mk 0x3 p] else [])
  ++ (if !dstOk hub lvl d then [mk 0x4 d] else [])
  ++ (if t.form = 0 ∧ !srcOk hub p then [mk 0x5 p] else [])
  ++ (if t.form = 2 ∧ isB then [mk 0x7 0] else [])
  ++ (if lvl = 0 ∧ d = 0x12F then [mk 0xC d] else [])

/-- The trigger a slot names, if any. -/
def slotTrig (hub : Bool) (t : Slot) : Option Trig :=
  match portKind hub t.dst.toNat with
  | .trig g => some g
  | _ => none

/-- A control move (R108). -/
def isControl (hub : Bool) (t : Slot) : Bool :=
  match portKind hub t.dst.toNat with
  | .trig (.br _) => true
  | .ctlD => true
  | .ctlC => true
  | _ => false

/-- Triggers that share a path (R107). -/
def sharePath (a b : FU) : Bool :=
  let long := fun (u : FU) => u == .div || u == .cap || u == .ph
  let req := fun (u : FU) => u == .q || u == .trp || u == .sys
  a == b || (long a && long b) || (req a && req b)

/-- The pairing rules broken by two slots that both count (R107). -/
def pairBroken (hub : Bool) (a b : Slot) : Bool :=
  (match slotTrig hub a, slotTrig hub b with
   | some x, some y => sharePath (trigUnit x) (trigUnit y)
   | _, _ => false)
  || a.dst == b.dst
  || (isControl hub a && isControl hub b)

/-- A slot that breaks the sequence rules where the bundle stands (R110, R182). -/
def seqBroken (hub : Bool) (k : Bank) (t : Slot) : Bool :=
  !slotNever t &&
  (((decide (0 < k.dly) || k.ract || decide (0 < k.seqChk)) && isControl hub t)
   || (k.ract && k.rnint && (match slotTrig hub t with | some (.blk _) => true | _ => false)))

/-- Every UNDEF reason of a bundle that its encoding and its place show (R119). -/
def staticUndefs (hub : Bool) (lvl : Nat) (k : Bank) (a b : Slot) : List Undef :=
  let long := a.form == 2
  let whole := fun (r : Nat) (isB : Bool) (t : Slot) =>
    ({ reason := r, slotB := isB, whole := true, port := t.dst.toNat, word := t.word,
       faddr := none } : Undef)
  slotUndef hub lvl false a
  ++ (if long then [] else slotUndef hub lvl true b)
  ++ (if !long && !slotNever a && !slotNever b && pairBroken hub a b then [whole 0x6 true b] else [])
  ++ (if !long && seqBroken hub k b then [whole 0x9 true b]
      else if seqBroken hub k a then [whole 0x9 false a] else [])

/-- The reason reported: the lowest, slot A first (R120). -/
def worstUndef (l : List Undef) : Option Undef :=
  minBy (fun u => u.reason * 2 + b2n u.slotB) l

/-- The fault that an UNDEF reason raises (R120). -/
def undefFlt (pc : W) (u : Undef) : Flt :=
  { code := causeUndef, faddr := u.faddr.getD pc,
    finfo := undefFinfo u.reason u.slotB u.whole u.port u.word }

/-- The fetch check of a bundle against pcc and the bounds that it keeps (R83): every failure is NXFETCH with its
kind. -/
def fetchFail (k : Bank) : Option Flt :=
  let l := k.lim.getD (capBase k.pcc, capTop k.pcc)
  (boundsCheck k.pcc l.1 l.2 k.pcc.addr.toNat 8 permEX false false).map (fun f =>
    capFault 0x10 k.pcc.addr 8 { f with cause := causeNxfetch })

/-! Phase 1 (R90): guards and sources. -/

/-- A slot executes (R97). -/
def slotActive (k : Bank) (t : Slot) : Bool :=
  if t.gsel = 0 then !t.ginv else xor (k.g.getLsbD t.gsel.toNat) t.ginv

/-- The move of a slot, its source read; a long immediate's source is the other slot's word (R95). -/
def slotMove (hub : Bool) (c : Cell) (isB : Bool) (t : Slot) (lit : BitVec 32) : Move :=
  { slotB := isB, word := t.word, dst := t.dst.toNat,
    src := if t.form = 0 then t.src.toNat else srcImm,
    val := if t.form = 0 then readPort hub c c.run t.src.toNat
      else if t.form = 1 then .d (t.low.signExtend 64) else .d (lit.signExtend 64) }

/-- The moves that a bundle executes, slot A first. -/
def activeMoves (hub : Bool) (c : Cell) (a b : Slot) : List Move :=
  let k := runBank c
  let long := a.form == 2
  (if slotActive k a then [slotMove hub c false a b.word] else [])
  ++ (if !long && slotActive k b then [slotMove hub c true b 0] else [])

def moveTrig (hub : Bool) (m : Move) : Option Trig :=
  match portKind hub m.dst with
  | .trig t => some t
  | _ => none

/-- The operand-port writes of a bundle, seen by its own triggers (R90). -/
def operandView (hub : Bool) (ms : List Move) (k : Bank) : Bank :=
  ms.foldl (fun k m =>
    match portKind hub m.dst with
    | .opD => writePort hub m.dst m.src m.val k
    | .opC => writePort hub m.dst m.src m.val k
    | _ => k) k

/-! Refused operands and other UNDEF reasons of executed moves (R119, reasons 0x8, 0xA, 0xB). -/

/-- A branch target that is not a multiple of 8 (R93, R154, R210): the target. The entry address of br.t.gate and the
resume address of br.t.gret have no such check: R226 lists none (DESIGN CHOICE, log entry 53). -/
def badTarget (x : Ctx) (op : BrOp) (td : W) (tc : Cap) : Option W :=
  let chk := fun (a : W) => if a.toNat % 8 ≠ 0 then some a else none
  match op with
  | .br => chk (brTarget x.k.pcc.addr op td tc)
  | .call => chk (brTarget x.k.pcc.addr op td tc)
  | .jmp => chk td
  | .jc => if (jumpCheck tc).isNone then chk tc.addr else none
  | .callc => if (jumpCheck tc).isNone then chk tc.addr else none
  | .eret => if (jumpCheck x.k.fpcc).isNone then chk x.k.fpcc.addr else none
  | _ => none

/-- An operand value that the unit refuses (R126). -/
def operandRefused (x : Ctx) (t : Trig) (td : W) : Bool :=
  match t with
  | .blk _ => decide (2 ^ 52 ≤ (portX x.k 0x0C1).toNat)
  | .ph _ => phRefused td
  | .q op => qRefused op x.k td
  | .trp .inv => decide (2 ^ 32 ≤ (portX x.k 0x190).toNat)
  | .sys op => sysRefused op td
  | _ => false

/-- The UNDEF reasons of an executed trigger move. -/
def moveUndef (hub : Bool) (x : Ctx) (m : Move) : List Undef :=
  let mk := fun (r : Nat) (fa : Option W) =>
    ({ reason := r, slotB := m.slotB, whole := false, port := m.dst, word := m.word,
       faddr := fa } : Undef)
  match moveTrig hub m with
  | none => []
  | some t =>
    let td := valD m.val
    (match t with
     | .br .repn => if 64 < fld td 31 0 then [mk 0x8 none] else []
     | .br op =>
       match badTarget x op td (valC m.val) with
       | some a => [mk 0xA (some a)]
       | none => []
     | _ => [])
    ++ (if operandRefused x t td then [mk 0xB none] else [])

/-! Checks of executed triggers, precise at the bundle. -/

/-- The capability named by finfo.src for the operand of a c-class trigger (R84). -/
def moveSrc (m : Move) : Nat := srcCode m.src

/-- A failed cap operation's fault (R84). -/
def capOpFault (x : Ctx) (m : Move) (who : Who) (f : CapFail) : Flt :=
  match who with
  | .operand => capFault 0x1F (portC x.k 0x100).addr 0 f
  | .authority => capFault (moveSrc m) (valC m.val).addr 0 f

/-- The bytes that a phasor window spans (R158). -/
def phBytes (t : W) : Nat := if phFmt t then 512 else 4 * phN t

/-- The check of a window, for which no bundle waits (R158, R161, R268, R270). -/
def phReach (x : Ctx) (t : W) (s : State) : State × Except Flt (List (Nat × Nat) × Bool) :=
  let oc := portC x.k 0x160
  match unstalled x.core (readParts x oc 0x1F oc.addr (phBytes t) permLD false) s with
  | (s, .ok r) =>
    if x.ret = .pathFail then (s, .error (gateFault oc.addr false ⟨0x07, none, 63⟩)) else (s, .ok r)
  | r => r

/-- The fault of an executed trigger, if any; the state follows walks and gate events. -/
def trigCheck (x : Ctx) (m : Move) (t : Trig) (s : State) : State × Option Flt :=
  let td := valD m.val
  let tc := valC m.val
  match t with
  | .div _ =>
    (s, if td = 0 then some { code := causeDivz, faddr := x.k.pcc.addr, finfo := wd (m.dst * 2 ^ 8) }
        else none)
  | .load n _ => checkOf (loadParts x td n false s)
  | .ldc => checkOf (loadParts x td 16 true s)
  | .store n => checkOf (storeParts x td n s)
  | .stc => checkOf (stcParts x td s)
  | .blk _ => (s, blkCheck x td)
  | .cap op =>
    match capOp op (portC x.k 0x100) td tc with
    | .fail who f => (s, some (capOpFault x m who f))
    | _ => (s, none)
  | .br .jc => (s, (jumpCheck tc).map (capFault (moveSrc m) tc.addr 8))
  | .br .callc => (s, (jumpCheck tc).map (capFault (moveSrc m) tc.addr 8))
  | .br .eret => (s, (jumpCheck x.k.fpcc).map (capFault 0x12 x.k.fpcc.addr 8))
  | .br .gate =>
    match gatePlan x tc (moveSrc m) s with
    | (s, .error f) => (s, some f)
    | (s, .ok _) => (s, none)
  | .br .gret =>
    match gretPlan x tc s with
    | (s, .error f) => (s, some f)
    | (s, .ok _) => (s, none)
  | .ph _ => checkOf (phReach x td s)
  | .q _ => checkOf (reqCheck x t td tc (moveSrc m) s)
  | .trp _ => checkOf (reqCheck x t td tc (moveSrc m) s)
  | .sys _ => checkOf (reqCheck x t td tc (moveSrc m) s)
  | _ => (s, none)

/-- The first fault among the executed triggers, slot A's first (R92). -/
def checkAll (hub : Bool) (x : Ctx) : List Move → State → State × Option Flt
  | [], s => (s, none)
  | m :: ms, s =>
    match moveTrig hub m with
    | none => checkAll hub x ms s
    | some t =>
      match trigCheck x m t s with
      | (s, some f) => (s, some f)
      | (s, none) => checkAll hub x ms s

/-! Phase 2: triggers carried out. -/

/-- A result written one cycle after the trigger: in the issue cycle itself (R123). -/
def write1 (x : Ctx) (f : Bank → Bank) (s : State) : State :=
  modCell x.core (fun c => setBank x.b (markDirty 7 (f (bankOf c x.b))) c) s

/-- An operation with a latency of `lat` cycles (R123). -/
def startFly (x : Ctx) (lat : Nat) (u : LatUnit) (w : Wr) (s : State) : State :=
  modCell x.core (fun c => { c with fly := c.fly ++
    [{ due := x.n + lat - 1, bank := x.b, unit := u, wr := w }] }) s

/-- An alu operation (R127, R128): its result, and a compare's guard. -/
def aluDo (unit1 : Bool) (op : AluOp) (x : Ctx) (t : W) (k : Bank) : Bank :=
  let base := if unit1 then 0x060 else 0x040
  let o := portX x.k base
  let k := setX (base + 2) (aluResult op o t) k
  match aluCompare op o t with
  | some b => setGuard (compareGuard (portX x.k (base + 1))) b k
  | none => k

/-- The samples of a phasor window, oldest first, and its invalid and substituted flags (R158, R160). -/
def phWindow (t : W) (bs : List Byte) : List Int × Bool × Bool :=
  let n := phN t
  let val := fun (b : List Byte) => (BitVec.ofNat 32 (leNat b)).toInt
  if phFmt t then
    let es := (List.range n).map (fun i => slice bs (8 * ((phNewest t + 64 - n + 1 + i) % 64)) 8)
    (es.map (fun e => val (e.take 4)),
     es.any (fun e => (leNat e).testBit 47), es.any (fun e => (leNat e).testBit 46))
  else ((List.range n).map (fun i => val (slice bs (4 * i) 4)), false, false)

/-- The window is near: every byte in the cell store or the data cache (R161). -/
def phNear (s : State) (core : Nat) (ps : List (Nat × Nat)) : Bool :=
  ps.all (fun p => ownStore core [p] || dHit s core p.1 p.2)

/-- A phasor fit started (R159, R161): the window is read at the trigger, from memory without the stores that the core
still buffers (DESIGN CHOICE, log entry 78). Lines fetched from further away extend its latency by a free value. An
uncorrectable error there is a machine check, and nothing is written (R214). -/
def phDo (x : Ctx) (track : Bool) (t : W) (s : State) : State :=
  match phReach x t s with
  | (s, .error _) => s
  | (s, .ok (ps, _)) =>
    match partsRet s false ps x.ret with
    | (.uncorrectable, pa, _) =>
      raiseMchk x.core (mchkFlt s x.core (portC x.k 0x160).addr pa false) false (uncorrectableAt x.core pa (bumpFresh s))
    | (_, pa, _) =>
      let s := if x.ret = .corrected then correctedAt x.core pa s else s
      let w := phWindow t (partsRead s ps)
      let r := phResult track ((portX x.k 0x161).toNat % 2 ^ 32) w.1 w.2.1 w.2.2
      let far := if phNear s x.core ps then 0 else Config.phFetch s.fresh
      let job : NpJob := { bank := x.b, lat := phLatency track (phN t) + far,
                           wr := [(0x162, r.1), (0x163, r.2)] }
      let s := modCell x.core (fun c => { c with ph := npTrigger x.n job c.ph }) s
      linesFill x.core ps (if phNear s x.core ps then s else bumpFresh s)

/-- A division started (R130 to R133). -/
def divDo (x : Ctx) (signed : Bool) (t : W) (s : State) : State :=
  let o := portX x.k 0x090
  let r := divResult signed o t
  let job : NpJob := { bank := x.b, lat := divLatency signed o t,
                       wr := [(0x091, r.1), (0x092, r.2)] }
  modCell x.core (fun c => { c with div := npTrigger x.n job c.div }) s

/-- A block save or restore begun or resumed (R147 to R151): it holds issue, with the bundle's other move waiting for
its end, and the bank `k0` as the execution started, on which that move acts. -/
def blkDo (x : Ctx) (restore : Bool) (t : W) (k0 : Bank) (other : Option Move) (nint : Bool) (got : Reach)
    (wa wb : BitVec 32) (s : State) : State :=
  let mask : BitVec 52 := (portX x.k 0x0C1).setWidth 52
  let o : BlkOp := { restore := restore, mask := mask, base := memAddr x t, oc := portC x.k 0x0C0,
                     src := x.k.memSrc, other := other, k0 := k0, start := x.n, wa := wa, wb := wb,
                     nint := nint, got := got }
  modCell x.core (fun c =>
    let k := bankOf c x.b
    let k := markDirty 7 { k with done := if k.act then k.done else 0, act := true, dir := restore }
    { setBank x.b k c with stall := .blk o, stallPc := some k0.pcc.addr }) s

/-- A br trigger carried out. -/
def brDo (x : Ctx) (op : BrOp) (m : Move) (s : State) : State :=
  let td := valD m.val
  let tc := valC m.val
  let onBank := fun (f : Bank → Bank) => modCell x.core (fun c => setBank x.b (f (bankOf c x.b)) c) s
  match op with
  | .rep => onBank (repStart false td)
  | .repn => onBank (repStart true td)
  | .gate =>
    match gatePlan x tc (moveSrc m) s with
    | (s, .ok p) => modCell x.core (passCycles (gateCycles .gate)) (gateEnter x tc p s)
    | (s, .error _) => s
  | .gret =>
    match gretPlan x tc s with
    | (s, .ok p) => modCell x.core (passCycles (gateCycles .gret)) (gretLeave x p s)
    | (s, .error _) => s
  | .eret => exceptionReturn x.core s
  | op => onBank (brTake op td tc)

/-- A trigger carried out, after every check (R86, R90). -/
def trigDo (x : Ctx) (m : Move) (t : Trig) (undo : Undo) (s : State) : State :=
  let td := valD m.val
  let tc := valC m.val
  match t with
  | .alu u op => write1 x (aluDo u op x td) s
  | .mul op => startFly x 3 .mul (.ports [(0x081, mulResult op (portX x.k 0x080) td)]) s
  | .div sg => divDo x sg td s
  | .shf op => write1 x (setX 0x0A2 (shfResult op (portX x.k 0x0A0) (portX x.k 0x0A1) td)) s
  | .load n sg => doLoad x td n sg undo s
  | .ldc => doLdc x td undo s
  | .store n => doStore x td n s
  | .stc => doStc x td s
  | .blk r => blkDo x r td undo.bank none false {} m.word m.word s
  | .pf => doPf x td s
  | .cap op =>
    match capOp op (portC x.k 0x100) td tc with
    | .cap c => startFly x 2 .cap (.cport 0x101 c) s
    | .word w => startFly x 2 .cap (.ports [(0x102, w)]) s
    | .fail _ _ => s
  | .br op => brDo x op m s
  | .mac op => startFly x 4 .macAcc (.acc op (fld (portX x.k 0x141) 1 0) (portX x.k 0x140) td) s
  | .macRd op =>
    startFly x 2 .macRd
      (.ports [(0x142, macReadout op (tblGet 0 x.k.a (fld (portX x.k 0x141) 1 0)) td)]) s
  | .stclr => write1 x (clearSticky td) s
  | .ph tr => phDo x tr td s
  | t =>
    match reqCheck x t td tc (moveSrc m) s with
    | (s, .ok got) => reqStart x t td tc (moveSrc m) undo got s
    | (s, .error _) => s

/-! What follows a bundle. -/

/-- The bank moves on from a completed bundle: repetitions, delay bundles, the next address (R109, R112 to
R117, R181, R182). `k0` is the bank at the start of the bundle. -/
def advance (k0 : Bank) (skip : Bool) (delayed : Bool) (k : Bank) : Bank :=
  let chk := if delayed then 2 else k0.seqChk - 1
  let next := fun (d : W) (k : Bank) =>
    { k with pcc := capFollow k.pcc (k.pcc.addr + d), lim := limAt k.pcc k.lim (k.pcc.addr + d), seqChk := chk }
  if k0.ract then
    if k0.rcnt ≤ 1 then next 8 { k with rcnt := 0, ract := false, rnint := false, rpre := false }
    else { k with rcnt := k0.rcnt - 1, rpre := false, seqChk := k0.seqChk }
  else if 0 < k0.dly then
    if k0.dly = 1 then
      { k with dly := 0, pcc := k.pend, lim := k.pendLim, pend := Cap.null, pendLim := none, seqChk := chk }
    else next 8 { k with dly := k0.dly - 1 }
  else next (if skip then 16 else 8) k

/-- A slot holds a br trigger with delay bundles, whatever its guard (R182): the next two bundles that issue are checked
(DEDUCED, log entry 71). -/
def slotDelayed (hub : Bool) (t : Slot) : Bool :=
  !slotNever t && (match slotTrig hub t with | some (.br op) => brDelayed op | _ => false)

/-- A move is a repeat prefix with a count of 0 (R114). -/
def repZero (hub : Bool) (m : Move) : Bool :=
  match moveTrig hub m with
  | some (.br .rep) => fld (valD m.val) 31 0 == 0
  | some (.br .repn) => fld (valD m.val) 31 0 == 0
  | _ => false

/-- A move is a br.t.repn prefix (R187). -/
def isRepn (hub : Bool) (m : Move) : Bool :=
  match moveTrig hub m with
  | some (.br .repn) => true
  | _ => false

/-- A move changes the flow of control by itself: the address after it is not the next bundle's. -/
def movesAway (hub : Bool) (m : Move) : Bool :=
  match moveTrig hub m with
  | some (.br .gate) => true
  | some (.br .gret) => true
  | some (.br .eret) => true
  | _ => false

/-- A move starts a block save or restore, which completes later (R148). -/
def isBlk (hub : Bool) (m : Move) : Bool :=
  match moveTrig hub m with
  | some (.blk _) => true
  | _ => false

/-- A move triggers the mem unit. -/
def isMem (hub : Bool) (m : Move) : Bool :=
  match moveTrig hub m with
  | some t => trigUnit t == .mem
  | none => false

/-- A move triggers q, trp or sys (R603). -/
def isReq (hub : Bool) (m : Move) : Bool :=
  match moveTrig hub m with
  | some t => trigUnit t == .q || trigUnit t == .trp || trigUnit t == .sys
  | none => false

/-- The register, operand and control-port writes of moves that are no trigger, into a bank. -/
def plainMoves (hub : Bool) (ms : List Move) (k : Bank) : Bank :=
  ms.foldl (fun k m => if (moveTrig hub m).isSome then k else writePort hub m.dst m.src m.val k) k

/-- Triggers carried out in order. -/
def trigAll (hub : Bool) (x : Ctx) (undo : Undo) (ms : List Move) (s : State) : State :=
  ms.foldl (fun s m =>
    match moveTrig hub m with
    | some t => trigDo x m t undo s
    | none => s) s

/-- The writes of operations in flight that fall in cycle `n`, on the values that the bank then holds; the moves of the
bundle prevail over them and over the units' own writes of that cycle (R91, R155, R171). -/
def lateWrites (hub : Bool) (x : Ctx) (ms : List Move) (s : State) : State :=
  modCell x.core (fun c =>
    let c := npRetire x.n (flyRetire x.n c)
    setBank x.b (plainMoves hub ms (bankOf c x.b)) c) s

/-- The register groups that the moves of a bundle write (R194): a mac trigger its accumulator, any other trigger group
S. -/
def moveGroups (hub : Bool) (ms : List Move) : BitVec 8 :=
  ms.foldl (fun g m => g ||| BitVec.ofNat 8 (2 ^ (match moveTrig hub m with
    | some (.mac _) => 6
    | some _ => 7
    | none => groupOf m.dst))) 0

/-- The core's state before a bundle, to be put back under an enqueue that faults (R92, R165). -/
def undoOf (b : Nat) (c : Cell) : Undo :=
  { bank := bankOf c b, fly := c.fly, div := c.div, ph := c.ph, no := c.reqNo }

/-- The bank advanced after its bundle, and the repeated bundle held while repetitions remain (R185). -/
def finishBundle (hub : Bool) (x : Ctx) (k0 : Bank) (a b : Slot) (ms : List Move) (s : State) : State :=
  modCell x.core (fun c =>
    if ms.any (movesAway hub) then
      { c with held := none, stallPc := if c.stall = .none then none else some k0.pcc.addr }
    else
      let k := advance k0 (ms.any (repZero hub)) (slotDelayed hub a || (a.form != 2 && slotDelayed hub b))
        (bankOf c x.b)
      let c := setBank x.b k c
      { c with held := if k.ract && k0.ract then some (a.word, b.word) else none,
               stallPc := if c.stall = .none then none else some k0.pcc.addr }) s

/-- A move triggers a load. -/
def isLoad (hub : Bool) (m : Move) : Bool :=
  match moveTrig hub m with
  | some (.load _ _) => true
  | some .ldc => true
  | _ => false

/-- What a request of a bundle reaches, as its checks at issue find it (R603). -/
def moveReach (hub : Bool) (x : Ctx) (m : Move) (s : State) : Reach :=
  match moveTrig hub m with
  | some t =>
    (match reqCheck x t (valD m.val) (valC m.val) (moveSrc m) s with
     | (_, .ok got) => got
     | (_, .error _) => {})
  | none => {}

/-- A request carried out on what it was found to reach at issue (R603). -/
def moveStart (hub : Bool) (x : Ctx) (m : Move) (undo : Undo) (got : Reach) (s : State) : State :=
  match moveTrig hub m with
  | some t => reqStart x t (valD m.val) (valC m.val) (moveSrc m) undo got s
  | none => s

/-- The second request of a pair sent, in the cycle that has just passed, and the bundle completed (R603). `ms` are the
moves of the bundle that have been carried out. -/
def secondRequest (hub : Bool) (x : Ctx) (k0 : Bank) (a b : Slot) (ms : List Move) (r : Move) (got : Reach) (s : State) :
    State :=
  let c := cellOf s x.core
  let x := { x with n := c.now - 1 }
  finishBundle hub x k0 a b ms (moveStart hub x r (undoOf x.b c) got s)

/-- The loads of a core have all come: what is left of their latency passes, and they write (R140, R603). -/
def loadsWritten (core : Nat) (s : State) : State :=
  modCell core (fun c =>
    match c.loads.getLast? with
    | some l => startCycle (passCycles (l.due - c.now) c)
    | none => c) s

/-- What follows the mem operation of a pair (R603): after a load whose data is near, its latency passes; a load from
further away, or behind one, keeps the request until its data is written. -/
def pairRest (hub : Bool) (x : Ctx) (k0 : Bank) (a b : Slot) (ms : List Move) (r : Move) (got : Reach) (s : State) :
    State :=
  let c := cellOf s x.core
  if !ms.any (isLoad hub) then secondRequest hub x k0 a b ms r got s
  else if c.loads.all (fun l => l.arr) then secondRequest hub x k0 a b ms r got (loadsWritten x.core s)
  else
    setCell x.core { c with after := some { req := r, wa := a.word, wb := b.word, k := x.k, got := got },
                            stallPc := some k0.pcc.addr } s

/-- The gate, gate return or exception return of a bundle, last of its moves: at once, or once the request of the bundle
has completed that holds issue, since a fault of the request leaves no effect of it (R92, R165, R170). -/
def awayMoves (hub : Bool) (x : Ctx) (vret : Ret) (undo : Undo) (ms : List Move) (s : State) : State :=
  match ms with
  | [] => s
  | m :: _ =>
    if (cellOf s x.core).stall = .none ∧ (cellOf s x.core).trpHeld.isNone then trigAll hub x undo ms s
    else modCell x.core (fun c => { c with away := some { m := m, k := x.k, ret := x.ret, fret := x.fret, vret := vret,
                                                          undo := undo } }) s

/-- The bundle carried out after every check has passed (R90, R91, R151, R603): the triggers, then what units write in
its cycle, then its moves, and last a gate or a return, which keeps what it writes itself. A block save or restore
holds its bundle: its elements take the cycles. The stall of a walk comes before the next bundle (R243). -/
def executeBundle (hub : Bool) (x : Ctx) (k0 : Bank) (a b : Slot) (ms : List Move) (vret : Ret) (s : State) : State :=
  let undo := { undoOf x.b (cellOf s x.core) with wrote := moveGroups hub ms }
  let got := match ms.find? (isReq hub) with
    | some r => moveReach hub x r s
    | none => {}
  walkPass x.core <| match ms.find? (isBlk hub) with
  | some m =>
    (match moveTrig hub m with
     | some (.blk r) =>
       blkDo x r (valD m.val) k0 (ms.find? (fun o => !isBlk hub o)) (ms.any (isRepn hub)) got a.word b.word s
     | _ => s)
  | none =>
    let req := if ms.any (isMem hub) then ms.find? (isReq hub) else none
    let first := if req.isSome then ms.filter (fun m => !isReq hub m) else ms
    let s := modCell x.core (passCycles 1) s
    let s := trigAll hub x undo (first.filter (fun m => !movesAway hub m)) s
    let s := lateWrites hub x first s
    let s := awayMoves hub x vret undo (first.filter (movesAway hub)) s
    match req with
    | none => finishBundle hub x k0 a b ms s
    | some r => pairRest hub x k0 a b ms r got s

/-- Entries of the store buffer that a bundle's stores take (R143). -/
def roomNeed (hub : Bool) (x : Ctx) (ms : List Move) : Nat :=
  (ms.map (fun m =>
    match moveTrig hub m with
    | some (.store n) => (partsOf (memAddr x (valD m.val)).toNat n).length
    | some .stc => 1
    | some (.sys .pwr) => (partsOf (portC x.k 0x1A2).addr.toNat 8).length
    | _ => 0)).foldl (· + ·) 0

/-- The buffer has room for that many entries more. -/
def hasRoom (c : Cell) (need : Nat) : Bool := need == 0 || decide (c.sb.length + need ≤ sbCap)

/-- The bundle is the one that is repeated, while repetitions remain (R185). -/
def heldBundle (c : Cell) (a b : Slot) : Bool :=
  match c.held with
  | some w => w == (a.word, b.word)
  | none => true

/-- How the requests of a bundle end: the reads of a call-gate sequence or a phasor window, the write of a gate's frame,
and the read of the vector-table granule of its fault. -/
structure BundleRet where
  ret  : Ret := .ok
  fret : Ret := .ok
  vret : Ret := .ok
  deriving DecidableEq, Repr

/-- The first fault of a bundle, in the order of R83, R120 and R92: at its fetch, of its encoding or its operands, or of
its triggers; none when it may be carried out, with the moves it executes. -/
def bundleCheck (core : Nat) (r : BundleRet) (a b : Slot) (s : State) : State × Except Flt (Ctx × List Move) :=
  let hub := isHub core
  let c := cellOf s core
  let k0 := runBank c
  let ms := activeMoves hub c a b
  let x : Ctx := { core := core, n := c.now, b := c.run, k := operandView hub ms k0, ret := r.ret, fret := r.fret }
  match fetchFail k0 with
  | some f => (s, .error f)
  | none =>
    match worstUndef (staticUndefs hub (levelOf c) k0 a b ++ ms.flatMap (moveUndef hub x)) with
    | some u => (s, .error (undefFlt k0.pcc.addr u))
    | none =>
      match checkAll hub x ms s with
      | (s, some f) => (s, .error f)
      | (s, none) => (s, .ok (x, ms))

/-- THE ISSUE OF A BUNDLE on a core (R90, R92, R174). A core that cannot issue is left as it is, and so is one whose
bundle meets a request that must wait, for a link or at a gate (R24, R265). At an interrupt point of a level a change asked of
the interrupted thread takes effect (R201). -/
def issueBundle (core : Nat) (r : BundleRet) (a b : Slot) (s : State) : State :=
  if !isCore core || !mayIssue s core || !heldBundle (cellOf s core) a b then s
  else if r.ret = .parity then bankParity core (cellOf s core).run s
  else
    let s1 := modCell core (fun c => { pointWant (startCycle c) with issueT := s.time.dur, yielded := none }) s
    match bundleCheck core r a b s1 with
    | (s2, .error f) => if (cellOf s2 core).heldUp then s else raiseSync core f (faultPass core f s2) r.vret
    | (s2, .ok (x, ms)) =>
      let k0 := runBank (cellOf s1 core)
      let need := roomNeed (isHub core) x ms
      if hasRoom (cellOf s2 core) need then executeBundle (isHub core) x k0 a b ms r.vret s2
      else modCell core (fun c => { c with stall := .room need, stallPc := some k0.pcc.addr, issueT := s.time.dur }) s

end Sys2Proof.Machine
end

