-- ==== Sys2Proof/Machine/CoreEvents.lean ====
section
/-! DEFINITION. Events inside a core between bundles: results that arrive, elements of block transfers,
load data, fetches, repetitions, acknowledgements and fences. -/

namespace Sys2Proof.Machine

/-! Results (R123, R131, R152, R155, R156, R161, R170). -/

/-- Cycles let pass until cycle `n` has ended, everything due by then written. -/
def runTo (n : Nat) (c : Cell) : Cell :=
  let c := passCycles (n + 1 - c.now) c
  npRetire n (flyRetire n c)

/-- The oldest operation in flight of a unit. -/
def oldestFly (u : LatUnit) (c : Cell) : Option FlyOp :=
  minBy (fun f => f.due) (c.fly.filter (fun f => f.unit == u))

/-- The next result of a pipelined unit arrives in its cycle; nothing when none is in flight. -/
def latResult (u : LatUnit) (core : Nat) (s : State) : State :=
  match oldestFly u (cellOf s core) with
  | some f => modCell core (runTo f.due) s
  | none => s

/-- The results of div, or of ph, arrive in their cycle (R131, R133, R161). -/
def npResult (ph : Bool) (core : Nat) (s : State) : State :=
  let c := cellOf s core
  match (if ph then c.ph.cur else c.div.cur) with
  | some (due, _) => modCell core (runTo due) s
  | none => s

/-! Load data (R140, R144). -/

/-- The first load whose data has not arrived, with the ones before it and after it. -/
def firstWaiting : List PLoad → Option (List PLoad × PLoad × List PLoad)
  | [] => none
  | l :: ls =>
    if !l.arr then some ([], l, ls)
    else (firstWaiting ls).map (fun r => (l :: r.1, r.2.1, r.2.2))

/-- The load that an outcome befalls: with an error of the cell store, the oldest that reads the core's own store
(R141); with a parity error, the oldest that reads the data cache; else, and with any other outcome, the first whose
data has not arrived. -/
def loadFor (r : Ret) (l : List PLoad) : Option (List PLoad × PLoad × List PLoad) :=
  let own := match r with
    | .corrected => true
    | .uncorrectable => true
    | _ => false
  match l with
  | x :: xs =>
    if (own && x.own) || (r == .parity && x.hit) then some ([], x, xs) else firstWaiting l
  | [] => none

/-- A load that waits for stores may read memory now (R144, R279). -/
def loadFree (sb : List SbEntry) (l : PLoad) : Bool :=
  if l.parts.any (fun p => inControl p.1) then l.ahead == 0
  else !(sb.take l.ahead).any (fun e => l.parts.any (fun p => sbOverlaps e p.1 p.2))

/-- A load waits: for stores, or a request of it for a link or at a gate (R24, R144, R265). -/
def loadWaits (s : State) (core : Nat) (l : PLoad) : Bool :=
  (l.got.isNone && !loadFree (cellOf s core).sb l)
    || !l.fwd && l.parts.any (fun p => if l.got.isSome then pathWaits s (initSite core) (addrSite s p.1) else reqWaits s core p.1)

/-- The second request of a pair goes once the load's data is written (R603). -/
def resumeAfter (core : Nat) (s : State) : State :=
  let c := cellOf s core
  match c.after with
  | some p =>
    if c.loads.all (fun l => l.arr) then
      let s := modCell core (fun c => { c with after := none, stallPc := none }) (loadsWritten core s)
      let x : Ctx := { core := core, n := c.now, b := c.run, k := p.k }
      secondRequest (isHub core) x p.k (slotOfWord p.wa) (slotOfWord p.wb) [p.req] p.req p.got s
    else s
  | none => s

/-- A load that is due when its data arrives ends a stall, whose cycles the running bank counts (R140, R176, R177). -/
def lateArrival (core : Nat) (l : PLoad) (s : State) : State :=
  if l.due ≤ (cellOf s core).now ∧ (cellOf s core).stopped = false then stallPass core s else s

/-- Load data arrives (R140): mem.r or mem.rc is written in the cycle the load is due, or at once when
that has passed, and a stall ends. Loads behind it write in the cycles after, one each. -/
def loadArrives (core : Nat) (pre : List PLoad) (l : PLoad) (post : List PLoad) (s : State) : State :=
  let got := l.got.getD (partsGet s l.parts)
  let s := if l.got.isNone then partsEffect l.parts s else s
  let s := linesFill core l.parts (lateArrival core l s)
  let s := modCell core (fun c =>
    let c := { c with loads := pre ++ respace c.now ({ l with arr := true, got := some got } :: post) }
    loadsRetire c.now c.loads c) s
  resumeAfter core s

/-- Result ports and counts that a bundle does not write itself: the loads' and the trip unit's results, and the cycles
(R89, R92, R177). A bank that is put back keeps them as they now stand. -/
def keepPorts (now old : Bank) : Bank :=
  { setC 0x0C9 (portC now 0x0C9) (setX 0x0C8 (portX now 0x0C8) (setX 0x191 (portX now 0x191) old)) with
    cyc := now.cyc, poison := now.poison, dirty := now.dirty ||| old.dirty ||| 0x80 }

/-- A non-pipelined unit when a bank goes back to a bundle: from the unit `v` as it stands the jobs of the other banks
stay, and from the unit `u` as it stood the bank's job comes back (R92, R133). The job is first in the list when it
should have written by now. -/
def npUndo (b now : Nat) (v u : NpUnit) : List NpJob × NpUnit :=
  let rest := v.wait.filter (fun j => j.bank != b)
  let again := u.wait.filter (fun j => j.bank == b)
  let start := fun (l : List NpJob) => match l with
    | [] => ({} : NpUnit)
    | w :: ws => { cur := some (now + w.lat - 1, w), wait := ws }
  match v.cur.filter (fun e => e.2.bank != b), u.cur.filter (fun e => e.2.bank == b) with
  | some e, some m =>
    if m.1 < now then ([m.2], { cur := some e, wait := rest }) else ([], { cur := some e, wait := rest ++ [m.2] })
  | some e, none => ([], { cur := some e, wait := again ++ rest })
  | none, some m => ([], { cur := some m, wait := rest })
  | none, none => ([], start (again ++ rest))

/-- A bank put back to where it stood before a bundle, with what it had in flight then (R92). The results of other banks
stay. -/
def undoBank (b : Nat) (u : Undo) (c : Cell) : Cell :=
  let d := npUndo b c.now c.div u.div
  let p := npUndo b c.now c.ph u.ph
  let c := { setBank b (keepPorts (bankOf c b) u.bank) c with
    fly := c.fly.filter (fun f => f.bank != b) ++ u.fly.filter (fun f => f.bank == b), div := d.2, ph := p.2 }
  (d.1 ++ p.1).foldl (fun c j => npWrite j c) c

/-- The stores still ahead of a request that had `a` ahead of it, once the bank's entries behind the first `n` are
gone. -/
def aheadLeft (sb : List SbEntry) (b n a : Nat) : Nat :=
  a - (((sb.take a).drop n).filter (fun e => e.bank == b)).length

/-- A bundle of a bank took these requests up, or a later bundle did, and no unit has acted on them (R92). -/
def undoneInv (b no : Nat) (r : InvReq) : Bool := r.bank == b && !r.left && decide (no ≤ r.no)
def undoneTrp (b no : Nat) (r : TrpReq) : Bool := r.bank == b && r.ans.isNone && decide (no ≤ r.no)

/-- A load that is denied, or lost on its path, after its bundle has issued: the bank goes back to that bundle, and what
later bundles of the bank have not yet made visible is dropped, stores, loads, invalidations and trip requests (R92,
R146; DEDUCED, log entry 57). The stores before the load stay. -/
def loadUndo (core : Nat) (pre : List PLoad) (l : PLoad) (post : List PLoad) (s : State) : State :=
  modCell core (fun c =>
    let left := aheadLeft c.sb l.bank l.ahead
    let c := undoBank l.bank l.undo { c with
      loads := pre ++ (post.filter (fun p => p.bank != l.bank)).map (fun p => { p with ahead := left p.ahead }),
      sb := c.sb.take l.ahead ++ (c.sb.drop l.ahead).filter (fun e => e.bank != l.bank),
      inv := (c.inv.filter (fun r => !undoneInv l.bank l.undo.no r)).map (fun r => { r with stores := left r.stores }),
      trp := (c.trp.filter (fun r => !undoneTrp l.bank l.undo.no r)).map (fun r => { r with ahead := left r.ahead }) }
    if c.run = l.bank then
      { c with after := none, away := none, stall := .none, stallPc := none, trpHeld := none, held := none,
               waiting := false }
    else c) s

/-! A thread that waits at a queue (R166, R309 to R311). -/

/-- Waiters and blocked enqueuers of a queue, oldest first. -/
def qWaiters (s : State) (q : Nat) : List QReq := tblGet [] s.qwait q

def setWaiters (q : Nat) (l : List QReq) (s : State) : State :=
  { s with qwait := if l.isEmpty then tblDel q s.qwait else tblSet q l s.qwait }

/-- q.r (R165). -/
def qrWord (status len count : Nat) : W := wd (status + len % 2 ^ 16 * 2 ^ 16 + count % 2 ^ 32 * 2 ^ 32)

/-- A bank with q.r, and q.rd when the answer carries data, written. -/
def qrWrite (status len count : Nat) (data : Option W) (k : Bank) : Bank :=
  let k := markDirty 7 (setX 0x178 (qrWord status len count) k)
  match data with
  | some w => setX 0x179 w k
  | none => k

/-- The trigger bundle of a blocked thread completes: in its bank, or in the copy kept until it next holds
one (R309, R310). -/
def finishWait (w : QWake) (c : Cell) : Cell :=
  let t := slotOf c w.slot
  if t.state = 3 ∧ t.waitq = w.queue then
    let t := { t with state := 1 }
    if w.again then setSlot w.slot { t with fin := none } c
    else match t.fin with
    | none => setSlot w.slot t c
    | some (k, _) =>
      let k := qrWrite w.status w.len w.count none k
      match t.bank with
      | some b =>
        setBank b (keepPorts (bankOf c b) k)
          (setSlot w.slot { t with fin := none, clean := false } c)
      | none => setSlot w.slot { t with fin := some (k, true) } c
  else c

/-- A blocked thread whose bank has gone back to an earlier bundle waits no more: it is ready, and issues from there
(R92). -/
def waitUndone (core n : Nat) (s : State) : State :=
  let q := (slotOf (cellOf s core) n).waitq
  modCell core (fun c =>
    setSlot n { slotOf c n with state := 1, fin := none } { c with wakes := c.wakes.filter (fun w => w.slot != n) })
    (setWaiters q ((qWaiters s q).filter (fun w => !(w.core == core && w.slot == n))) s)

/-- The fault of such a load: raised at its bundle while its bank runs; a bank that an exception has interrupted, and the
thread of a bank that does not run, meet it again when they go on at that bundle (R207). -/
def loadFault (core : Nat) (f : Flt) (b : Nat) (vret : Ret) (s : State) : State :=
  let c := cellOf s core
  let s := match holderOf c b with
    | some n => if b ≤ 4 && (slotOf c n).state == 3 then waitUndone core n s else s
    | none => s
  if c.stopped then s
  else if c.run = b then raiseSync core f s vret
  else
    let back := fun (k : Bank) => { k with fpcc := (bankOf c b).pcc, fpLim := (bankOf c b).lim }
    match interrupter c b with
    | some h => modCell core (fun c => setBank h (back (bankOf c h)) c) s
    | none => s

/-- A load's own fault, with its own bundle's state, after the stall in which it was awaited (R177). -/
def loadFails (core : Nat) (pre : List PLoad) (l : PLoad) (post : List PLoad) (f : Flt) (vret : Ret) (s : State) : State :=
  loadFault core f l.bank vret (loadUndo core pre l post (lateArrival core l s))

/-- The part of a split load that was lost on its path (R146, R205): its first byte, and whether it is the second. -/
def lostAt (s : State) (l : PLoad) : Nat × Bool :=
  match l.parts with
  | [p, _] => if Config.lostPart s.fresh then (p.2, true) else (0, false)
  | _ => (0, false)

/-- The second request of a pair is never sent, when the load before it ends in an error: the bundle has issued
(R214, R603). -/
def pairDropped (core : Nat) (s : State) : State :=
  let c := cellOf s core
  match c.after with
  | some p =>
    finishBundle (isHub core) { core := core, n := c.now, b := c.run, k := p.k } p.k (slotOfWord p.wa) (slotOfWord p.wb)
      [] (setCell core { c with after := none, stallPc := none } s)
  | none => s

/-- The load ends in an uncorrectable error: it writes nothing, and the machine check waits for the next interrupt point
(R74, R207, R214). `pa` is the address of the request that has failed. -/
def loadBad (core : Nat) (pre : List PLoad) (l : PLoad) (post : List PLoad) (pa : Nat) (s : State) : State :=
  let f := mchkFlt s core l.va pa false
  let s := modCell core (fun c => { c with loads := pre ++ post }) (lateArrival core l (uncorrectableAt core pa s))
  raiseMchk core f false (if post.isEmpty then pairDropped core s else resumeAfter core s)

/-- Load data returns, or its error does. When every load's data is present, the oldest load writes its result: the
cycles pass until it is due. -/
def loadReturn (core : Nat) (r : EventRet) (s : State) : State :=
  let c := cellOf s core
  match loadFor r.ret c.loads with
  | none =>
    match c.loads with
    | [] => s
    | l :: _ => setCell core (startCycle (passCycles (l.due - c.now) c)) s
  | some (pre, l, post) =>
    if loadWaits s core l then s
    else match (if l.got.isNone then partsDenied s core .read 0 l.parts else none) with
    | some (i, d, a) =>
      let off := if i = 0 then 0 else (l.parts.headD (0, 0)).2
      loadFails core pre l post (gateFault (l.va + wd off) (i != 0) d) r.vret (gateEvent core a .read d s)
    | none =>
      let e := partsRet s false l.parts r.ret
      let pa := e.2.1
      match (if l.fwd then .ok else if l.got.isNone || !l.arr then e.1 else r.ret) with
      | .ok => loadArrives core pre l post s
      | .corrected =>
        if l.arr then setCell core { c with loads := pre ++ { l with own := false } :: post } (correctedAt core pa s)
        else loadArrives core pre l post (correctedAt core pa s)
      | .parity =>
        let s := if core < 256 then errEvent (.cell core) 0x04 core 0 pa s else s
        if l.arr then setCell core { c with loads := pre ++ { l with arr := false, hit := false } :: post } s else s
      | .uncorrectable => loadBad core pre l post pa (bumpFresh s)
      | .pathFail =>
        let p := lostAt s l
        loadFails core pre l post (gateFault (l.va + wd p.1) p.2 ⟨0x07, none, 63⟩) r.vret (bumpFresh s)

/-! Block save and restore (R148, R150, R151). -/

/-- The gate, gate return or exception return of a bundle, once the request of the bundle is complete. Its checks are
those of its issue, made again where it now reads: a fault leaves the request's effect outside the core (DESIGN CHOICE,
log entry 80). -/
def runAway (core : Nat) (s : State) : State :=
  match (cellOf s core).away with
  | none => s
  | some a =>
    let c := cellOf s core
    let x : Ctx := { core := core, n := c.now - 1, b := c.run, k := a.k, ret := a.ret, fret := a.fret }
    let s := modCell core (fun c => { c with away := none }) s
    match moveTrig (isHub core) a.m with
    | none => s
    | some t =>
      match trigCheck x a.m t s with
      | (s, some f) => raiseSync core f (modCell core (undoBank x.b a.undo) (faultPass core f s)) a.vret
      | (s, none) => walkPass core (trigDo x a.m t a.undo s)

/-- The bank on which the other move of a block acts: as the completing execution started, with the accumulators as they
now stand that the operation does not restore (R151, R156). -/
def blkView (o : BlkOp) (now : Bank) : Bank :=
  (List.range 4).foldl (fun k j =>
    if o.restore && o.mask.getLsbD (48 + j) then k else setA j (tblGet 0 now.a j) k) o.k0

/-- The other move of a block's bundle, as it acts at the end: on the bank as the completing execution started (R151),
in the cycle that has just passed; what units write by then it prevails over (R91). A read-out reads the accumulators of
that cycle, but for those that the operation restores (R151, R156). The undo of a request that then faults leaves every
selected done bit set, with act (R603). With done and act, dir is cleared too, which the spec does not say (DESIGN CHOICE,
log entry 79). -/
def blkOther (core : Nat) (o : BlkOp) (s : State) : State :=
  let hub := isHub core
  let ms := o.other.toList
  let c := cellOf s core
  let x : Ctx := { core := core, n := c.now - 1, b := c.run, k := operandView hub ms (blkView o (runBank c)) }
  let undo := undoOf c.run c
  let s := modCell core (fun c =>
    let k := runBank c
    { setBank c.run (markDirty 7 { k with done := 0, act := false, dir := false }) c with
      stall := .none, stallPc := none }) s
  let s := match ms.find? (isReq hub) with
    | some m => moveStart hub x m undo o.got s
    | none => trigAll hub x undo (ms.filter (fun m => !movesAway hub m)) s
  let s := finishBundle hub x o.k0 (slotOfWord o.wa) (slotOfWord o.wb) ms (lateWrites hub x ms s)
  match ms.find? (movesAway hub) with
  | some m =>
    runAway core (modCell core (fun c =>
      { c with away := some { m := m, k := x.k, ret := .ok, fret := .ok, vret := .ok, undo := undo } }) s)
  | none => s

/-- The last element is done: done and act clear, the other move takes effect, the next bundle may issue (R150, R151).
The last element of a restore takes two cycles more to write its register; an operation with no element left takes one
cycle (R148, R184). The completing cycle starts as a bundle's does, with everything of the cycles before it written
(R123). -/
def blkFinish (core : Nat) (o : BlkOp) (s : State) : State :=
  let s := modCell core (fun c =>
    let c := if c.now = o.start then passCycles 1 c else if o.restore then passCycles 2 c else c
    { startCycle { c with now := c.now - 1 } with now := c.now }) s
  blkOther core o s

/-- Element `i` done (R148, R149): one cycle, and its done bit. -/
def elemDone (core i : Nat) (s : State) : State :=
  modCell core (fun c =>
    let c := passCycles 1 c
    setBank c.run { runBank c with done := (runBank c).done ||| BitVec.ofNat 52 (2 ^ i) } c) s

/-- After an element: the operation ends when none is left (R148). -/
def blkNext (core : Nat) (o : BlkOp) (s : State) : State :=
  match nextElem o.mask (runBank (cellOf s core)).done with
  | some _ => s
  | none => orWait core s (blkFinish core o s)

/-- The address of an element. -/
def elemVa (o : BlkOp) (i : Nat) : W := o.base + wd (elemPlace i).1

/-- A saved element, checked by itself (R85, R148): the store's parts, or the fault. -/
def saveParts (x : Ctx) (o : BlkOp) (i : Nat) (s : State) :
    State × Except Flt (List (Nat × Nat) × Bool) :=
  let e := elemPlace i
  let v := (elemBytes x.k i).2
  if e.2.2 then
    accessParts x o.oc o.src (elemVa o i) 16 (storePerms v) true (isLocal v) (storeAcc v) s
  else accessParts x o.oc o.src (elemVa o i) e.2.1 permST false false .store s

/-- The next element has to wait (R176). -/
def elemHold (core : Nat) (o : BlkOp) (s : State) : State :=
  modCell core (fun c => { c with stall := .blk { o with held := true } }) s

/-- An element that had to wait goes on: the stall ends, its cycles passed, those of its walks among them (R176, R177,
R243). -/
def elemGo (core : Nat) (o : BlkOp) (s : State) : State :=
  if o.held then stallPass core (modCell core (fun c => { c with stall := .blk { o with held := false } }) s)
  else walkPass core s

/-- An element ends in a fault, after its stall (R177). -/
def elemFault (core : Nat) (o : BlkOp) (f : Flt) (vret : Ret) (s : State) : State :=
  raiseSync core f (if o.held then elemGo core o s else faultPass core f s) vret

/-- One element of mem.t.smm: it waits while the store buffer is full. -/
def saveElem (x : Ctx) (o : BlkOp) (i : Nat) (r : EventRet) (s : State) : State :=
  match saveParts x o i s with
  | (t, .error f) => orWait x.core (elemHold x.core o s) (elemFault x.core o f r.vret t)
  | (s1, .ok (ps, _)) =>
    if !hasRoom (cellOf s x.core) ps.length then elemHold x.core o s
    else
      let e := elemBytes x.k i
      blkNext x.core o (elemDone x.core i
        (startStore x (elemVa o i) (elemPlace i).2.2 e.2.tag ps e.1 (elemGo x.core o s1)))

/-- A restored element's parts, checked as a load's are (R140, R144, R146). -/
def restoreParts (x : Ctx) (o : BlkOp) (i : Nat) (s : State) : State × Except Flt (List (Nat × Nat) × Bool) :=
  let e := elemPlace i
  match accessParts x o.oc o.src (elemVa o i) e.2.1 permLD e.2.2 false .load s with
  | (s, .error f) => (s, .error f)
  | (s, .ok (ps, ok)) =>
    match loadReach x.core e.2.2 (elemVa o i) ps s with
    | (s, some f) => (s, .error f)
    | (s, none) => (s, .ok (ps, ok))

/-- A restored element's bytes and how its read ends, `r` when it reads memory; `none` while a store that overlaps it
must drain first (R144), an older load must be performed (R278), or its request waits. -/
def restoreBytes (s : State) (core : Nat) (isCap : Bool) (ps : List (Nat × Nat)) (r : Ret) :
    Option ((List Byte × Bool) × Ret) :=
  match sbServe (cellOf s core).sb isCap ps with
  | .memory =>
    if !readNow s core ps || ps.any (fun p => reqWaits s core p.1) then none else some (partsGet s ps, r)
  | .forward bs tag => some ((bs, tag), .ok)
  | .wait => none

/-- Cycles of a restored element that is not near, or that had to wait (R140, R148, R176, R177). -/
def elemWait (core : Nat) (o : BlkOp) (ps : List (Nat × Nat)) (s : State) : State :=
  if o.held || (cellOf s core).walked then elemGo core o s
  else if ownStore core ps || partsHit s core ps then s
  else
    let c := cellOf s core
    bumpFresh (setCell core (passCycles (Config.stallCycles s.fresh) c) s)

/-- One element of mem.t.lmm. It writes its register two cycles after it is read, over what units write by then (R91,
R148). -/
def restoreElem (x : Ctx) (o : BlkOp) (i : Nat) (r : EventRet) (s : State) : State :=
  match restoreParts x o i s with
  | (t, .error f) => orWait x.core (elemHold x.core o s) (elemFault x.core o f r.vret t)
  | (s1, .ok (ps, ok)) =>
    let e := partsRet s false ps r.ret
    let pa := e.2.1
    let isCap := (elemPlace i).2.2
    match restoreBytes s x.core isCap ps e.1 with
    | none => elemHold x.core o s
    | some ((bs, tag), e) =>
      match e with
      | .uncorrectable =>
        raiseMchk x.core (mchkFlt s x.core (elemVa o i) pa false) false
          (uncorrectableAt x.core pa (bumpFresh (elemWait x.core o ps s1)))
      | .pathFail => elemFault x.core o (gateFault (elemVa o i) false ⟨0x07, none, 63⟩) r.vret s1
      | .parity => if x.core < 256 then errEvent (.cell x.core) 0x04 x.core 0 pa s1 else s1
      | r =>
        let s1 := if r = .corrected then correctedAt x.core pa s1 else s1
        let t := tag && ok && capHas o.oc permLDC
        let s1 := linesFill x.core ps (partsEffect ps (elemWait x.core o ps s1))
        let s1 := modCell x.core (fun c => { c with fly := c.fly ++
          [{ due := c.now + 2, bank := x.b, unit := .lmm, wr := .elem i bs t }] }) s1
        blkNext x.core o (elemDone x.core i s1)

/-- The next element of the block transfer in progress (R148). It does not go on before a machine check, a stop or an
event that waits at this boundary, where an interrupt is taken between elements (R150, R207). -/
def blockElement (core : Nat) (r : EventRet) (s : State) : State :=
  match (cellOf s core).stall with
  | .blk o =>
    if elemPoint (cellOf s core) o && comesFirst s core || !coreInService s core then s
    else
      let s := modCell core startCycle s
      let c := cellOf s core
      let k := runBank c
      let x : Ctx := { core := core, n := c.now, b := c.run, k := k }
      match nextElem o.mask k.done with
      | none => orWait core s (blkFinish core o s)
      | some i => if o.restore then restoreElem x o i r s else saveElem x o i r s
  | _ => s

/-! Fetches and repetitions. -/

/-- The fetch of the next bundle holds issue (R176). -/
def fetchHeld (core : Nat) (s : State) : State :=
  modCell core (fun c => { c with stall := .fetch, stallPc := some (runBank c).pcc.addr }) s

/-- A core whose next bundle is being fetched, as the fetch comes to its end. -/
def fetchResumed (core : Nat) (s : State) : State :=
  if (cellOf s core).stall = .fetch then modCell core (fun c => { c with stall := .none, stallPc := none }) s else s

/-- The stall of a fetch (R176, R177): of an instruction-cache miss, which fills the line, or of the walk alone. -/
def fetchPass (core pa : Nat) (s : State) : State :=
  if iHit s core pa then iFill core pa (walkPass core s) else iFill core pa (stallPass core s)

/-- A bundle fetched and issued (R83, R93, R176, R241, R270): its address checked against pcc and translated, its request
checked at the gate. Past the instruction cache, the stall ends with the fill. A repeated bundle is fetched once
(R185). -/
def fetchIssue (core : Nat) (r : EventRet) (s : State) : State :=
  let s := fetchResumed core s
  if !isCore core || !mayIssue s core || (cellOf s core).held.isSome then s
  else
    let k := runBank (cellOf s core)
    let va := k.pcc.addr
    let asid := if 256 ≤ core then 0 else k.asid
    match fetchFail k with
    | some f => raiseSync core f s r.vret
    | none =>
      match xlate core asid va .fetch (some k) s with
      | (t, .error e) =>
        orWait core (fetchHeld core s) (raiseSync core (xFault e false .fetch asid va) (walkPass core t) r.vret)
      | (t, .ok (pa, _)) =>
        if reqWaits s core pa then fetchHeld core s
        else
        let s := t
        match gateCheck s core pa 8 .fetch with
        | .error d => raiseSync core (gateFault va false d) (gateEvent core pa .fetch d (stallPass core s)) r.vret
        | .ok _ =>
          match retAt s pa r.ret with
          | .uncorrectable =>
            raiseAt core (dlvlMchk s core) (mchkFlt s core va pa true) (uncorrectableAt core pa (stallPass core s)) r.vret
          | .pathFail => raiseSync core (gateFault va false ⟨0x07, none, 63⟩) (stallPass core s) r.vret
          | .parity => if core < 256 then errEvent (.cell core) 0x04 core 0 pa s else s
          | e =>
            let s := if e = .corrected then correctedAt core pa s else s
            let bs := physRead s pa 8
            issueBundle core { vret := r.vret } (slotOfWord (BitVec.ofNat 32 (leNat (bs.take 4))))
              (slotOfWord (BitVec.ofNat 32 (leNat (bs.drop 4)))) (fetchPass core pa s)

/-- The next repetition of the repeated bundle (R185, R186). -/
def repeatIssue (core : Nat) (s : State) : State :=
  match (cellOf s core).held with
  | some (wa, wb) => issueBundle core {} (slotOfWord wa) (slotOfWord wb) s
  | none => s

/-! Fences (R170, R253, R266, R281). -/

/-- The end of a stall, after its cycles, and what its bundle still holds. -/
def stallEnds (core : Nat) (s : State) : State :=
  runAway core (stallPass core (modCell core (fun c => { c with stall := .none, stallPc := none }) s))

/-- A stall that ends: issue goes on after its cycles (R177). -/
def endStall (core : Nat) (s : State) : State := orWait core s (stallEnds core s)

/-- sys.t.fence completes (R281): the bank's loads have returned, unless t = 1, and the buffer is empty. -/
def fenceComplete (core : Nat) (s : State) : State :=
  let c := cellOf s core
  match c.stall with
  | .fence storesOnly =>
    if c.sb.isEmpty && (storesOnly || c.loads.all (fun l => l.arr || l.bank != c.run))
    then endStall core s else s
  | _ => s

/-- sys.t.gfence completes (R266): the buffer has drained, and the gate has applied every configuration write, and
completed every request, that it accepted before. -/
def gateFenceComplete (core : Nat) (s : State) : State :=
  let c := cellOf s core
  match c.stall with
  | .gfence g true =>
    if c.sb.isEmpty && !s.gatePend.any (fun e => e.1 == g) && !gateBusy s g then gateSettle g (endStall core s) else s
  | _ => s

/-- sys.t.invsync completes (R253): every invalidation of this core has been acknowledged. -/
def invsyncComplete (core : Nat) (s : State) : State :=
  let c := cellOf s core
  match c.stall with
  | .invsync => if c.inv.isEmpty then endStall core s else s
  | _ => s

/-! Invalidations (R251 to R253). -/

/-- A TLB entry that an invalidation removes (R251). -/
def invHits (r : InvReq) (t : TlbEntry) : Bool :=
  let last := min (r.va.toNat + r.len.toNat - 1) (2 ^ 64 - 1)
  (r.len == 0 || (decide (t.vbase ≤ last) && decide (r.va.toNat < t.vbase + 2 ^ t.size)))
    && (r.all || t.asid == r.asid || (t.glob && r.glob))
    && (!t.glob || r.glob)

/-- What an invalidation removes from a cell (R251). -/
def invApply (r : InvReq) (c : Cell) : Cell :=
  { c with tlb := c.tlb.filter (fun t => !invHits r t),
           wc := if r.walk then c.wc.filter (fun w => !(r.all || w.asid == r.asid)) else c.wc }

/-- The oldest invalidation leaves its cell once the stores before it have drained (R252); its scope then
has to acknowledge it. -/
def invRelease (core : Nat) (s : State) : State :=
  modCell core (fun c =>
    match takeFirst (fun r : InvReq => !r.left) c.inv with
    | some (r, _) =>
      let sent : InvReq := { r with left := true, acks := invScope core r.scope }
      let l := c.inv.map (fun i => if i = r then sent else i)
      if r.stores = 0 then { c with inv := l } else c
    | none => c) s

/-- An access that has been translated: its address space, address and bytes. -/
structure OpenAcc where
  asid : Nat
  va   : Nat
  len  : Nat
  deriving DecidableEq, Repr

/-- The bytes of parts. -/
def partsLen (ps : List (Nat × Nat)) : Nat := (ps.map (fun p => p.2)).foldl (· + ·) 0

/-- The buffer of a q operation as an access. -/
def qAccess (r : QReq) : List OpenAcc :=
  if r.parts.isEmpty then [] else [{ asid := r.asid, va := r.om.toNat, len := partsLen r.parts }]

/-- What a request that waits behind the mem operation of its bundle has translated (R603). -/
def heldAccess (hub : Bool) (k : Bank) (m : Move) (got : Reach) : List OpenAcc :=
  if got.parts.isEmpty then []
  else match moveTrig hub m with
    | some (.q _) => [{ asid := k.asid, va := (portC k 0x171).addr.toNat, len := partsLen got.parts }]
    | some (.sys .pwr) => [{ asid := k.asid, va := (portC k 0x1A2).addr.toNat, len := partsLen got.parts }]
    | some (.sys _) =>
      if capSealed (portC k 0x1A2) then []
      else [{ asid := k.asid, va := ((portC k 0x1A2).addr + valD m.val).toNat, len := partsLen got.parts }]
    | _ => []

/-- The accesses of a cell that have been translated and have not completed: buffered stores, loads whose data has not
come, the buffer of a q operation, the word of sys.t.ctlrd or sys.t.ctlwr, and a request that its bundle still holds. -/
def openAccesses (s : State) (core : Nat) : List OpenAcc :=
  let c := cellOf s core
  let hub := isHub core
  c.sb.map (fun e => ({ asid := e.asid, va := e.va.toNat, len := e.data.length } : OpenAcc))
  ++ (c.loads.filter (fun l => !l.arr)).map (fun l =>
      ({ asid := l.asid, va := l.va.toNat, len := partsLen l.parts } : OpenAcc))
  ++ ((tblGet [] s.qman 0 ++ tblGet [] s.qman 1 ++ tblGet [] s.qman 2 ++ tblGet [] s.qman 3
        ++ s.qwait.flatMap (fun e => e.2)).filter (fun r => r.core == core)).flatMap qAccess
  ++ (match c.after with
    | some p => heldAccess hub p.k p.req p.got
    | none => [])
  ++ (match c.stall with
    | .q r false _ _ => qAccess r
    | .ctl _ va _ _ asid _ => [{ asid := asid, va := va.toNat, len := 8 }]
    | .blk o => (match o.other with | some m => heldAccess hub o.k0 m o.got | none => [])
    | _ => [])

/-- An access has been translated through an entry of the TLB: one of its address space, or a global one, that covers a
byte of it; bare mode has none (R228, R245). -/
def usesEntry (t : TlbEntry) (a : OpenAcc) : Bool :=
  a.asid != 0 && (t.glob || t.asid == a.asid) && decide (t.vbase < a.va + a.len) && decide (a.va < t.vbase + 2 ^ t.size)

/-- The cell still has an access through an entry that the invalidation removes (R253, condition 3). -/
def invBlocked (r : InvReq) (s : State) (core : Nat) : Bool :=
  (cellOf s core).tlb.any (fun t => invHits r t && (openAccesses s core).any (usesEntry t))

/-- A cell in scope takes the issuer's oldest invalidation that it has not acknowledged: it removes the
matching entries and acknowledges once its accesses through them are done (R253). -/
def invAck (issuer target : Nat) (s : State) : State :=
  match (cellOf s issuer).inv.find? (fun r => r.left && r.acks.contains target) with
  | none => s
  | some r =>
    if invBlocked r s target then s
    else
      let s := modCell target (invApply r) s
      modCell issuer (fun c =>
        let acked : InvReq := { r with acks := r.acks.erase target }
        let l := (c.inv.map (fun i => if i = r then acked else i)).filter (fun i => !(i.left && i.acks.isEmpty))
        { c with inv := l }) s

/-! Acknowledgements of the trip unit (R167, R168). -/

/-- The oldest answer of the trip unit writes trp.r, in trigger order, and frees a place; a trigger that waited for it
ends its stall (R168, R176). -/
def trpAck (core : Nat) (s : State) : State :=
  let c := cellOf s core
  match c.trp with
  | [] => s
  | r :: rs =>
    match r.ans with
    | none => s
    | some w =>
      let put := fun (s : State) => modCell core (fun c =>
        setBank r.bank (applyWr (.ports [(0x191, w)]) (bankOf c r.bank)) { c with trp := rs }) s
      match c.trpHeld with
      | some h =>
        orWait core s (runAway core
          (modCell core (fun c => { c with trp := c.trp ++ [h], trpHeld := none }) (put (stallPass core s))))
      | none => put s

end Sys2Proof.Machine
end

