-- ==== Sys2Proof/Machine/Queue.lean ====
section
/-! DEFINITION. The queue managers (chapter 9): descriptors and their cache, rings, the operations, waits
and wakes, doorbells, hardware postings, and the command block. -/

namespace Sys2Proof.Machine

/-! Late store errors (R212). -/

/-- Records of the LSE queue. -/
def lseCap : Nat := 8

/-- A late store error recorded; beyond eight, dropped and counted, in a count that stops at 65,535 (DESIGN CHOICE, log
entry 81). -/
def lseRecord (core reason bank slot : Nat) (split : Bool) (va : W) (s : State) : State :=
  modCell core (fun c =>
    if c.lse.length < lseCap then
      let f : Flt :=
        { code := causeLse, faddr := va,
          finfo := wd (reason + core % 1024 * 2 ^ 8 + bank * 2 ^ 18
          + (if bank ≤ 4 then slot * 2 ^ 22 else 0) + b2n split * 2 ^ 28 + b2n c.lseOvf * 2 ^ 29) }
      { c with lse := c.lse ++ [f], lseOvf := false }
    else { c with lseDrop := min (c.lseDrop + 1) 0xFFFF, lseOvf := true }) s

/-! Descriptors (R300, R301). -/

/-- A 32-bit counter of the descriptor counted up. -/
def dBump (i lo : Nat) (d : QDesc) : QDesc := dPut i (lo + 31) lo (satInc32 (dFld d i (lo + 31) lo)) d

/-- The ring's base, entries and entry size. -/
def dBase (d : QDesc) : Nat := dFld d 0 47 6 * 64
def dN (d : QDesc) : Nat := 2 ^ dFld d 0 52 48
def dE (d : QDesc) : Nat := 16 * 2 ^ dFld d 0 55 53
def dEn (d : QDesc) : Bool := bit (dW d 0) 56
/-- The number of messages (R301). -/
def dCount (d : QDesc) : Nat := (dFld d 1 63 32 + 2 ^ 32 - dFld d 1 31 0) % 2 ^ 32

/-- A region manager's initiator ID (R10). -/
def qInit (r : Nat) : Nat := 0x100 + r

/-- The dictionary index of a manager's counters (R323). -/
def qObj (r : Nat) : Nat := 0x8140 + r

/-- An event in a region's record about a queue (R321). -/
def qEvent (r code evd addr : Nat) (s : State) : State := errEvent (.region r) code (qInit r) evd addr s

/-- A wake signalled to a cell (R309). -/
def qSignal (w : QReq) (again : Bool) (status len count : Nat) (s : State) : State :=
  modCell w.core (fun c => { c with wakes := c.wakes ++
    [{ slot := w.slot, again := again, queue := w.queue, status := status, len := len, count := count }] }) s

/-- A descriptor's word 0x30 as it reads: nwait, and the internal list as 0 (R300). -/
def dWords (s : State) (d : QDesc) : List W := d.ws.set 6 (wd ((qWaiters s d.q).length % 2 ^ 16))

/-- Every waiter and blocked enqueuer of a queue woken with status 0x04 (R312). -/
def qWakeAll (d : QDesc) (s : State) : QDesc × State :=
  let ws := qWaiters s d.q
  (ws.foldl (fun d _ => dBump 5 32 d) d,
   setWaiters d.q [] (ws.foldl (fun s w => qSignal w false 0x04 0 (dCount d) s) s))

/-- A queue disabled for a reason, its doorbell disarmed and its waiters woken (R312, R319, R321). -/
def qDisable (r dis : Nat) (d : QDesc) (s : State) : QDesc × State :=
  let d := dPut 2 7 7 0 (dPut 7 3 0 dis (dPut 0 56 56 0 d))
  let p := qWakeAll d s
  (p.1, if 2 ≤ dis then bumpObj (qObj r) 6 p.2 else p.2)

/-! Where a ring may lie (R303). -/

/-- The range from `a` to `b` lies in the block from `lo` of `n` bytes. -/
def inSpan (a b lo n : Nat) : Bool := decide (lo ≤ a) && decide (b ≤ lo + n)

/-- The bytes of a ring: entries, then the length array (R302). -/
def ringBytes (d : QDesc) : Nat := dN d * dE d + (2 * dN d + 63) / 64 * 64

/-- A range of `n` bytes lies within one target (R303). -/
def spanOk (s : State) (a n : Nat) : Bool :=
  let b := a + n
  if a < 0x42000000 then decide (0x40000000 ≤ a) && inSpan a b (a / 0x20000 * 0x20000) 0x20000
  else if 0x44000000 ≤ a ∧ a < 0x48000000 then
    wayScratch s ((a - 0x44000000) / 0x400000) ((a - 0x44000000) % 0x400000 / 0x80000)
      && inSpan a b (a / 0x80000 * 0x80000) 0x80000
  else if 0x48000000 ≤ a ∧ a < 0x4A000000 then inSpan a b (a / 0x800000 * 0x800000) 0x800000
  else if 0x1000000000 ≤ a ∧ a < 0x5000000000 then
    if s.striped then inSpan a b 0x1000000000 (4 * ddrFit s)
    else inSpan a b (a / 0x1000000000 * 0x1000000000) (ddrFit s)
  else false

/-- The ring lies within one target (R303). -/
def ringOk (s : State) (d : QDesc) : Bool := spanOk s (dBase d) (ringBytes d)

/-- A DMA command queue (R296). -/
def isDmaQueue (q : Nat) : Bool := decide (0x3FF80 ≤ q) && decide (q < 0x3FF88)

/-- The checks of the create command on a descriptor's own words (R319): the result code on failure. -/
def createFail (s : State) (d : QDesc) : Option Nat :=
  if 20 < dFld d 0 52 48 ∨ 4 < dFld d 0 55 53 ∨ dFld d 2 6 0 < 16
      ∨ (dFld d 2 9 8 = 0 ∧ dFld d 2 10 10 = 1) ∨ dFld d 0 5 0 ≠ 0 ∨ dFld d 0 63 60 ≠ 0
      ∨ dFld d 2 11 11 ≠ 0 ∨ dFld d 2 63 43 ≠ 0 then some 0x03
  else if !ringOk s d then some 0x04
  else if isDmaQueue d.q && dFld d 0 55 53 != 3 then some 0x06
  else none

/-! The descriptor cache (R317, R320, R321). -/

def setCache (r : Nat) (l : List QDesc) (s : State) : State := { s with qcache := tblSet r l s.qcache }

/-- A descriptor kept in its manager's cache as the most recently used. -/
def qSave (r : Nat) (d : QDesc) (s : State) : State :=
  setCache r (d :: (qCacheOf s r).filter (fun x => x.q != d.q)) s

/-- Descriptors that a manager caches. -/
def qCacheCap : Nat := 4096

/-- A write-back that failed disables the queue, whose descriptor stays in the cache (R317, R321). -/
def qBackFails (r : Nat) (d : QDesc) (reason : Nat) (s : State) : State :=
  let p := qDisable r 0x6 d s
  let kept : QDesc := { p.1 with stuck := true }
  qEvent r 0x28 reason (qtab s + 64 * d.q)
    (setCache r ((qCacheOf p.2 r).map (fun x => if x.q = d.q then kept else x)) p.2)

/-- A write-back that was performed: the descriptor leaves the cache. -/
def qBackDone (r : Nat) (d : QDesc) (s : State) : State :=
  let t := memStore (qtab s + 64 * d.q) ((dWords s d).flatMap (fun w => leBytes 8 w.toNat)) s
  setCache r ((qCacheOf t r).filter (fun x => x.q != d.q)) t

/-- A write-back with the gate's answer to it. -/
def qBackWith (r : Nat) (e : QErr) (d : QDesc) (s : State) : Except Deny Nat → State
  | .error y => qBackFails r d y.reason (gateEvent (qInit r) (qtab s + 64 * d.q) .write y s)
  | .ok _ => if e = .backBus then qBackFails r d 0x07 s else qBackDone r d s

/-- A descriptor's write-back to the table (R317, R321). -/
def qWriteBack (r : Nat) (e : QErr) (d : QDesc) (s : State) : State :=
  qBackWith r e d s (gateCheck s (qInit r) (qtab s + 64 * d.q) 64 .write)

/-- Queues that a manager may hold pinned (R317). -/
def qPinCap : Nat := 1024

/-- The next descriptor to leave an over-full cache: one not pinned, the least recently used (R317). Of more than 1,024
pinned ones it is the latest to come, which the table gave disabled and no check of R320 bounds: it is not kept. `keep`
stays, in use. -/
def qVictim (r : Nat) (keep : Option Nat) (s : State) : Option QDesc :=
  let l := (qCacheOf s r).reverse.filter (fun d => !d.stuck && some d.q != keep)
  if qPinCap < qPinned s r then l.reverse.find? (fun d => dPin d && !dEn d)
  else if qCacheCap < (qCacheOf s r).length then l.find? (fun d => !dPin d)
  else none

/-- While the cache is over full, descriptors are written back (R317); an outcome of the command befalls the first. -/
def qEvictN (r : Nat) (keep : Option Nat) : Nat → QErr → State → State
  | 0, _, s => s
  | n + 1, e, s =>
    match qVictim r keep s with
    | none => s
    | some d => qEvictN r keep n .none (qWriteBack r e d s)

def qEvict (r : Nat) (keep : Option Nat) (e : QErr) (s : State) : State :=
  qEvictN r keep (qCacheOf s r).length e s

/-- A descriptor kept after an operation, as far as the cache has room for it (R317). -/
def qKeep (r : Nat) (d : QDesc) (s : State) : State := qEvict r none .none (qSave r d s)

/-- An error in a descriptor as its manager reads it (R321). -/
def descMeets (r : Nat) (e : QErr) (d : QDesc) (s : State) : QDesc × State :=
  let a := qtab s + 64 * d.q
  match e with
  | .descCorrected => (d, recCe (.region r) (qEvent r 0x20 d.q a s))
  | .descBad =>
    let p := qDisable r 0x2 d s
    (p.1, recUe (.region r) (qEvent r 0x21 d.q a p.2))
  | _ => (d, s)

/-- The checks of the create command on a descriptor read from the table (R320). -/
def tableFail (r : Nat) (s : State) (d : QDesc) : Bool :=
  dEn d && ((createFail s d).isSome || (dPin d && decide (qPinCap ≤ qPinned s r)))

/-- A queue's descriptor, from the cache or from the table; `none` when the table cannot be read. -/
def qLoad (r q : Nat) (e : QErr) (s : State) : Option QDesc × State :=
  match (qCacheOf s r).find? (fun d => d.q == q) with
  | some d =>
    let p := descMeets r e d (bumpObj (qObj r) 1 s)
    (some p.1, qSave r p.1 p.2)
  | none =>
    let s := bumpObj (qObj r) 2 s
    let a := qtab s + 64 * q
    match gateCheck s (qInit r) a 64 .read with
    | .error y => (none, qEvent r 0x28 y.reason a (gateEvent (qInit r) a .read y s))
    | .ok _ =>
      if e = .tableBus then (none, qEvent r 0x28 0x07 a s)
      else
        let d : QDesc := { q := q, ws := (List.range 8).map (fun i => wd (physNat s (a + 8 * i) 8)),
                           stuck := false }
        let p := descMeets r (if poisoned s a then .descBad else e) d s
        let p := if tableFail r p.2 p.1 then
            let z := qDisable r 0x5 p.1 p.2
            (z.1, qEvent r 0x24 q a z.2)
          else p
        (some p.1, qEvict r (some q) e (qSave r p.1 p.2))

/-! Doorbells (R313, R314). -/

/-- The doorbell fires: its source is raised, and a one-shot one is disarmed. -/
def dbFire (d : QDesc) (s : State) : QDesc × State :=
  let cell := dFld d 2 21 12
  let s := if isCore cell then raiseIrq cell (dFld d 2 6 0) s else s
  (if bit (dW d 2) 10 then d else dPut 2 7 7 0 d, s)

/-- The count changes from `m` to `n`: the armed condition may occur. -/
def dbChange (m n : Nat) (d : QDesc) (s : State) : QDesc × State :=
  let lev := dFld d 2 42 22
  let hit := match dFld d 2 9 8 with
    | 1 => m == 0 && n == 1
    | 2 => m + 1 == lev && n == lev
    | 3 => m == lev + 1 && n == lev
    | _ => false
  if bit (dW d 2) 7 && hit then dbFire d s else (d, s)

/-- The condition as it is evaluated at arming. -/
def dbArmed (d : QDesc) (s : State) : QDesc × State :=
  let lev := dFld d 2 42 22
  let n := dCount d
  let hit := match dFld d 2 9 8 with
    | 1 => decide (0 < n)
    | 2 => decide (lev ≤ n)
    | 3 => decide (n ≤ lev)
    | _ => false
  if bit (dW d 2) 7 && hit then dbFire d s else (d, s)

/-! Enqueue and dequeue (R302, R304, R306). -/

/-- What the ring access of an operation comes to: done, or the queue is disabled. -/
structure QDone where
  ok : Bool
  d  : QDesc
  s  : State
  deriving DecidableEq, Repr

/-- A ring access denied by a gate: the queue is disabled, reason 0x3 (R321). -/
def ringDenied (r : Nat) (rq : Rq) (y : Deny × Nat) (d : QDesc) (s : State) : QDone :=
  let s := gateEvent (qInit r) y.2 rq y.1 s
  let p := qDisable r 0x3 d s
  { ok := false, d := p.1, s := qEvent r 0x24 y.1.reason y.2 p.2 }

/-- The addresses of an entry and of its length word (R302). -/
def entryAt (d : QDesc) (k : Nat) : Nat := dBase d + dE d * (k % dN d)
def lenAt (d : QDesc) (k : Nat) : Nat := dBase d + dN d * dE d + 2 * (k % dN d)

/-- The waiters that an enqueue wakes (R309): every one, or the oldest. -/
def qWakeWaiters (d : QDesc) (s : State) : QDesc × State :=
  let ws := (qWaiters s d.q).filter (fun w => w.op == .wait)
  let go := if bit (dW d 0) 58 then ws.take 1 else ws
  (go.foldl (fun d _ => dBump 5 32 d) d,
   setWaiters d.q ((qWaiters s d.q).filter (fun w => !go.contains w))
     (go.foldl (fun s w => qSignal w false 0x00 0 (dCount d) s) s))

/-- A ring access that meets an uncorrectable error: the queue is disabled, reason 0x4 (R321). -/
def ringBad (r a : Nat) (d : QDesc) (s : State) : QDone :=
  let p := qDisable r 0x4 d s
  { ok := false, d := p.1, s := qEvent r 0x24 d.q a p.2 }

/-- The line of a ring access that has a poison code, unless the access writes all of it (R288). -/
def ringPoison (s : State) (write : Bool) (a n : Nat) : Option Nat :=
  (piecesBad s write 0 (linePieces (n / 64 + 2) a n)).map (fun x => x.1)

/-- A message enqueued on a queue with space (R304): entry, length word, then the count, the doorbell and
the waiters. An error in the ring disables the queue (R321). -/
def qEnqueue (r : Nat) (e : QErr) (msg : List Byte) (tags : List Bool) (d : QDesc) (s : State) : QDone :=
  let k := dFld d 1 63 32
  let a := entryAt d k
  let la := lenAt d k
  match rangeCheck s (qInit r) a (dE d) .write with
  | some y => ringDenied r .write y d s
  | none =>
    match rangeCheck s (qInit r) la 2 .write with
    | some y => ringDenied r .write y d s
    | none =>
      if e = .ringBad then ringBad r a d s
      else match ringPoison s true a (dE d), ringPoison s true la 2 with
      | some x, _ => ringBad r x d s
      | none, some x => ringBad r x d s
      | none, none =>
      let s := memStore a (slice msg 0 (dE d)) s
      let g := (List.range (dE d / 16)).filter (fun i => tags.getD i false)
      let s := { s with tags := g.foldl (fun t i => tagPut (a / 16 + i) true t) s.tags }
      let s := memStore la (leBytes 2 msg.length) s
      let n := dCount d
      let d := dBump 3 0 (dPut 1 63 32 ((k + 1) % 2 ^ 32) d)
      let d := if dFld d 7 52 32 < n + 1 then dPut 7 52 32 (n + 1) d else d
      let p := dbChange n (n + 1) d s
      let p := qWakeWaiters p.1 p.2
      { ok := true, d := p.1, s := p.2 }

/-- Physical granules of a buffer's parts, whole ones only, each with what is known of its part. -/
def partGrans {α : Type} (d : α) : List (Nat × Nat) → List α → List (Nat × α)
  | [], _ => []
  | p :: ps, l => (List.range (p.2 / 16)).map (fun i => (p.1 + 16 * i, l.headD d)) ++ partGrans d ps (l.drop 1)

/-- The tag that travels with a granule (R306). -/
def granTag (s : State) (stl : Bool) (a : Nat) : Bool :=
  let c := physCap s a
  c.tag && (stl || !isLocal c)

/-- The message of an enqueue, read from its buffer or taken from the operand, with its tags (R163, R241, R306): a granule
read through a page that lets no tags pass has none. -/
def qMessage (q : QReq) (s : State) : List Byte × List Bool :=
  if q.op = .enqd then (leBytes 8 q.t.toNat, [])
  else (partsRead s q.parts,
    if q.carry then (partGrans true q.parts q.caps).map (fun g => g.2 && granTag s q.stl g.1) else [])

/-- The line of an enqueue's buffer that yields no data (R288). -/
def qMessageBad (q : QReq) (s : State) : Option Nat :=
  if q.op = .enqd then none else (piecesBad s false 0 (partPieces q.parts)).map (fun x => x.1)

/-- What the reading of an enqueue's buffer does beside giving the message (R405). -/
def qMessageRead (q : QReq) (s : State) : State := if q.op = .enqd then s else partsEffect q.parts s

/-- The oldest blocked enqueue retried while there is space (R310). A buffer that a gate now denies (R271), or that yields
no data, has its bundle issue afresh, and meet the error itself. -/
def qRetry (r : Nat) (e : QErr) (d : QDesc) (s : State) : QDone :=
  if dN d ≤ dCount d then { ok := true, d := d, s := s }
  else match (qWaiters s d.q).find? (fun w => w.op != .wait) with
  | none => { ok := true, d := d, s := s }
  | some w =>
    let s := setWaiters d.q ((qWaiters s d.q).erase w) s
    match partsDenied s w.core .read 0 w.parts with
    | some (_, y, a) => { ok := true, d := dBump 5 32 d, s := qSignal w true 0 0 0 (gateEvent w.core a .read y s) }
    | none =>
      if (qMessageBad w s).isSome then { ok := true, d := dBump 5 32 d, s := qSignal w true 0 0 0 s }
      else
      let m := qMessage w s
      let p := qEnqueue r (if e = .retryBad then .ringBad else .none) m.1 m.2 d (qMessageRead w s)
      if p.ok then
        { p with d := dBump 5 32 p.d, s := qSignal w false 0x00 m.1.length (dCount p.d) p.s }
      else { p with d := dBump 5 32 p.d, s := qSignal w false 0x04 0 (dCount p.d) p.s }

/-- The oldest message looked at: its length word, which must lie within the entry size (R321). -/
def qPeek (r : Nat) (e : QErr) (d : QDesc) (s : State) : QDone × Nat :=
  let k := dFld d 1 31 0
  match rangeCheck s (qInit r) (lenAt d k) 2 .read with
  | some y => (ringDenied r .read y d s, 0)
  | none =>
    match rangeCheck s (qInit r) (entryAt d k) (dE d) .read with
    | some y => (ringDenied r .read y d s, 0)
    | none =>
      let n := physNat s (lenAt d k) 2
      if e = .ringBad ∨ (ringPoison s false (lenAt d k) 2).isSome ∨ (ringPoison s false (entryAt d k) (dE d)).isSome
          ∨ dE d < n then (ringBad r (entryAt d k) d s, 0)
      else ({ ok := true, d := d, s := s }, n)

/-- The head moves past the oldest message: count, doorbell and the blocked enqueuers (R310, R314). -/
def qAdvance (r : Nat) (e : QErr) (d : QDesc) (s : State) : QDone :=
  let n := dCount d
  let d := dBump 3 32 (dPut 1 31 0 ((dFld d 1 31 0 + 1) % 2 ^ 32) d)
  let p := dbChange n (n - 1) d s
  qRetry r e p.1 p.2

/-- The first `n` bytes of a buffer's parts. -/
def takeParts : Nat → List (Nat × Nat) → List (Nat × Nat)
  | _, [] => []
  | n, (a, m) :: ps => if n = 0 then [] else (a, min n m) :: takeParts (n - m) ps

/-- Bytes written over parts. -/
def partsWrite : List (Nat × Nat) → List Byte → State → State
  | [], _, s => s
  | (a, m) :: ps, bs, s => partsWrite ps (bs.drop m) (physStore a (bs.take m) s)

/-- How bytes are written at an address: to memory, to host memory or to a word of the control space. With true the
target has refused them. -/
abbrev Put := Nat → List Byte → State → State × Bool

/-- A dequeued message written to its buffer under the cell's ID, `off` bytes of it done (R305, R306). A request that is
denied or refused, or that meets a line with a poison code and does not write all of it, is a late store error (R264,
R268, R270, R288). -/
def qDeliver (put : Put) (q : QReq) (msg : List Byte) (tags : List Bool) : Nat → List (Nat × Nat) → State → State
  | _, [], s => s
  | off, (a, n) :: ps, s =>
    let late := fun (reason : Nat) (s : State) => lseRecord q.core reason q.bank q.slot false (q.om + wd off) s
    let s := match gateCheck s q.core a n .write with
      | .error y => late y.reason (gateEvent q.core a .write y s)
      | .ok _ =>
        if poisoned s a && n != 64 then late 0x08 (uncorrectableAt q.core a s)
        else match put a (slice msg off n) s with
        | (s, true) => late 0x0A s
        | (s, false) =>
          let g := (List.range (n / 16)).filter (fun i => tags.getD (off / 16 + i) false && taggable (a + 16 * i))
          { s with tags := g.foldl (fun t i => tagPut (a / 16 + i) true t) s.tags }
    qDeliver put q msg tags (off + n) ps s

/-! The operations (R308). -/

/-- An answer with a status, a length and a count. -/
def ansOf (status len count : Nat) : QAns := { status := status, len := len, count := count, data := none }

/-- q.t.enq and q.t.enqd. A buffer that a gate denies is a precise fault; one that yields no data ends the operation with
nothing enqueued (R270, R288). -/
def qDoEnq (r : Nat) (e : QErr) (q : QReq) (d : QDesc) (s : State) : QDone × QAns :=
  let len := if q.op = .enqd then 8 else fld q.t 15 0
  if dE d < len then
    ({ ok := true, d := dBump 5 0 d, s := s },
     { ansOf 0 len (dCount d) with fault := some (capFault 0x1F q.om 0 ⟨causeBounds, 0xB, 0⟩) })
  else if dN d ≤ dCount d then
    if bit (dW d 0) 57 && q.level == 0 then
      ({ ok := true, d := d, s := setWaiters d.q (qWaiters s d.q ++ [q]) s },
       { ansOf 0 len (dCount d) with blocked := true })
    else
      ({ ok := true, d := dBump 4 0 d, s := s },
       ansOf (if bit (dW d 0) 57 then 0x03 else 0x01) len (dCount d))
  else match partsDenied s q.core .read 0 q.parts with
  | some (i, y, a) =>
    let off := ((q.parts.take i).map (fun p => p.2)).foldl (· + ·) 0
    ({ ok := true, d := d, s := gateEvent q.core a .read y s },
     { ansOf 0 len (dCount d) with fault := some (gateFault (q.om + wd off) (i != 0) y) })
  | none =>
    match qMessageBad q s with
    | some pa => ({ ok := true, d := d, s := s }, { ansOf 0 len (dCount d) with bad := some pa })
    | none =>
    let m := qMessage q s
    let p := qEnqueue r e m.1 m.2 d (qMessageRead q s)
    (p, if p.ok then ansOf 0x00 len (dCount p.d) else ansOf 0x04 0 (dCount p.d))

/-- The fault of a dequeue that would write a tagged granule to a page that takes none (R240, check 11; R241). -/
def qTagFault (q : QReq) (tags : List Bool) : Option Flt :=
  ((partGrans none q.parts q.noTag).zip tags).findSome? (fun g => if g.2 then g.1.2 else none)

/-- q.t.deq and q.t.deqd. A dequeue that faults delivers nothing, and the message stays (R92, R241). -/
def qDoDeq (put : Put) (r : Nat) (e : QErr) (q : QReq) (d : QDesc) (s : State) : QDone × QAns :=
  if dCount d = 0 then ({ ok := true, d := d, s := s }, ansOf 0x02 0 0)
  else
    let room := if q.op = .deqd then 8 else fld q.t 15 0
    match qPeek r e d s with
    | (p, n) =>
      if !p.ok then (p, ansOf 0x04 0 (dCount p.d))
      else if room < n then (p, ansOf 0x05 n (dCount p.d))
      else
        let a := entryAt d (dFld d 1 31 0)
        let msg := physRead p.s a n
        let tags := (List.range (n / 16)).map (fun i => q.carry && granTag p.s q.stl (a + 16 * i))
        match (if q.op = .deq then qTagFault q tags else none) with
        | some f => ({ p with d := d }, { ansOf 0 n (dCount d) with fault := some f })
        | none =>
        let s := if q.op = .deq then qDeliver put q msg tags 0 (partPieces (takeParts n q.parts)) p.s else p.s
        let z := qAdvance r e p.d s
        (z, { ansOf 0x00 n (dCount d - 1) with
              data := if q.op = .deqd then some (wd (leNat msg)) else none })

/-- q.t.arm (R313, R314). -/
def qDoArm (q : QReq) (d : QDesc) (s : State) : QDesc × State :=
  let w := q.od
  let d := dSet 2 (wd (fld w 6 0 + b2n (fld w 9 8 != 0) * 2 ^ 7 + fld w 10 8 * 2 ^ 8
    + q.core % 1024 * 2 ^ 12 + fld w 42 22 * 2 ^ 22)) d
  dbArmed d s

/-- An operation on an enabled queue. -/
def qDoOp (put : Put) (r : Nat) (e : QErr) (q : QReq) (d : QDesc) (s : State) : QDone × QAns :=
  match q.op with
  | .enq => qDoEnq r e q d s
  | .enqd => qDoEnq r e q d s
  | .deq => qDoDeq put r e q d s
  | .deqd => qDoDeq put r e q d s
  | .wait =>
    if 0 < dCount d then ({ ok := true, d := d, s := s }, ansOf 0x00 0 (dCount d))
    else if q.level = 0 then
      ({ ok := true, d := d, s := setWaiters d.q (qWaiters s d.q ++ [q]) s },
       { ansOf 0 0 0 with blocked := true })
    else ({ ok := true, d := d, s := s }, ansOf 0x03 0 0)
  | .arm =>
    let p := qDoArm q d s
    ({ ok := true, d := p.1, s := p.2 }, ansOf 0x00 0 (dCount p.1))
  | .stat => ({ ok := true, d := d, s := s }, ansOf 0x00 0 (dCount d))

/-- An operation performed by its manager (R307, R308, R321, R322). -/
def qPerform (put : Put) (r : Nat) (e : QErr) (q : QReq) (s : State) : State × QAns :=
  let open_ := ({ s with fresh := s.fresh + 1 }, ansOf 0x04 0 (Config.qCount s.fresh).toNat)
  if regionOut s r then open_
  else match qLoad r q.queue e s with
  | (none, s) => ({ s with fresh := s.fresh + 1 }, ansOf 0x04 0 (Config.qCount s.fresh).toNat)
  | (some d, s) =>
    if !dEn d then (qKeep r d s, ansOf 0x04 0 (dCount d))
    else
      let p := qDoOp put r e q d s
      (qKeep r p.1.d p.1.s, p.2)

/-- The answer on its way to the cell that still waits for it. -/
def qReply (q : QReq) (a : QAns) (s : State) : State :=
  modCell q.core (fun c =>
    match c.stall with
    | .q p sent none u => if p = q then { c with stall := .q p sent (some a) u } else c
    | _ => c) s

/-- The descriptor of a queue as it stands, in its manager's cache or else in the table. -/
def qStands (s : State) (r q : Nat) : QDesc :=
  ((qCacheOf s r).find? (fun d => d.q == q)).getD
    { q := q, ws := (List.range 8).map (fun i => wd (physNat s (qtab s + 64 * q + 8 * i) 8)), stuck := false }

/-- A request of a queue's manager waits, for a link or at a gate: to the table, to the entries and length words at the head and the tail,
or to a buffer (R24, R265). -/
def qPathsWait (s : State) (r q : Nat) (ps : List (Nat × Nat)) : Bool :=
  let d := qStands s r q
  let ring := [dFld d 1 31 0, dFld d 1 63 32].flatMap (fun k => [entryAt d k, lenAt d k])
  !regionOut s r && ((qtab s + 64 * q) :: ring ++ ps.map (fun p => p.1)).any (reqWaits s (qInit r))

/-- The buffer of the blocked enqueue that the next space lets in (R310). -/
def retryParts (s : State) (q : Nat) : List (Nat × Nat) :=
  match (qWaiters s q).find? (fun w => w.op != .wait) with
  | some w => w.parts
  | none => []

/-- The buffers that an operation reads or writes: its own, and after a dequeue that of the enqueue that it lets in. -/
def queueParts (s : State) (q : QReq) : List (Nat × Nat) :=
  q.parts ++ (if q.op = .deq ∨ q.op = .deqd then retryParts s q.queue else [])

/-- The oldest q operation that has reached a region's manager is performed (R307), once the links that it takes are up
and no gate holds it (R24, R265). -/
def queueOperation (put : Put) (r : Nat) (e : QErr) (s : State) : State :=
  match tblGet [] s.qman r with
  | [] => s
  | q :: qs =>
    if pathWaits s (initSite q.core) ⟨some r, none⟩ || qPathsWait s r q.queue (queueParts s q) then s
    else
    let p := qPerform put r e q { s with qman := tblSet r qs s.qman }
    qReply q p.2 p.1

/-! The answer at the cell (R165, R166). -/

/-- A bank's results still in flight, written early into a copy of it. -/
def flightInto (b : Nat) (fly : List FlyOp) (div ph : NpUnit) (k : Bank) : Bank :=
  let k := (fly.filter (fun f => f.bank == b)).foldl (fun k f => applyWr f.wr k) k
  let jobs := fun (u : NpUnit) =>
    ((match u.cur with | some (_, j) => [j] | none => []) ++ u.wait).filter (fun j => j.bank == b)
  (jobs div ++ jobs ph).foldl (fun k j => applyWr (.ports j.wr) k) k

/-- A non-pipelined unit without the jobs of a bank; the one in progress runs on without writing. -/
def npForget (b : Nat) (u : NpUnit) : NpUnit :=
  { cur := u.cur.map (fun e => if e.2.bank = b then (e.1, { e.2 with wr := [] }) else e),
    wait := u.wait.filter (fun j => j.bank != b) }

/-- The thread blocks (R166, R311): its bank is as it stood before the bundle, and the completed bundle is
kept for the wake. Loads and trip acknowledgements that are still out are written to its bank as it stands (R89). -/
def qBlock (u : Undo) (q : QReq) (c : Cell) : Cell :=
  let b := q.bank
  let k1 := flightInto b c.fly c.div c.ph { bankOf c b with dirty := u.wrote ||| 0x80 }
  let k0 := keepPorts (bankOf c b) (flightInto b u.fly u.div u.ph u.bank)
  let c := setBank b k0 { c with fly := c.fly.filter (fun f => f.bank != b), div := npForget b c.div,
                                  ph := npForget b c.ph, stall := .none, stallPc := none }
  let n := c.cur.getD 0
  let t := slotOf c n
  let t := { t with state := 3, waitq := q.queue, fin := some (k1, false) }
  { ranLast n (setSlot n t c) with cur := none, run := 0, resched := true, held := none }

/-- The bundle of a q operation undone: the bank and its units as they stood before it (R92). -/
def qUndo (u : Undo) (q : QReq) (c : Cell) : Cell :=
  undoBank q.bank u { c with stall := .none, stallPc := none, held := none, away := none }

/-- The answer that blocks a thread is still on its way to the cell (R307). -/
def blockComes (w : QWake) (c : Cell) : Bool :=
  match c.stall with
  | .q q _ _ _ => q.slot == w.slot && q.queue == w.queue
  | _ => false

/-- A wake signal reaches the cell (R196, R309), after the answer that blocked the thread. -/
def threadWake (core : Nat) (s : State) : State :=
  modCell core (fun c =>
    match c.wakes with
    | w :: ws => if blockComes w c then c else finishWait w { c with wakes := ws }
    | [] => c) s

/-- A wait or blocked enqueue cancelled (R311): a wake that has already left the manager completes the
bundle; otherwise it is as if the bundle had not issued. The slot is left in state `st`. -/
def cancelWait (core slot st : Nat) (s : State) : State :=
  let c := cellOf s core
  let s := match c.wakes.find? (fun w => w.slot == slot) with
    | some w => modCell core (fun c => finishWait w { c with wakes := c.wakes.erase w }) s
    | none =>
      let q := (slotOf c slot).waitq
      let s := setWaiters q ((qWaiters s q).filter (fun w => !(w.core == core && w.slot == slot))) s
      modCell core (fun c => setSlot slot { slotOf c slot with fin := none } c) s
  modCell core (fun c => setSlot slot { slotOf c slot with state := st } c) s

/-- A blocked thread made ready, suspended or free: its wait is cancelled (R311). -/
def unblock (core n st : Nat) (s : State) : State :=
  let s := cancelWait core n (if st = 1 then 1 else 4) s
  if st = 0 then modCell core (fun c => setSlot n (slotFreed (slotOf c n)) c) s else s

/-- The thread blocks, and a state that was asked of it meanwhile takes effect (R201, R311). A gate of the bundle comes
before, as part of what the wake completes; when it faults, the thread does not wait (R92). -/
def qBlocks (core : Nat) (u : Undo) (q : QReq) (s : State) : State :=
  let s := runAway core s
  if (cellOf s core).run ≠ q.bank then
    setWaiters q.queue ((qWaiters s q.queue).filter (fun w => !(w.core == core && w.slot == q.slot))) s
  else
  let s := modCell core (qBlock u q) s
  match (slotOf (cellOf s core) q.slot).want with
  | some st =>
    unblock core q.slot st (modCell core (fun c => setSlot q.slot { slotOf c q.slot with want := none } c) s)
  | none => s

/-- The answer reaches the cell and the stall ends (R164, R165). An operation whose buffer yielded no data writes nothing,
and a machine check waits for the next interrupt point (R74, R214, R288). -/
def qAnswer (core : Nat) (vret : Ret) (s : State) : State :=
  match (cellOf s core).stall with
  | .q q _ (some a) (some u) =>
    let t := stallPass core s
    let ended := fun (c : Cell) => { c with stall := .none, stallPc := none }
    match a.fault, a.bad with
    | some f, _ => raiseSync core f (modCell core (qUndo u q) t) vret
    | none, some pa =>
      orWait core s (runAway core (raiseMchk core (mchkFlt t core q.om pa false) false
        (uncorrectableAt core pa (modCell core ended t))))
    | none, none =>
      if a.blocked then orWait core s (qBlocks core u q (modCell core ended t))
      else orWait core s (runAway core (modCell core (fun c =>
        setBank q.bank (qrWrite a.status a.len a.count a.data (bankOf c q.bank)) (ended c)) t))
  | _ => s

/-! Hardware postings (R315, R321). -/

/-- A dropped doorbell is also counted by its grid (R361). -/
def postDropped (producer : Nat) (s : State) : State :=
  if 0x110 ≤ producer ∧ producer < 0x120 then bumpReg (0x62300060 + 0x1000 * (producer - 0x110)) 32 s else s

/-- The queue is enabled before its manager reads the descriptor, in its cache or else in the table (R321). -/
def qWasOn (s : State) (r q : Nat) : Bool :=
  dEn (qStands s r q)

/-- A posting performed by the manager of its queue. One that meets an error which disables the queue counts in the
queue's ndrop, a later one in q_hwdrop (R321). -/
def postOne (p : Posting) (e : QErr) (s : State) : State :=
  let r := queueRegion p.queue
  let drop := postDropped p.producer
  let lost := fun (s : State) => drop (bumpObj (qObj r) 5 s)
  if regionOut s r || !s.qReady then lost s
  else
    let on := qWasOn s r p.queue
    match qLoad r p.queue e s with
  | (none, s) => lost s
  | (some d, s) =>
    if !dEn d then (if on then drop (qKeep r (dBump 4 32 d) s) else lost (qKeep r d s))
    else if dE d < p.msg.length then drop (qKeep r (dBump 5 0 d) s)
    else if dN d ≤ dCount d then drop (qKeep r (dBump 4 32 d) s)
    else
      let z := qEnqueue r e p.msg [] d s
      if z.ok then qKeep r z.d z.s else drop (qKeep r (dBump 4 32 z.d) z.s)

/-- The place of a hardware producer (R315): an engine's, a gate's, or the port hub. -/
def producerSite (s : State) (p : Nat) : Site :=
  if 0x310 ≤ p ∧ p < 0x318 then initSite (0x130 + (p - 0x310))
  else if 0x400 ≤ p then addrSite s (gateAddr (p - 0x400)) else ⟨none, none⟩

/-- The oldest waiting posting of a producer reaches its manager, once the links that it takes are up (R24). -/
def hardwarePosting (producer : Nat) (e : QErr) (s : State) : State :=
  match takeFirst (fun p : Posting => p.producer == producer) s.posts with
  | some (p, rest) =>
    let r := queueRegion p.queue
    if pathWaits s (producerSite s producer) ⟨some r, none⟩ || (s.qReady && qPathsWait s r p.queue []) then s
    else postOne p e { s with posts := rest }
  | none => s

/-- The next descriptor of a DMA command queue, taken by its engine (R316), with the tags of its granules; missing
bytes are zero. -/
def qTakeDma (r q : Nat) (e : QErr) (s : State) : Option (List Byte × List Bool) × State :=
  if regionOut s r || !s.qReady then (none, s)
  else match qLoad r q e s with
  | (none, s) => (none, s)
  | (some d, s) =>
    if !dEn d || dCount d == 0 then (none, qKeep r d s)
    else match qPeek r e d s with
    | (p, n) =>
      if !p.ok then (none, qKeep r p.d p.s)
      else
        let a := entryAt d (dFld d 1 31 0)
        let msg := slice (physRead p.s a n) 0 128
        let tags := (List.range 8).map (fun i => decide (16 * i + 16 ≤ n) && memTag p.s (a + 16 * i))
        let z := qAdvance r e p.d p.s
        (some (msg, tags), qKeep r z.d z.s)

/-! The command block (R318, R319). -/

def qBlockAt (r : Nat) : Nat := hubBase r + 0xE00000

/-- The staging words. -/
def qStage (s : State) (r i : Nat) : W := reg s (qBlockAt r + 0x40 + 8 * i)

/-- The words that a create takes from the staging words. -/
def createWords (s : State) (r : Nat) : List W :=
  let w0 := setFld (qStage s r 0) 56 56 1
  let w2 := setFld (qStage s r 2) 7 7 (b2n (fld (qStage s r 2) 9 8 != 0))
  [w0, 0, w2, 0, 0, 0, 0, 0]

/-- The descriptor as a command finds it, with what its manager meets (R321): one that cannot be read counts as not enabled
(DESIGN CHOICE, log entry 61). -/
def qFind (r q : Nat) (s : State) : QDesc × State :=
  match qLoad r q s.qmet s with
  | (some d, s) => (d, qKeep r d s)
  | (none, s) => ({ q := q, ws := List.replicate 8 0, stuck := false }, s)

/-- The create command: the result and the state. -/
def qCreate (r q : Nat) (s : State) : Nat × State :=
  match qFind r q s with
  | (old, s) =>
    let d : QDesc := { q := q, ws := createWords s r, stuck := false }
    let held := (qCacheOf s r).any (fun x => x.q == q && dPin x)
    if dEn old then (0x02, s)
    else match createFail s d with
    | some 0x06 => if dPin d && !held && qPinCap ≤ qPinned s r then (0x05, s) else (0x06, s)
    | some c => (c, s)
    | none =>
      if dPin d && !held && qPinCap ≤ qPinned s r then (0x05, s)
      else
        let p := dbArmed d s
        (0x00, qKeep r p.1 p.2)

/-- The retarget command (R319). -/
def qRetarget (r q : Nat) (s : State) : Nat × State :=
  match qFind r q s with
  | (d, s) =>
    let w := qStage s r 0
    if !dEn d || dFld d 2 21 12 != fld w 9 0 then (0x08, s)
    else (0x00, qKeep r (dPut 2 21 12 (fld w 25 16) d) s)

/-- A command on a queue of this region (R319). A read and a clear of one whose descriptor cannot be read change nothing
(DESIGN CHOICE, log entry 61). -/
def qCommandOn (r q cop : Nat) (s : State) : Nat × State :=
  match cop with
  | 1 => qCreate r q s
  | 2 =>
    match qFind r q s with
    | (d, s) =>
      if !dEn d then (0x08, s)
      else
        let p := qDisable r 0x1 d s
        (0x00, qKeep r p.1 p.2)
  | 3 =>
    match qLoad r q s.qmet s with
    | (none, s) => (0x00, s)
    | (some d, s) =>
      let l := dWords s d
      (0x00, qKeep r d ((List.range 8).foldl (fun s i => setReg (qBlockAt r + 0x40 + 8 * i) (l.getD i 0) s) s))
  | 4 => qRetarget r q s
  | 5 =>
    match qLoad r q s.qmet s with
    | (none, s) => (0x00, s)
    | (some d, s) => (0x00, qKeep r (dPut 7 52 32 0 (dSet 3 0 (dSet 4 0 (dSet 5 0 d)))) s)
  | _ => (0x03, s)

/-- The command in the command word carried out, and cres (R318, R319). -/
def qCommand (r : Nat) (s : State) : State :=
  let w := reg s (qBlockAt r + 0x10)
  let q := fld w 17 0
  let cop := fld w 23 20
  let p := if cop = 0 ∨ 5 < cop then (0x03, s)
    else if !s.qReady then (0x07, s)
    else if queueRegion q ≠ r then (0x01, s)
    else qCommandOn r q cop s
  let s := setRegF (qBlockAt r + 0x18) 15 8 p.1 p.2
  if p.1 = 0 then s else bumpObj (qObj r) 7 s

/-- The word that starts a command on a queue. -/
def qCommandWord (q cop : Nat) : W := wd (q % 2 ^ 18 + cop * 2 ^ 20 + 2 ^ 31)

/-- A write of the queue manager block (R318). -/
def qBlockWrite (r off : Nat) (v : W) (s : State) : State :=
  if off = 0 then
    if r = 0 ∧ !s.qbaseSet then
      setReg (qBlockAt 0) (wd (fld v 47 24 * 2 ^ 24)) { s with qbaseSet := true }
    else s
  else if off = 0x10 then
    let s := setReg (qBlockAt r + 0x10) (wd (fld v 17 0 + fld v 23 20 * 2 ^ 20)) s
    if bit v 31 then qCommand r s else s
  else if 0x40 ≤ off ∧ off < 0x80 then setReg (qBlockAt r + off) v s
  else s

/-- The base takes force everywhere (R318). -/
def qbaseInForce (s : State) : State := if s.qbaseSet then { s with qReady := true } else s

end Sys2Proof.Machine
end

