-- ==== Sys2Proof/Machine/Sched.lean ====
section
/-! DEFINITION. The scheduler and the events of chapter 6 between bundles: exception entries, thread
switches, spills and restores of cocoons, stops, starts and resets of a cell, and its control block. -/

namespace Sys2Proof.Machine

/-! Interrupt points (R111, R113, R176). -/

/-- The core stands at an interrupt point. A block transfer has one between elements, the wait of sys.t.yield at every
boundary (R175), the next bundle's fetch has not begun a bundle, and a stall of another kind has none. -/
def atPoint (c : Cell) : Bool :=
  let free := match c.stall with
    | .none => !inSequence (runBank c)
    | .fetch => !inSequence (runBank c)
    | .blk o => elemPoint c o
    | _ => false
  !c.stopped && c.powered && c.restore.isNone
    && (!hasContext c || c.waiting
      || (free && !loadStall c && c.trpHeld.isNone && c.after.isNone && c.away.isNone))

/-! Exception entry (R206 to R208, R212, R216). -/

/-- A pending event delivered at its level; `r` is how the read of the vector-table granule ends. -/
def deliverEvent (core p : Nat) (e : Pend) (r : Ret) (s : State) : State :=
  match e with
  | .mchk =>
    match (cellOf s core).mchk with
    | (f, esc) :: l =>
      let s := modCell core (fun c => { c with mchk := l }) s
      if esc && levelOf (cellOf s core) != 7 then enterLevel core 7 f true (dlvlMchk s core) s r
      else raiseAt core (if esc then 7 else dlvlMchk s core) f s r
    | [] => s
  | .spill =>
    match (cellOf s core).spillEv with
    | f :: fs => enterLevel core p f false p (modCell core (fun c => { c with spillEv := fs }) s) r
    | [] => s
  | .lse =>
    match (cellOf s core).lse with
    | f :: fs => enterLevel core p f false p (modCell core (fun c => { c with lse := fs }) s) r
    | [] => s
  | .irq n =>
    let f : Flt := { code := 0x80 + n, faddr := 0, finfo := wd n }
    enterLevel core p f false p
      (modCell core (fun c => { c with ipend := c.ipend &&& ~~~(BitVec.ofNat 128 (2 ^ n)) }) s) r


/-- An exception entry at an interrupt point, where a change asked of the running thread takes effect as well (R201); a
requested stop comes first (R207). With `r` a parity error the bank that would be entered is found bad (R214). -/
def exceptionEntry (core : Nat) (r : Ret) (s : State) : State :=
  let c := cellOf s core
  if !isCore core || !atPoint c || c.stopReq then s
  else match nextEvent s core with
  | some (p, e) =>
    if r = .parity then bankParity core (4 + p) s
    else deliverEvent core p e r (modCell core (fun c => { applyWant (startCycle c) with issueT := s.time.dur }) s)
  | none => s

/-! Threads and banks (R195 to R198). -/

/-- The running thread stops running: it becomes ready, as the one that ran last. -/
def leaveThread (c : Cell) : Cell :=
  match c.cur with
  | none => c
  | some n =>
    let t := slotOf c n
    let c := ranLast n (setSlot n { t with state := if t.state = 2 then 1 else t.state } c)
    { c with cur := none, run := 0, stall := .none, stallPc := none, held := none, away := none, walked := false }

/-- A thread's bank as it resumes: with the completion of the bundle that blocked it, and with the resume point left for
it (R210, R309). -/
def slotBank (t : ThSlot) (k : Bank) : Bank :=
  let k := match t.fin with
    | some (f, true) => keepPorts k f
    | _ => k
  match t.resume with
  | some (p, lim, wrote) => resumeBank p lim wrote k
  | none => k

/-- A thread runs from its bank (R197). -/
def runThread (n b : Nat) (c : Cell) : Cell :=
  let t := slotOf c n
  let k := slotBank t (bankOf c b)
  let t := { t with state := 2, bank := some b, clean := false, starved := false, used := 0, resume := none,
                    fin := none, asid := some k.asid }
  { setSlot n t (setBank b k c) with cur := some n, run := b, resched := false }

/-- A bank taken from the thread that held it. -/
def stripBank (b : Nat) (c : Cell) : Cell :=
  match holderOf c b with
  | some n => setSlot n { slotOf c n with bank := none, clean := false } c
  | none => c

/-- Nothing issued from the bank is still to write (R89). -/
def bankQuiet (c : Cell) (b : Nat) : Bool :=
  let np := fun (u : NpUnit) => u.wait.any (fun j => j.bank == b)
    || (match u.cur with | some (_, j) => j.bank == b && !j.wr.isEmpty | none => false)
  !c.fly.any (fun f => f.bank == b) && !np c.div && !np c.ph && !c.loads.any (fun l => l.bank == b)
    && !c.trp.any (fun r => r.bank == b)

/-- Threads whose bank could be written back: neither running nor failed (R198). -/
def victims (c : Cell) : List (Nat × ThSlot) :=
  c.slots.filter (fun e => e.2.bank.isSome && !e.2.clean && e.2.state != 0 && e.2.state != 2
    && e.2.state != 5)

/-- The chosen thread is placed: at once from its bank, or by a restore into a free bank; otherwise it waits,
counted when no bank can be freed (R197, R198). -/
def placeThread (n : Nat) (c : Cell) : Cell :=
  let out := leaveThread c
  match (slotOf c n).bank with
  | some b => { runThread n b out with now := out.now + switchCycles }
  | none =>
    match freeBank c with
    | some b => { stripBank b out with restore := some (n, b) }
    | none =>
      let c := if c.resched then out else c
      if (victims c).isEmpty && !(slotOf c n).starved then
        let t := slotOf c n
        setSlot n { t with nobank := (t.nobank + 1) % 2 ^ 32, starved := true } c
      else c

/-- A choice of the scheduler at an interrupt point (R196). A hub core has no scheduler (R22). -/
def threadSwitch (core : Nat) (s : State) : State :=
  let c := cellOf s core
  if !decide (core < 256) || !atPoint c || decide (5 ≤ c.run) || c.stopReq then s
  else
    let c := applyWant (startCycle c)
    let c := match c.cur with
      | some n => if (slotOf c n).state = 2 then c else { leaveThread c with resched := true }
      | none => c
    if !choiceDue c then setCell core c s
    else match chooseThread c true with
    | none => setCell core { c with resched := false } s
    | some n =>
      if c.cur = some n then
        setCell core { setSlot n { slotOf c n with used := 0 } c with resched := false } s
      else setCell core { placeThread n c with issueT := s.time.dur } s

/-- The running thread has used its quantum: a choice is due (R196). -/
def quantumExpiry (core : Nat) (s : State) : State :=
  modCell core (fun c => if quantumDue c then { c with resched := true } else c) s

/-! Cocoons (R192, R193, R199). -/

/-- A register group's offset in the cocoon (R192). -/
def groupOff (g : Nat) : Nat :=
  if g < 4 then 0x40 * g else if g = 4 then 0x100 else if g = 5 then 0x180 else if g = 6 then 0x200 else 0x230

/-- A register group's bytes in the cocoon. -/
def groupLen (g : Nat) : Nat :=
  if g < 4 then 64 else if g < 6 then 128 else if g = 6 then 48 else 456

/-- The capability ports that group S keeps, after tpcc and the pending branch target (R193). -/
def savedC : List Nat := [0x0C0, 0x0C2, 0x0C9, 0x100, 0x101, 0x160, 0x170, 0x171, 0x1A2]

/-- The word ports that group S keeps, in order (R193). -/
def savedX : List Nat :=
  [0x040, 0x042, 0x060, 0x062, 0x080, 0x081, 0x090, 0x091, 0x092, 0x0A0, 0x0A1, 0x0A2, 0x0C1, 0x0C8,
   0x102, 0x140, 0x142, 0x161, 0x162, 0x163, 0x172, 0x178, 0x179, 0x190, 0x191, 0x1A0, 0x1A1, 0x1A8]

/-- The packed word of group S (R193). -/
def packedWord (k : Bank) : W :=
  wd (k.g.toNat / 2 + fld (portX k 0x041) 2 0 * 2 ^ 8 + fld (portX k 0x061) 2 0 * 2 ^ 12
    + fld (portX k 0x141) 1 0 * 2 ^ 16 + fld (portX k 0x143) 3 0 * 2 ^ 24 + k.memSrc % 32 * 2 ^ 32)

/-- The words of group S. -/
def sWords (c : Cell) (b : Nat) (k : Bank) : List W :=
  [statusWord c b k, rstateWord k, progressWord k, k.krrl, k.krrh, packedWord k, wd k.cyc]
    ++ savedX.map (portX k)

/-- A capability as memory holds it while its address stands where its encoding does not decode to its bounds: without
its tag (R54; log entry 49). -/
def capBeyond (p : Cap) (lim : Option (Int × Int)) : Cap := if lim.isSome then { p with tag := false } else p

/-- The capabilities of group S. -/
def sCaps (k : Bank) : List Cap := capBeyond k.pcc k.lim :: capBeyond k.pend k.pendLim :: savedC.map (portC k)

/-- A group's bytes as the cocoon holds them, and the tags of its granules. -/
def groupImage (c : Cell) (b : Nat) (k : Bank) (g : Nat) : List Byte × List Bool :=
  if g < 4 then ((List.range 8).flatMap (fun i => leBytes 8 (portX k (8 * g + i)).toNat), [])
  else if g < 6 then
    let cs := (List.range 8).map (fun i => portC k (0x20 + 8 * (g - 4) + i))
    (cs.flatMap capBytes, cs.map (fun x => x.tag))
  else if g = 6 then
    ((List.range 4).flatMap (fun i => leBytes 10 (tblGet 0 k.a i).toNat) ++ List.replicate 8 0, [])
  else
    let cs := sCaps k
    (cs.flatMap capBytes ++ (sWords c b k).flatMap (fun w => leBytes 8 w.toNat), cs.map (fun x => x.tag))

/-- Capabilities from bytes and tags. -/
def capsOf (bs : List Byte) (tags : List Bool) (n : Nat) : List Cap :=
  (List.range n).map (fun i => capOfBytes (slice bs (16 * i) 16) (tags.getD i false))

/-- The word fields of group S put back into a bank. -/
def sWordsInto (bs : List Byte) (k : Bank) : Bank :=
  let w := fun (i : Nat) => wd (leNat (slice bs (8 * i) 8))
  let st := w 0
  let rs := w 1
  let pr := w 2
  let pk := w 5
  let k := { k with mask := fld st 6 4, asid := fld st 15 8, rcnt := fld rs 31 0, ract := bit rs 32,
                    rnint := bit rs 33, dly := fld rs 35 34, done := BitVec.ofNat 52 (fld pr 51 0),
                    act := bit pr 52, dir := bit pr 53, krrl := w 3, krrh := w 4,
                    g := BitVec.ofNat 8 (fld pk 6 0 * 2), memSrc := fld pk 36 32, cyc := (w 6).toNat }
  let k := setX 0x041 (wd (fld pk 10 8)) (setX 0x061 (wd (fld pk 14 12))
    (setX 0x141 (wd (fld pk 17 16)) (setX 0x143 (wd (fld pk 27 24)) k)))
  ((List.range 28).zip savedX).foldl (fun k e => setX e.2 (w (7 + e.1)) k) k

/-- A group put back into a bank. -/
def groupInto (g : Nat) (bs : List Byte) (tags : List Bool) (k : Bank) : Bank :=
  if g < 4 then
    (List.range 8).foldl (fun k i => setX (8 * g + i) (wd (leNat (slice bs (8 * i) 8))) k) k
  else if g < 6 then
    ((List.range 8).zip (capsOf bs tags 8)).foldl (fun k e => setC (0x20 + 8 * (g - 4) + e.1) e.2 k) k
  else if g = 6 then
    (List.range 4).foldl (fun k i => setA i (BitVec.ofNat 80 (leNat (slice bs (10 * i) 10))) k) k
  else
    let cs := capsOf bs tags 11
    let k := { k with pcc := cs.getD 0 Cap.null, pend := cs.getD 1 Cap.null }
    let k := (savedC.zip (cs.drop 2)).foldl (fun k e => setC e.1 e.2 k) k
    sWordsInto (bs.drop 176) k

/-- Why a CONTEXT capability is not usable (R199): the reason of R213, which sres repeats (R220). -/
def contextFail (c : Cap) : Option Nat :=
  let need := permINVOKE ||| permLD ||| permST ||| permLDC ||| permSTC ||| permSTL
  if !c.tag then some 1
  else if capOtype c != otypeContext then some 2
  else if !capHas c need then some 3
  else if capLen c < 1024 ∨ capBase c % 16 ≠ 0 then some 4
  else none

/-- A failed cocoon access: virtual address and reason (R213). -/
abbrev CocoonErr := Nat × Nat

/-- The translation of a page of a cocoon, without key rights (R199, R241): where a tagged granule is written, which
must pass check 11 of R240, `tag` is its place in the page's part. The physical address and whether tags pass. Whatever
keeps the walk from its leaf, a denied table read among it, is a translation fault, reason 0x5 (DEDUCED, log entry
100). -/
def cocoonPage (core asid : Nat) (write : Bool) (a : Nat) (tag : Option Nat) (s : State) :
    State × Except CocoonErr (Nat × Bool) :=
  match unstalled core (xlate core asid (wd a) (if write then .store else .load) none) s with
  | (s, .error _) => (s, .error (a, 5))
  | (s, .ok r) =>
    match tag with
    | none => (s, .ok r)
    | some i =>
      match unstalled core (xlate core asid (wd (a + 16 * i)) .capStore none) s with
      | (s, .error _) => (s, .error (a + 16 * i, 5))
      | (s, .ok _) => (s, .ok r)

/-- The physical parts of a cocoon range, translated and checked at the gates (R199, R241), and of each whether tags may
pass; `tags` are those of the granules to be written. A request that must wait holds the command up (R24, R265). -/
def cocoonParts (core asid : Nat) (write : Bool) : List (Nat × Nat) → List Bool → State →
    State × Except CocoonErr (List (Nat × Nat) × List Bool)
  | [], _, s => (s, .ok ([], []))
  | (a, n) :: ps, tags, s =>
    let rq : Rq := if write then .write else .read
    let mine := tags.take (n / 16)
    match cocoonPage core asid write a (if write && mine.any (fun t => t) then some (mine.findIdx (fun t => t)) else none) s with
    | (s, .error e) => (s, .error e)
    | (s, .ok (pa, ok)) =>
      if reqWaits s core pa then (holdUp core s, .error (a, 6))
      else match rangeCheck s core pa n rq with
      | some (d, x) => (gateEvent core x rq d s, .error (a + (x - pa), 6))
      | none =>
        match cocoonParts core asid write ps (tags.drop (n / 16)) s with
        | (s, .error e) => (s, .error e)
        | (s, .ok (qs, oks)) => (s, .ok ((pa, n) :: qs, ok :: oks))

/-- How the accesses of a group, from virtual address `va`, to its parts end: what is counted (R288), and the failing
address with the reason of R213. -/
def groupRet (core va : Nat) (write : Bool) (ps : List (Nat × Nat)) (r : Ret) (s : State) : State × Option CocoonErr :=
  let e := partsRet s write ps r
  match e.1 with
  | .pathFail => (bumpFresh s, some (va + e.2.2, 6))
  | .uncorrectable => (uncorrectableAt core e.2.1 (bumpFresh s), some (va + e.2.2, 7))
  | .corrected => (correctedAt core e.2.1 s, none)
  | _ => (s, none)

/-- The first `n` bytes of a group written to its cocoon, the accesses ending as `r` says. Of a group whose access fails
nothing is written (DESIGN CHOICE, log entry 101). -/
def spillGroup (core b : Nat) (k : Bank) (base : Nat) (r : Ret) (n g : Nat) (s : State) :
    State × Option CocoonErr :=
  let im := groupImage (cellOf s core) b k g
  let va := base + groupOff g
  match cocoonParts core k.asid true (pagesOf 2 va n) im.2 s with
  | (s, .error e) => (s, some e)
  | (s, .ok (ps, _)) =>
    match groupRet core va true ps r s with
    | (s, some e) => (s, some e)
    | (s, none) =>
      let s := partsWrite ps (im.1.take n) s
      let gs := (partGrans () ps []).zip im.2
      ({ s with tags := gs.foldl (fun t x =>
          if x.2 && taggable x.1.1 then tagPut (x.1.1 / 16) true t else t) s.tags }, none)

/-- Groups written in order until one fails; `r` befalls group `at_`. -/
def spillGroups (core b : Nat) (k : Bank) (base : Nat) (r : Ret) (at_ : Nat) :
    List Nat → State → State × Option (CocoonErr × Nat)
  | [], s => (s, none)
  | g :: gs, s =>
    match spillGroup core b k base (if g = at_ then r else .ok) (groupLen g) g s with
    | (s, some e) => (s, some (e, g))
    | (s, none) => spillGroups core b k base r at_ gs s

/-- The groups whose bit is set. -/
def groupsOf (m : BitVec 8) : List Nat := (List.range 8).filter (fun g => m.getLsbD g)

/-- The SPILL event of a failure (R213). -/
def spillFlt (slot : Nat) (restore : Bool) (faddr reason group : Nat) : Flt :=
  { code := causeSpill, faddr := wd (faddr / 16 * 16),
    finfo := wd (slot + b2n restore * 2 ^ 6 + reason * 2 ^ 8 + group * 2 ^ 16) }

/-- A thread bank's dirty groups written to its cocoon (R198, R199): done, or the event of the failure. -/
def spillBank (core n b : Nat) (r : Ret) (at_ : Nat) (s : State) : State × Option Flt :=
  let c := cellOf s core
  let t := slotOf c n
  let k := bankOf c b
  let base := (capBase t.ctx).toNat
  match contextFail t.ctx with
  | some e => (s, some (spillFlt n false base e 0))
  | none =>
    match spillGroups core b k base r at_ (groupsOf k.dirty) s with
    | (s, some (e, g)) => (s, some (spillFlt n false e.1 e.2 g))
    | (s, none) =>
      (modCell core (fun c =>
        setSlot n { slotOf c n with clean := true, wmask := t.wmask ||| k.dirty, seq := k.seqChk }
          (setBank b { bankOf c b with dirty := 0 } c)) s, none)

/-- A spill or restore failed (R200): the slot fails and SPILL is pending. -/
def spillFailed (core n : Nat) (f : Flt) (s : State) : State :=
  modCell core (fun c => { setSlot n { slotOf c n with state := 5 } c with spillEv := c.spillEv ++ [f] }) s

/-- The engine's next victim (R198): more than five threads installed, no bank free. A thread with an operation still
outstanding, whose bank R89 keeps from being spilled, is passed over (DESIGN CHOICE, log entry 82). -/
def spillVictim (c : Cell) : Option (Nat × Nat) :=
  let installed := (c.slots.filter (fun e => e.2.state != 0)).length
  if installed ≤ 5 ∨ (freeBank c).isSome then none
  else match minBy (fun e => e.2.last)
      ((victims c).filter (fun e => match e.2.bank with | some b => bankQuiet c b | none => false)) with
    | some e => e.2.bank.map (fun b => (e.1, b))
    | none => none

/-- A spill ends (R198, R200): the bank is free, or the engine stops. A parity error found in the bank is a
machine check (R214). -/
def spillComplete (core : Nat) (r : Ret) (at_ : Nat) (s : State) : State :=
  let c := cellOf s core
  if c.spillHalt || c.stopped || decide (256 ≤ core) then s
  else match spillVictim (startCycle c) with
  | none => s
  | some (n, b) =>
    let s := modCell core startCycle s
    if r = .parity then bankParity core b s
    else match spillBank core n b r at_ s with
      | (s, none) => s
      | (t, some f) => orWait core s (modCell core (fun c => { c with spillHalt := true }) (spillFailed core n f t))

/-- The first granules of a bank's groups written, in order. -/
def spillSome (core b : Nat) (k : Bank) (base : Nat) : Nat → List Nat → State → State
  | _, [], s => s
  | n, g :: gs, s =>
    if n = 0 then s
    else match spillGroup core b k base .ok (min (16 * n) (groupLen g)) g s with
      | (t, none) => spillSome core b k base (n - (groupLen g + 15) / 16) gs t
      | (t, some _) => orWait core s t

/-- A slot freed while its spill is in progress: the spill is abandoned, and the granules written so far, a free number of
them, keep their new contents (R201). -/
def spillAbandon (core n : Nat) (s : State) : State :=
  let c := startCycle (cellOf s core)
  match spillVictim c with
  | some (v, b) =>
    let t := slotOf c n
    if v ≠ n ∨ c.spillHalt ∨ c.stopped ∨ (contextFail t.ctx).isSome then s
    else spillSome core b (bankOf c b) (capBase t.ctx).toNat (Config.spilled s.fresh) (groupsOf (bankOf c b).dirty)
      (bumpFresh s)
  | none => s

/-- Groups read from a cocoon into a bank until one fails. -/
def restoreGroups (core asid base : Nat) (r : Ret) (at_ : Nat) :
    List Nat → Bank → State → State × Except (CocoonErr × Nat) Bank
  | [], k, s => (s, .ok k)
  | g :: gs, k, s =>
    let va := base + groupOff g
    match cocoonParts core asid false (pagesOf 2 va (groupLen g)) [] s with
    | (s, .error e) => (s, .error (e, g))
    | (s, .ok (ps, oks)) =>
      match groupRet core va false ps (if g = at_ then r else .ok) s with
      | (s, some e) => (s, .error (e, g))
      | (s, none) =>
        let tags := (partGrans true ps oks).map (fun x => x.2 && physTag s x.1)
        restoreGroups core asid base r at_ gs (groupInto g (partsRead s ps) tags k) s

/-- A bank as the cocoon gives it: the groups of the written mask, every other group zero (R197); the bundles still to
be checked under R182 are the thread's. -/
def restoreBank (core asid n : Nat) (r : Ret) (at_ : Nat) (s : State) : State × Except Flt Bank :=
  let t := slotOf (cellOf s core) n
  let base := (capBase t.ctx).toNat
  match contextFail t.ctx with
  | some e => (s, .error (spillFlt n true base e 0))
  | none =>
    match restoreGroups core asid base r at_ (groupsOf t.wmask) {} s with
    | (s, .error (e, g)) => (s, .error (spillFlt n true e.1 e.2 g))
    | (s, .ok k) => (s, .ok { k with seqChk := t.seq })

/-- Cycles of a restore of `g` groups (R188). -/
def restoreCycles (g : Nat) : Nat := 12 + 12 * g

/-- The restore under way ends (R197, R200). The thread's address space is the one its status holds; the
command names it while the slot does not know it (R199). -/
def cocoonRestore (core asid : Nat) (r : Ret) (at_ : Nat) (s : State) : State :=
  let c := cellOf s core
  match c.restore with
  | none => s
  | some (n, b) =>
    let t := slotOf c n
    let stop := { c with restore := none, resched := true }
    if t.state ≠ 1 || decide (256 ≤ core) then setCell core stop s
    else match restoreBank core (t.asid.getD asid) n r at_ s with
    | (t, .error f) =>
      orWait core s (spillFailed core n f (modCell core (fun c => { c with restore := none, resched := true }) t))
    | (s1, .ok k) =>
      if t.asid.isNone && k.asid != asid then s
      else
        modCell core (fun c =>
          let c := { setBank b k c with restore := none }
          let c := { runThread n b c with issueT := s.time.dur }
          { c with now := c.now + restoreCycles (groupsOf t.wmask).length }) s1

/-! Interrupt sources (R215, R216). -/

/-- The compare's distance from the timebase, in nanoseconds (R215). -/
def tcmpDist (s : State) (v : W) : Int :=
  let now := s.time.now
  let d : Nat := (fld v 63 32 + 2 ^ 32 - now / tSec % 2 ^ 32) % 2 ^ 32
  let ds : Int := if 2 ^ 31 ≤ d then Int.ofNat d - 2 ^ 32 else Int.ofNat d
  ds * 1000000000 + (Int.ofNat (fld v 31 0) - Int.ofNat (now % tSec / 2 ^ 32))

/-- An armed compare that the timebase has reached raises source 0 once. -/
def tcmpFire (core : Nat) (s : State) : State :=
  let c := cellOf s core
  if c.tcmpArm && decide (tcmpDist s (reg s (ctlBase core + 0x88)) ≤ 0) then
    raiseIrq core 0 (setCell core { c with tcmpArm := false } s)
  else s

/-- A write of an interrupt map entry. -/
def imapWrite (core i : Nat) (v : W) (s : State) : State :=
  let s := setReg (ctlBase core + 0x400 + 8 * i) (wd (fld v 2 0)) s
  if bit v 4 then
    modCell core (fun c => { c with ipend := c.ipend &&& ~~~(BitVec.ofNat 128 (2 ^ i)) }) s
  else s

/-- A write of the entry word: ENTRY is latched or refused (R209); `r` is how the read of its granule ends. -/
def entryWrite (core : Nat) (v : W) (r : Ret) (s : State) : State :=
  let s := setReg (ctlBase core + 0x10) v s
  let put := fun (e : Cap) (refused : Bool) (s : State) =>
    modCell core (fun c => { c with entry := e, entRef := refused }) s
  if v.toNat % 16 ≠ 0 then put Cap.null true s
  else match gateCheck s core v.toNat 16 .read with
  | .error d => put Cap.null true (gateEvent core v.toNat .read d s)
  | .ok _ =>
    let latch := fun (s : State) =>
      let c := physCap s v.toNat
      if c.tag && capHas c permEX && (capOtype c == 0 || capOtype c == otypeEntry) then put c false s
      else put Cap.null true s
    match retAt s v.toNat r with
    | .uncorrectable => put Cap.null true (uncorrectableAt core v.toNat s)
    | .pathFail => put Cap.null true s
    | .corrected => latch (correctedAt core v.toNat s)
    | _ => latch s

/-! Stop, flush, start and reset of a cell (R217, R219). -/

/-- A stop that was requested, at an interrupt point. -/
def cellStop (core : Nat) (s : State) : State :=
  let c := cellOf s core
  if isCore core && c.stopReq && atPoint c then
    stopCell core none (modCell core (fun c => applyWant (startCycle c)) s)
  else s

/-- A slot is lost (R217). -/
def loseSlot (core n : Nat) (s : State) : State := setRegF (ctlBase core + 0x58) n n 1 s

/-- A load whose data is present writes it. -/
def loadSettle (c : Cell) (l : PLoad) : Cell :=
  match l.got with
  | some g => if l.arr then loadWrite l g.1 g.2 c else c
  | none => c

/-- What units still have to write to a bank is written, and the loads whose data is present (R89). -/
def bankSettle (b : Nat) (c : Cell) : Cell :=
  let mine := fun (l : PLoad) => l.bank == b && l.arr && l.got.isSome
  let c := { setBank b (flightInto b c.fly c.div c.ph (bankOf c b)) c with
    fly := c.fly.filter (fun f => f.bank != b), div := npForget b c.div, ph := npForget b c.ph }
  { (c.loads.filter mine).foldl loadSettle c with loads := c.loads.filter (fun l => !mine l) }

/-- Loads or trip invocations of a bank are still out. -/
def bankOut (c : Cell) (b : Nat) : Bool :=
  c.loads.any (fun l => l.bank == b && !l.arr) || c.trp.any (fun r => r.bank == b)

/-- One thread bank flushed: its slot is lost when it is poisoned, failed, or its flush fails; the outcome of the command
befalls one group of one slot. -/
def flushBank (core b : Nat) (e : FlushRead) (s : State) : State :=
  match holderOf (cellOf s core) b with
  | none => s
  | some n =>
    let s := modCell core (bankSettle b) s
    let c := cellOf s core
    if (bankOf c b).poison || (slotOf c n).state == 5 then loseSlot core n s
    else if (bankOf c b).dirty = 0 then s
    else match spillBank core n b (if n = e.slot then e.ret else .ok) e.group s with
      | (s, none) => s
      | (s, some _) => loseSlot core n s

/-- A slot without a bank for which a completion or a resume point is kept. -/
def slotKept (t : ThSlot) : Bool := t.bank.isNone && t.state != 0 && (t.fin.isSome || t.resume.isSome)

/-- A completed bundle or a resume point that is kept for a thread without a bank goes to its cocoon (R210, R217). -/
def flushKept (core n : Nat) (e : FlushRead) (s : State) : State :=
  let t := slotOf (cellOf s core) n
  match restoreBank core (t.asid.getD 0) n .ok 8 s with
  | (s, .error _) => loseSlot core n s
  | (s, .ok k) =>
    let k := slotBank t k
    match spillGroups core 0 k (capBase t.ctx).toNat (if n = e.slot then e.ret else .ok) e.group (List.range 8) s with
    | (s, some _) => loseSlot core n s
    | (s, none) =>
      modCell core (fun c =>
        setSlot n { slotOf c n with fin := none, resume := none, wmask := 0xFF, seq := k.seqChk } c) s

/-- Slots whose context has not been flushed. -/
def unflushed (c : Cell) : List Nat :=
  (c.slots.filter (fun e => match e.2.bank with
    | some b => e.2.state != 0 && (bankOf c b).dirty != 0
    | none => slotKept e.2)).map (fun e => e.1)

/-- The waits of every blocked thread cancelled, as its cell has stopped (R311). -/
def cancelAll (core : Nat) (s : State) : State :=
  ((cellOf s core).slots.filter (fun e => e.2.state == 3)).foldl (fun s e => cancelWait core e.1 1 s) s

/-- The flush itself: every thread bank, and what is kept for threads without one. -/
def flushAll (core : Nat) (e : FlushRead) (s : State) : State :=
  let s := (List.range 5).foldl (fun s b => flushBank core b e s) s
  ((cellOf s core).slots.filter (fun x => slotKept x.2)).foldl (fun s x => flushKept core x.1 e s) s

/-- The start of a stopped cell: an entry at level 1 with code START (R219); `r` is how the read of the vector-table
granule ends (R209). -/
def startCell (core : Nat) (s : State) (r : Ret := .ok) : State :=
  let c := cellOf s core
  if !c.stopped || c.flush || !c.powered then s
  else
    let c := match c.cur with
      | some n =>
        ranLast n (setSlot n { slotOf c n with state := if (slotOf c n).state = 2 then 1 else (slotOf c n).state } c)
      | none => c
    let c := { c with stopped := false, runBit := true, cur := none, run := 0, held := none, stopReq := false,
                      resched := true }
    let s := setCell core c s
    let s := if core < 256 then recOut (.cell core) false s else s
    enterLevel core 1 { code := 0, faddr := 0, finfo := 0 } false 1 s r

/-- Operations of a core that its q units have under way are dropped (R219). -/
def forgetRequests (core : Nat) (s : State) : State :=
  let mine := fun (l : List QReq) => l.filter (fun r => r.core != core)
  { s with qman := s.qman.map (fun e => (e.1, mine e.2)),
           qwait := (s.qwait.map (fun e => (e.1, mine e.2))).filter (fun e => !e.2.isEmpty) }

/-- A cell reset (R219): all banks zero with clear tags, all slots free, ENTRY untagged, pending sources
cleared (R314), the cell stopped. The rest of a cell's state R219 does not name: what it has sent is kept, the store
buffer, the invalidations and the records of late store errors, with the TLB; the timer compare is disarmed (DESIGN
CHOICE, log entry 84). A cell that ran is stopped, and its record says so (R293). -/
def resetCell (core : Nat) (vtm : Bool) (s : State) : State :=
  let ran := !(cellOf s core).stopped || (cellOf s core).flush
  let s := forgetRequests core (cancelAll core s)
  let s := if core < 256 ∧ ran then recOut (.cell core) true s else s
  modCell core (fun c =>
    { now := c.now, sb := c.sb, tlb := c.tlb, wc := c.wc, inv := c.inv, lse := c.lse, lseDrop := c.lseDrop,
      lseOvf := c.lseOvf, tbaseOk := c.tbaseOk, powered := c.powered, wdStart := s.time.dur, vtm := vtm,
      reqNo := c.reqNo }) s

/-- The end of a watchdog's stop: the block resets the cell and records the event (R287). -/
def watchdogEnd (n : Nat) (s : State) : State :=
  let s := resetCell n (cellOf s n).vtm s
  recLvc (.block (n / 16)) (recTmo (.cell n) (errEvent (.cell n) 0x07 n n 0 s))

/-- The flush of a stopped core is over, with the lost slots marked: cctl.stopped reads 1, and the block is notified, event
0x06 (R217, R295). After a watchdog's stop the cell is reset. -/
def flushOver (core : Nat) (s : State) : State :=
  let wd_ := (cellOf s core).wdStop.isSome
  let s := if core < 256 then recOut (.cell core) true (errEvent (.cell core) 0x06 core core 0 s) else s
  let s := modCell core (fun c =>
    { (List.range 12).foldl (fun c b => bankSettle b c) c with
      flush := false, wdStop := none, div := {}, ph := {}, loads := [] }) s
  if wd_ then watchdogEnd core s else s

/-- The stop flush done (R217, R311). Level banks keep what units still had to write to them (R89). -/
def flushEnd (core : Nat) (e : FlushRead) (s : State) : State :=
  let s := setReg (ctlBase core + 0x58) 0 (cancelAll core s)
  flushOver core (if core < 256 then flushAll core e s else s)

/-- The stop flush ends (R217). It waits for the loads and trip invocations still out, whose results go to their banks (R89),
as for a link or a gate (R24, R265). -/
def flushDone (e : FlushRead) (s : State) : State :=
  let c := cellOf s e.core
  if !c.flush then s
  else if (List.range 12).any (bankOut c) then s
  else orWait e.core s (flushEnd e.core e s)

/-- The flush has not ended in its time: what is not flushed is lost (R287). -/
def flushLate (core : Nat) (s : State) : State :=
  let s := setReg (ctlBase core + 0x58) 0 (cancelAll core s)
  flushOver core ((unflushed (cellOf s core)).foldl (fun s n => loseSlot core n s) s)

/-- A core whose q operation is under way is put back to before its bundle, for a stop that does not wait for an
interrupt point: the bundle has not completed (R165, R311). -/
def stallUndo (core : Nat) (s : State) : State :=
  modCell core (fun c => match c.stall with
    | .q q _ _ (some u) => qUndo u q c
    | _ => c) (match (cellOf s core).stall with | .q _ _ _ _ => forgetRequests core s | _ => s)

/-- A write of cctl (R219). -/
def cctlWrite (core : Nat) (v : W) (s : State) (r : Ret := .ok) : State :=
  if bit v 2 then resetCell core (bit v 1) s
  else
    let s := modCell core (fun c => { c with vtm := bit v 1 }) s
    let c := cellOf s core
    if bit v 0 then (if c.stopped then startCell core s r else setCell core { c with runBit := true } s)
    else if c.stopped then s else setCell core { c with stopReq := true, runBit := false } s

/-! Bank loads (R218). -/

def bankActive (c : Cell) (b : Nat) : Bool := !c.stopped && (activeLevels c 8 c.run).contains b

/-- A write of bkld: a load begins, or is refused. While one is in progress a write is ignored (DESIGN CHOICE, log entry
83). -/
def bkldWrite (core : Nat) (v : W) (s : State) : State :=
  let c := cellOf s core
  let b := fld v 3 0
  if c.bkBusy.isSome then s
  else if b < 5 ∨ 11 < b ∨ bankActive c b = true ∨ 2 ^ 52 ≤ (reg s (ctlBase core + 0x100)).toNat then
    setCell core { c with bkRef := true } s
  else setCell core { c with bkBusy := some (b, fld v 47 4 * 16), bkRef := false } s

/-- The places of a bank load's elements. -/
def bkldParts (base : Nat) (els : List Nat) : List (Nat × Nat) :=
  els.map (fun i => (base + (elemPlace i).1, (elemPlace i).2.1))

/-- The first element of a bank load whose access is denied. -/
def bkldDenied (s : State) (core base : Nat) (els : List Nat) : Option (Deny × Nat) :=
  (bkldParts base els).findSome? (fun p => rangeCheck s core p.1 p.2 .read)

/-- A bank load ends: the masked elements are loaded with their tags and poison clears, or it is refused and
loads nothing. -/
def bkldComplete (core : Nat) (r : Ret) (s : State) : State :=
  match (cellOf s core).bkBusy with
  | none => s
  | some (b, base) =>
    let els := (List.range 52).filter (fun i => bit (reg s (ctlBase core + 0x100)) i)
    if (bkldParts base els).any (fun p => reqWaits s core p.1) then s
    else
    let s := modCell core (fun c => { c with bkBusy := none }) s
    let refuse := fun (s : State) => modCell core (fun c => { c with bkRef := true }) s
    match bkldDenied s core base els with
    | some (d, a) => refuse (gateEvent core a .read d s)
    | none =>
      let e := partsRet s false (bkldParts base els) r
      match e.1 with
      | .uncorrectable => refuse (uncorrectableAt core e.2.1 (bumpFresh s))
      | .pathFail => refuse s
      | r =>
        let s := if r = .corrected then correctedAt core e.2.1 s else s
        let k := els.foldl (fun k i =>
          let e := elemPlace i
          elemWrite k i (physRead s (base + e.1) e.2.1) (physTag s (base + e.1)))
          (bankOf (cellOf s core) b)
        modCell core (setBank b { k with poison := false }) s

/-! Thread slots (R201, R220). -/

/-- A thread set ready, suspended or free. A change of the running thread takes effect at the next interrupt point: at once
where the core stands at one, stopped or waiting, or else before the next bundle that stands at one (R201). -/
def slotState (core n st : Nat) (s : State) : State :=
  let s := if st = 0 then spillAbandon core n s else s
  let c := cellOf s core
  let t := slotOf c n
  if t.state = 3 then unblock core n st s
  else if t.state = 2 then
    if st = 1 then setCell core (setSlot n { t with want := none } c) s
    else if c.stopped || c.waiting then setCell core (applyWant (setSlot n { t with want := some st } c)) s
    else if 5 ≤ c.run then setCell core (setSlot n { t with want := some st } c) s
    else setCell core { setSlot n { t with want := some st } c with resched := true } s
  else if st = 0 then setCell core (setSlot n (slotFreed t) c) s
  else setCell core (setSlot n { t with state := st } c) s

/-- A write of a slot's control word. -/
def slotCtlWrite (core n : Nat) (v : W) (s : State) : State :=
  let st := fld v 2 0
  let s := modCell core (fun c => setSlot n { slotOf c n with prio := fld v 11 8 } c) s
  if st = 0 ∨ st = 1 ∨ st = 4 then slotState core n st s else s

/-- A write that the level-7 handler of a cell makes to a slot's control word of its cell: a spill engine that had stopped
resumes (R200). `b` is the bank that made the write. -/
def handlerWrite (core b a : Nat) (s : State) : State :=
  let o := a - ctlBase core
  let admitted := match gateCheck s core a 8 .write with
    | .ok _ => true
    | .error _ => false
  if b = 11 ∧ core < 256 ∧ ctlBase core + 0x1000 ≤ a ∧ o < 0x2000 ∧ o % 64 = 0 ∧ admitted = true then
    modCell core (fun c => { c with spillHalt := false }) s
  else s

/-- A write of a slot's ctx word (R201, R220): the CONTEXT granule is read and the thread installed. The low 4 bits of the
address are ignored, and a granule whose read is denied or fails gives the sres of an untagged one (DESIGN CHOICE, log
entry 85). -/
def slotCtxWrite (core n : Nat) (v : W) (s : State) : State :=
  let t := slotOf (cellOf s core) n
  let result := fun (r : Nat) (s : State) =>
    modCell core (fun c => setSlot n { slotOf c n with sres := r } c) s
  if t.state ≠ 0 then result 5 s
  else
    let a := fld v 47 0 / 16 * 16
    match gateCheck s core a 16 .read with
    | .error d => result 1 (gateEvent core a .read d s)
    | .ok _ =>
      if poisoned s a then result 1 (uncorrectableAt core a s)
      else
      let x := physCap s a
      match contextFail x with
      | some r => result r s
      | none =>
        modCell core (fun c => setSlot n
          { t with state := 1, ctx := x, bank := none, clean := false, sres := 0, wmask := 0xFF, used := 0,
                   resume := none, fin := none, asid := none, want := none, seq := 0, starved := false } c) s

/-- A write of a thread slot's words; a hub core has no scheduler and no slots (R22). -/
def slotWrite (core n off : Nat) (v : W) (s : State) : State :=
  if 256 ≤ core then s
  else match off with
  | 0x00 => slotCtlWrite core n v s
  | 0x08 => modCell core (fun c => setSlot n { slotOf c n with quantum := v.toNat } c) s
  | 0x10 => slotCtxWrite core n v s
  | 0x38 => modCell core (fun c =>
      if (slotOf c n).state = 0 then setSlot n { slotOf c n with tid := fld v 15 0 } c else c) s
  | _ => s

/-- dlvl: a field written 0 is unchanged (R218). -/
def dlvlWrite (core : Nat) (v : W) (s : State) : State :=
  let a := ctlBase core + 0x28
  [0, 4, 8].foldl (fun s lo => if fld v (lo + 2) lo = 0 then s else setRegF a (lo + 2) lo (fld v (lo + 2) lo) s) s

/-- A write of a word of a core's control block (R218). -/
def cellBlockWrite (core off : Nat) (v : W) (s : State) : State :=
  if 0x1000 ≤ off ∧ off < 0x2000 then slotWrite core ((off - 0x1000) / 64) ((off - 0x1000) % 64) v s
  else if 0x400 ≤ off ∧ off < 0x800 then imapWrite core ((off - 0x400) / 8) v s
  else match off with
  | 0x008 => cctlWrite core v s
  | 0x010 => entryWrite core v .ok s
  | 0x020 => setReg (ctlBase core + off) v s
  | 0x028 => dlvlWrite core v s
  | 0x080 => raiseIrq core 1 s
  | 0x088 => modCell core (fun c => { c with tcmpArm := v != 0 }) (setReg (ctlBase core + off) v s)
  | 0x090 => setReg (ctlBase core + off) (wd (fld v 15 0)) s
  | 0x100 => setReg (ctlBase core + off) v s
  | 0x108 => bkldWrite core v s
  | _ => s

/-! Translation walks (R243). -/

/-- The walk after a TLB miss of the running bank, its table read of number `at_` ending as `r` says (R243, R244). The
walk of the next bundle's fetch fills the TLB, or raises its fault at that bundle. A walk for data fills the TLB ahead of
its access, to whose stall its time belongs; one that ends in a fault leaves it to the access, which meets a read error of
this walk (log entry 60). -/
def translationWalk (core : Nat) (va : W) (acc : Acc) (w : WalkRead) (s : State) : State :=
  let c := cellOf s core
  let k := runBank c
  let r := w.ret
  if !decide (core < 256) || !mayIssue (if acc = .fetch then fetchResumed core s else s) core || k.asid == 0 || (c.tlb.filter (tlbHit k.asid va)).length == 1
      || (acc == .fetch && (k.pcc.addr != va || (fetchFail k).isSome)) then s
  else
    let s1 := if r = .ok then s else setCell core { c with walkBad := some (va, r, w.at_) } s
    if acc = .fetch then
      match xlate core k.asid va acc (some k) s1 with
      | (s, .ok _) => walkPass core s
      | (t, .error e) => orWait core s (raiseSync core (xFault e false acc k.asid va) (walkPass core t) w.vret)
    else if r = .uncorrectable ∨ r = .pathFail then s1
    else match xlate core k.asid va acc (some k) s1 with
      | (s, .ok _) => s
      | (_, .error _) => s

end Sys2Proof.Machine
end

