-- ==== Sys2Proof/Machine/Device.lean ====
section
/-! DEFINITION. The device state (R468, R469) and the out conditions that degrade it. -/

namespace Sys2Proof.Machine

/-- An out condition holds: a region fenced, a block offline, or a hub core lost (R468). -/
def outCond (s : State) : Bool := s.fenced.isSome || !s.offline.isEmpty || !s.hubLost.isEmpty

/-- A device state entered; the transition is logged with the old and new state (R469, R489). -/
def setDev (d : Nat) (s : State) : State :=
  if s.dev = d then s
  else logFree 0x01 0x03 0 (s.dev + d * 2 ^ 8) { s with dev := d }

/-- An out condition that arises while running (R469). -/
def degrade (s : State) : State := if s.dev = 1 ∧ outCond s then setDev 3 s else s

/-- The state that a commit or the end of maintenance enters (R469). -/
def enterService (s : State) : State := setDev (if outCond s then 3 else 1) s

end Sys2Proof.Machine
end

