-- ==== Sys2Proof/Machine/Reset.lean ====
section
/-! DEFINITION. The power state of the chip, the island's copy of the time, and chip reset (R80 to R82, R263,
R403, R533). -/

namespace Sys2Proof.Machine

/-- A power state entered, and logged with the old and new state (R550). -/
def setPstate (k : Nat) (s : State) : State :=
  let old := pstateOf s
  if old = k then s else logFree 0x0B 0x05 0 (old + k * 2 ^ 8) (setRegF pcBase 2 0 k s)

/-! The island's time copy (R403). -/

/-- The copy as the running timebase leaves it, with the state and the moment lock was lost. One that has not been loaded yet
leaves the copy as it is (R403). -/
def islandCapture (s : State) : State :=
  if !timeRuns s then s
  else
  { s with chip := { s.chip with isl := s.time.now / (1000 * 2 ^ 32), islRef := s.chip.ref,
                                 islOk := true, islSt := s.time.state,
                                 islLost := if s.time.state = 2 then s.time.dur else s.time.lost,
                                 islSrc := s.time.lastSrc } }

/-- Holdover has lasted holdlim, as its present value says (R400). -/
def holdOver (s : State) : Bool :=
  s.time.state == 3 && decide (s.time.lost + regF s (partTime + 0x28) 31 0 * tSec ≤ s.time.dur)

/-- Whether a holdover loaded from the island still counts as locked (R400, R403). -/
def holdAgain (s : State) : State := { s with time := { s.time with expired := holdOver s } }

/-- The timebase loaded from the island at a start, with no source active: holdover is timed from the loss of lock
(R403). -/
def islandLoad (s : State) : State :=
  let s := setRegF partTime 7 5 0 s
  if s.chip.islOk ∧ 2 ≤ s.chip.islSt then
    holdAgain { s with time := { now := islandTime s * (1000 * 2 ^ 32), dur := s.time.dur, state := 3,
                                 lost := s.chip.islLost, lastSrc := s.chip.islSrc, held := true, secSet := true } }
  else { s with time := { dur := s.time.dur } }

/-! Chip reset. -/

/-- The bytes of the retention banks, which every reset keeps (R475). -/
def keptBytes (m : List Host.Cell) : List Host.Cell :=
  m.filter (fun e => decide (partIsland ≤ e.1) && decide (e.1 < partIsland + 0x10000))

/-- The words that a reset keeps: the power controller's retained fields (R545), and the chip's error record
(R295). -/
def keptRegs (s : State) : Tbl W :=
  (([0x10, 0x18, 0x20, 0x30].map (fun o => pcBase + o))
    ++ [0, 8, 0x10, 0x18, 0x20, 0x28, 0x30].map (fun o => recAddr .chip + o)).foldl (fun t a => tblSet a (reg s a) t) []

/-- The tail placed back in the log, its entries marked as carried across a reset (R493). -/
def tailLog (s : State) : List LogRec := (tailNow s).map (fun r => { r with flags := r.flags % 2 + 2 })

def tailNext (s : State) : Nat :=
  match (tailNow s).getLast? with
  | some r => (r.seq + 1) % 2 ^ 32
  | none => 0

/-- At a start the event tail is placed back in the log (R493). -/
def logStart (s : State) : State :=
  { s with log := tailLog s, tail := tailNow s, logNext := tailNext s,
           dict := { s.dict with tailBad := s.dict.tailBad || (tailCheck s).isNone } }

/-- What a chip reset makes of the state: everything as at reset (R80 to R82, R263), but for what the island, the
security unit, flash and the module's hardware keep. -/
def afterReset (s : State) : State :=
  { State.reset with
    pending := s.pending, fresh := s.fresh, v128 := s.v128, striped := s.striped, mem := keptBytes s.mem,
    regs := keptRegs s, time := s.time, tx := s.tx, fatal := s.fatal,
    log := tailLog s, tail := tailNow s, tailGen := s.tailGen, tailPatch := s.tailPatch, logNext := tailNext s,
    twin := { req := s.twin.req, since := s.time.dur },
    mon := { start := s.time.dur },
    chip := { s.chip with was := s.dev },
    sec := { fuses := s.sec.fuses, op := s.sec.op, mnt := s.sec.mnt, nonce := s.sec.nonce, flash := s.sec.flash,
             slots := s.sec.slots, run := s.sec.run },
    objs := s.objs.filter (fun e => e.1 / 256 == 0x10030),
    dict := { jnl := s.dict.jnl, jnl2 := s.dict.jnl2, tailBad := s.dict.tailBad || (tailCheck s).isNone, rstJnl := s.dict.rstJnl, rstFac := s.dict.rstFac },
    dl := { epochs := s.dl.epochs },
    hw := { s.hw with pcie := false } }

/-- A wake step in progress: attempt and step (R545). -/
def setStep (attempt step : Nat) (s : State) : State :=
  setRegF pcBase 6 4 attempt (setRegF pcBase 11 8 step s)

/-- The flags of the chip's error record after a reset (R293): whether that reset was fatal, and no degradation yet. -/
def recFatal (fatal : Bool) (s : State) : State := setRegF (recAddr .chip + 0x30) 1 0 (2 * b2n fatal) s

/-- The chip resets for a cause of R544 and starts again; the supplies stay on, so the start goes on with the
boot, step 8 of R541. -/
def chipReset (cause : Nat) (s : State) : State :=
  let s := islandLoad (afterReset (if pstateOf s = 0 ∨ pstateOf s = 3 then islandCapture s else s))
  let s := { s with chip := { s.chip with origin := 0, cause := cause, fired := 0, retry := none, resume := [],
                                          cells := [], saved := [],
                                          fcause := if cause = 0x04 then s.chip.fcause else 0 } }
  setStep 1 8 (setPstate 3 (recFatal (cause == 0x04) s))

end Sys2Proof.Machine
end

