-- ==== Sys2Proof/Machine/Fabric.lean ====
section
/-! DEFINITION. Blocks and the fabric (R284 to R295): way changes, watchdogs, arbitration timeouts, the DDR4
scrub, links and fences, fatal errors, and the clearing of error records. -/

namespace Sys2Proof.Machine

/-- One microsecond in the units of the timebase. -/
def tUs : Nat := 1000 * 2 ^ 32
def tMs : Nat := 1000 * tUs

/-! Ways of the block store (R284, R285). -/

/-- The ways that a change alters are busy from the write on, those among them too whose earlier change has only to be
applied at the gate. -/
def wcfgWrite (b : Nat) (v : W) (s : State) : State :=
  let a := blockBase b
  let old := regF s (a + 8) 7 0
  let new := fld v 7 0
  let alters := (List.range 8).foldl (fun n w => if old.testBit w != new.testBit w then n ||| 2 ^ w else n) 0
  let busy := regF s (a + 0x10) 7 0 ||| alters
  let s := { s with gatePend := s.gatePend.map (fun e =>
    if e.2.1 = a + 0x10 then (e.1, e.2.1, e.2.2 &&& ~~~(wd alters)) else e) }
  setReg (a + 8) (wd new) (setReg (a + 0x10) (wd busy) s)

/-- The first byte of a way. -/
def wayBase (b w : Nat) : Nat := 0x44000000 + b * 0x400000 + w * 0x80000

/-- Ways of a block whose change has only to be applied at its gate. -/
def waysDone (s : State) (b : Nat) : Nat :=
  s.gatePend.foldl (fun n e => if e.2.1 = blockBase b + 0x10 then n ||| e.2.2.toNat else n) 0

/-- The dirty lines of every changing way have been written back, and the way is zero with clear tags. The change then
completes at the block-store gate as a configuration write does: newly arriving requests are held there until those
accepted before have completed, when it is applied (R265, R285). -/
def wayChangeDone (b : Nat) (s : State) : State :=
  let ways := (List.range 8).filter (fun w => bit (reg s (blockBase b + 0x10)) w && !(waysDone s b).testBit w)
  if ways.isEmpty then s
  else
    let s := ways.foldl (fun s w => memZero (wayBase b w) 0x80000 (wayEmpty b w s)) s
    let mask := wd (ways.foldl (fun n w => n ||| 2 ^ w) 0)
    setRegF (gateBlock (0x100 + b) + 0x10) 0 0 1
      { s with gatePend := s.gatePend ++ [(0x100 + b, wbusyAt (0x100 + b), mask)] }

/-! Watchdogs (R287). -/

/-- The words of a cell's watchdog. -/
def wdAddr (n : Nat) : Nat := blockBase (n / 16) + 0x800 + 0x10 * (n % 16)

/-- A core is in a memory stall (R176). -/
def inStall (c : Cell) : Bool :=
  !c.stopped && hasContext c && (decide (c.stall ≠ .none) || loadStall c || c.trpHeld.isSome || c.after.isSome)

/-- The start of the count in the watchdog's mode, if it counts. -/
def wdFrom (s : State) (n : Nat) : Option Nat :=
  let c := cellOf s n
  if regF s (wdAddr n) 31 16 = 0 then none
  else match regF s (wdAddr n) 1 0 with
  | 1 => some c.wdStart
  | 2 => if inStall c then some c.issueT else none
  | _ => none

/-- Half the period has passed: source 2 is raised, once in a count. -/
def watchdogHalf (n : Nat) (s : State) : State :=
  match wdFrom s n with
  | none => s
  | some t =>
    if n < 256 ∧ t + regF s (wdAddr n) 31 16 * tUs / 2 ≤ s.time.dur ∧ (cellOf s n).wdHalf ≠ some t then
      raiseIrq n 2 (modCell n (fun c => { c with wdHalf := some t }) s)
    else s

/-- The full period has passed: the block stops the cell, and when its flush ends resets it and records the event
(`flushDone`). A flush that has not ended 100 us after the stop is ended, with its slots lost. -/
def watchdogExpiry (n : Nat) (s : State) : State :=
  match (cellOf s n).wdStop with
  | some t => if t + 100 * tUs ≤ s.time.dur then flushLate n s else s
  | none =>
    match wdFrom s n with
    | none => s
    | some t =>
      if n < 256 ∧ t + regF s (wdAddr n) 31 16 * tUs ≤ s.time.dur then
        modCell n (fun c => { c with wdStop := some s.time.dur }) (stopCell n none (stallUndo n s))
      else s

/-! Counted events (R286, R289). -/

/-- A request has waited 10 us in a block arbiter. -/
def arbTimeout (b init addr : Nat) (s : State) : State :=
  recTmo (.block b) (errEvent (.block b) 0x12 init 0 addr s)

/-- The patrol scrub of a channel: a correction on a device, or the end of a pass. -/
def patrolScrub (r : Nat) (hit : Option (Nat × Nat)) (pass : Bool) (s : State) : State :=
  let s := match hit with
    | some (dev, a) => recCe (.region r) (errEvent (.region r) 0x22 0 dev a s)
    | none => s
  if pass then recLvc (.region r) s else s

/-! Fatal errors and fences (R43 to R45, R291, R292). -/

/-- A fatal error: the cause is kept in the chip record, FAULT_N asserted, and the chip resets. A second fatal reset
within 60 s of a start makes the device fail (R469, R471). -/
def fatalError (code : Nat) (s : State) : State :=
  let s := errEvent .chip 0x35 0 code 0 s
  let a := recAddr .chip + 0x30
  let s := setRegF a 15 8 code (setRegF a 1 1 1 s)
  let again := regF s (pcBase + 0x20) 6 0 = 0x04 ∧ s.time.dur < s.chip.bootAt + 60 * tSec
  let fc := if again then 0x0002 + code % 256 * 2 ^ 8 else 0
  chipReset 0x04 { s with fatal := true, chip := { s.chip with fcause := fc } }

/-- A region fenced; a fatal error under striped mapping, or when another region is fenced already. -/
def fenceRegion (r : Nat) (s : State) : State :=
  if s.fenced = some r then s
  else if s.striped || s.fenced.isSome then fatalError 0x33 s
  else
    let s := errEvent .chip 0x33 0 r 0 { s with fenced := some r }
    degrade (recOut .chip true (recOut (.region r) true s))

/-- A block taken offline (R288). -/
def blockOffline (b : Nat) (s : State) : State :=
  if s.offline.contains b then s
  else degrade (recOut .chip true (recOut (.block b) true { s with offline := s.offline ++ [b] }))

/-! Links (R290, R291). -/

def linkOf (s : State) (l : Nat) : LinkSt := tblGet {} s.links l
def setLink (l : Nat) (x : LinkSt) (s : State) : State := { s with links := tblSet l x s.links }

/-- A link exists under this number. -/
def isLink (l : Nat) : Bool := decide (l < 26)

/-- The regions that an inter-region link joins. -/
def linkEnds (l : Nat) : Nat × Nat :=
  match l with
  | 20 => (0, 1) | 21 => (0, 2) | 22 => (0, 3) | 23 => (1, 2) | 24 => (1, 3) | _ => (2, 3)

/-- The record, replay code and failure code of a link's level. -/
def linkRec (l : Nat) : Rec × Nat × Nat := if l < 16 then (.block l, 0x14, 0x15) else (.chip, 0x30, 0x32)

/-- A flit that fails its CRC is replayed; 32 replays within 1 ms start a retrain. -/
def flitReplay (l : Nat) (s : State) : State :=
  let x := linkOf s l
  if !isLink l || x.failed then s
  else
    let p := linkRec l
    let s := recRetry p.1 (errEvent p.1 p.2.1 0 l 0 s)
    let now := s.time.dur
    let rs := (x.replays ++ [now]).filter (fun t => decide (now < t + tMs))
    if 32 ≤ rs.length ∧ x.training.isNone then
      let ts := (x.retrains ++ [now]).filter (fun t => decide (now < t + 10 * tSec))
      let s := setLink l { x with replays := [], retrains := ts, training := some now } s
      if l < 16 then s else recLvc .chip (errEvent .chip 0x31 0 l 0 s)
    else setLink l { x with replays := rs } s

/-- A retrain ends and the link resumes; after 100 us it has failed. -/
def retrainComplete (l : Nat) (s : State) : State :=
  let x := linkOf s l
  match x.training with
  | some t => if x.failed || decide (t + 100 * tUs ≤ s.time.dur) then s else setLink l { x with training := none } s
  | none => s

/-- A link of a region, other than `l`, has failed or is retraining. -/
def regionAiling (s : State) (r l : Nat) : Bool :=
  (List.range 26).any (fun k =>
    let x := linkOf s k
    k != l && (x.failed || x.training.isSome) &&
      (if k < 16 then k / 4 == r else if k < 20 then k - 16 == r
       else (linkEnds k).1 == r || (linkEnds k).2 == r))

/-- The region that a failed chip link fences (R291). -/
def linkFences (s : State) (l : Nat) : Nat :=
  if l < 20 then l - 16
  else
    let e := linkEnds l
    let a := regionAiling s e.1 l
    let b := regionAiling s e.2 l
    if a && !b then e.1 else e.2

/-- A link fails: a retrain has not completed within 100 us, or the third retrain within 10 s. -/
def linkFailed (l : Nat) (s : State) : State :=
  let x := linkOf s l
  let late := match x.training with
    | some t => decide (t + 100 * tUs ≤ s.time.dur)
    | none => false
  let often := decide (3 ≤ (x.retrains.filter (fun t => decide (s.time.dur < t + 10 * tSec))).length)
  if !isLink l || x.failed || !(late || often) then s
  else
    let p := linkRec l
    let s := errEvent p.1 p.2.2 0 l 0 (setLink l { x with failed := true, training := none } s)
    if l < 16 then blockOffline l s else fenceRegion (linkFences s l) s

/-! Error records (R293, R295). -/

/-- eclr: every field is cleared but fatal and fcause. -/
def recClear (r : Rec) (s : State) : State :=
  let a := recAddr r
  let s := [0, 8, 0x10, 0x18, 0x20, 0x28].foldl (fun s o => setReg (a + o) 0 s) s
  setReg (a + 0x30) (wd (regF s (a + 0x30) 1 1 * 2 + regF s (a + 0x30) 15 8 * 2 ^ 8)) s

/-- The record with a dictionary index (R295). -/
def recOfIndex (i : Nat) : Option Rec :=
  if i = 0x8100 then some .chip
  else if 0x8110 ≤ i ∧ i < 0x8114 then some (.region (i - 0x8110))
  else if 0x8120 ≤ i ∧ i < 0x8130 then some (.block (i - 0x8120))
  else if 0x8200 ≤ i ∧ i < 0x8300 then some (.cell (i - 0x8200))
  else none

/-- A write of a record's words: only eclr takes one. -/
def recWrite (r : Rec) (off : Nat) (v : W) (s : State) : State :=
  if off = 0x38 ∧ bit v 0 then recClear r s else s

/-- A write of the words of a block's control part below its regulator (R284). -/
def blockWrite (b off : Nat) (v : W) (s : State) : State :=
  if off = 0 then
    setReg (blockBase b) (wd (max 1 (fld v 3 0) + max 1 (fld v 7 4) * 16 + fld v 11 8 * 256)) s
  else if off = 8 then wcfgWrite b v s
  else if 0x200 ≤ off ∧ off < 0x240 then recWrite (.block b) (off - 0x200) v s
  else if 0x400 ≤ off ∧ off < 0x800 then recWrite (.cell (16 * b + (off - 0x400) / 0x40)) (off % 0x40) v s
  else if 0x800 ≤ off ∧ off < 0x900 then
    let n := 16 * b + (off - 0x800) / 0x10
    if off % 0x10 = 0 then setReg (wdAddr n) (wd (fld v 1 0 + fld v 31 16 * 2 ^ 16)) s
    else modCell n (fun c => { c with wdStart := s.time.dur }) s
  else s

end Sys2Proof.Machine
end

