-- ==== Sys2Proof/Machine/Power.lean ====
section
/-! DEFINITION. Block regulators and the VIN_CORE rail (R522 to R532): levels, block states, refusals, the
thermal force, the nap monitor and brown-outs. -/

namespace Sys2Proof.Machine

/-- The words of a block's regulator (R527). -/
def regAddr (b : Nat) : Nat := blockBase b + 0x1000
def regStat (b : Nat) : Nat := blockBase b + 0x1008

/-- The regulator output at a level, in mV (R522). -/
def levelMv (k : Nat) : Nat := match k with | 0 => 850 | 1 => 780 | 2 => 740 | _ => 680

def blkOf (s : State) (b : Nat) : BlkSt := tblGet {} s.blks b
def setBlk (b : Nat) (x : BlkSt) (s : State) : State := { s with blks := tblSet b x s.blks }

/-- The level in force, the state in force, the requested level and the requested state. -/
def alvl (s : State) (b : Nat) : Nat := regF s (regStat b) 1 0
def astOf (s : State) (b : Nat) : Nat := regF s (regStat b) 5 4
def lvlOf (s : State) (b : Nat) : Nat := regF s (regAddr b) 1 0
def bstOf (s : State) (b : Nat) : Nat := regF s (regAddr b) 5 4
def forced (s : State) (b : Nat) : Bool := bit (reg s (regStat b)) 2

/-- The output voltage settled at a value (R527: vout). -/
def setMv (b mv : Nat) (s : State) : State :=
  setRegF (blockBase b + 0x1010) 31 16 mv (setBlk b { blkOf s b with mv := mv } s)

/-- A change in progress: busy shows it. -/
def setPhase (b : Nat) (p : RegPhase) (s : State) : State :=
  setRegF (regStat b) 7 7 (b2n (decide (p ≠ .none))) (setBlk b { blkOf s b with phase := p } s)

/-- The voltage of a level that is pending. -/
def pendMv (s : State) (b : Nat) : Nat :=
  match (blkOf s b).phase with
  | .vin k => levelMv k
  | .slewUp k => levelMv k
  | .divUp k => levelMv k
  | .vinFull k => levelMv k
  | .full k => levelMv k
  | _ => 0

/-- What a block needs of VIN_CORE (R528). -/
def needMv (s : State) (b : Nat) : Nat := max (blkOf s b).mv (pendMv s b)

/-- The VIN_CORE target (R528): 0 when every block is off. -/
def vinTarget (s : State) : Nat :=
  let m := (List.range 16).foldl (fun m b => max m (needMv s b)) 0
  if m = 0 then 0 else m + 70

/-- The rail suffices for a voltage, and goes on to do so when a lowering is in progress (R528). -/
def vinOk (s : State) (mv : Nat) : Bool := decide (mv + 70 ≤ s.vin.mv) && s.vin.tgt.all (fun t => decide (mv + 70 ≤ t))

/-- The merged target goes to the rail when no transaction is in progress (R528). -/
def vinKick (s : State) : State :=
  let t := vinTarget s
  if s.vin.tgt.isSome || s.vin.stuck || decide (t = s.vin.mv) then s
  else setRegF (partIsland + 0x100028) 15 0 t { s with vin := { s.vin with tgt := some t, since := s.time.dur } }

/-- The rail at a target at once: it falls at the end of an entry to standby, and a wake raises it (R535, R541). -/
def vinSettle (t : Nat) (s : State) : State :=
  setRegF (partIsland + 0x100028) 15 0 t { s with vin := { mv := t, tgt := none, stuck := false, since := s.time.dur } }

/-- The block's contents are lost: its cell stores and its block store are zero with clear tags (R530). -/
def blockLose (b : Nat) (s : State) : State :=
  memZero (0x44000000 + b * 0x400000) 0x400000 (memZero (0x40000000 + b * 0x200000) 0x200000 s)

/-- A cell of a block powered or not: one that loses power keeps nothing, and comes up reset (R530). -/
def cellPower (n : Nat) (on : Bool) (s : State) : State :=
  if (cellOf s n).powered = on then s
  else modCell n (fun c => { c with powered := on }) (resetCell n (cellOf s n).vtm s)

/-- The cells of a block powered by a mask; con shows it. -/
def setCon (b m : Nat) (s : State) : State :=
  let s := (List.range 16).foldl (fun s c => cellPower (16 * b + c) (m.testBit c) s) s
  setRegF (regStat b) 31 16 m s

/-- A change of level begins (R524). -/
def startLevel (b k : Nat) (s : State) : State :=
  if (blkOf s b).mv < levelMv k then
    (if vinOk s (levelMv k) then setPhase b (.slewUp k) s else vinKick (setPhase b (.vin k) s))
  else if alvl s b < k then setPhase b (.divDown k) s
  else setPhase b (.divUp k) s

/-- A block enters off: everything it holds is discarded (R531). -/
def enterOff (b : Nat) (s : State) : State :=
  let s := setPhase b .none s
  let s := setRegF (regStat b) 6 4 3 s
  let s := setRegF (regStat b) 8 8 0 s
  vinKick (setMv b 0 (blockLose b (blockCachesEmpty true b s)))

/-- The newest request applied, when no change is in progress (R525, R530, R531). -/
def applyReq (b : Nat) (s : State) : State :=
  if (blkOf s b).phase ≠ .none then s
  else
    let want := bstOf s b
    let is := astOf s b
    if want = is then
      (if is < 2 ∧ !forced s b ∧ lvlOf s b ≠ alvl s b then startLevel b (lvlOf s b) s else s)
    else if want = 3 then enterOff b s
    else if 2 ≤ is then
      (if vinOk s (levelMv (lvlOf s b)) then setPhase b (.full (lvlOf s b)) s
       else vinKick (setPhase b (.vinFull (lvlOf s b)) s))
    else if want = 2 then setPhase b .nap s
    else
      let s := setRegF (regStat b) 5 4 want s
      if !forced s b ∧ lvlOf s b ≠ alvl s b then startLevel b (lvlOf s b) s else s

/-- A powered cell of a block that is not stopped. -/
def runningCell (s : State) (b : Nat) : Bool :=
  (List.range 16).any (fun c => let x := cellOf s (16 * b + c)
    x.powered && !(x.stopped && !x.flush))

/-- Why a write of the regulator's request word is refused (R531), the lowest reason first. -/
def regRefusal (s : State) (b : Nat) (v : W) : Option Nat :=
  let bst := fld v 5 4
  let cen := fld v 31 16
  if (1 ≤ bst ∧ runningCell s b = true) ∨ (2 ≤ bst ∧ cen ≠ 0) then some 1
  else if (List.range 16).any (fun c => bit (reg s (regAddr b)) (16 + c) && !cen.testBit c &&
      !((cellOf s (16 * b + c)).stopped && !(cellOf s (16 * b + c)).flush)) then some 2
  else if bst = 2 ∧ (List.range 4).any (fun i =>
      let t := regF s (blockBase b + 0x1018) (16 * i + 15) (16 * i)
      decide (950 < t ∧ t < 0x8000)) then some 3
  else if regionOut s (b / 4) || s.offline.contains b then some 4
  else none

/-- What a brown-out does to a block (R532): every cell is reset, the block enters off, and the event is counted and
recorded. -/
def blockBrown (b imon vout : Nat) (s : State) : State :=
  let s := (List.range 16).foldl (fun s c =>
    let n := 16 * b + c
    modCell n (fun x => { x with powered := false }) (resetCell n (cellOf s n).vtm s)) s
  let s := enterOff b (setRegF (regStat b) 31 16 0 s)
  let s := bump16 (blockBase b + 0x1020) 0 (setRegF (regStat b) 9 9 1 s)
  logFree 0x0B 0x03 b (imon + vout * 2 ^ 16) s

/-- The current and the voltage at a brown-out that nothing outside reports: measurements, and so free values. -/
def brownFree (b : Nat) (s : State) : State :=
  blockBrown b ((Config.measured (regAddr b) s.time.dur).toNat % 2 ^ 16) ((Config.measured (regStat b) s.time.dur).toNat % 550) s

/-- The request word written (R523 to R531): lvl, bst and cen; the new state, and whether it was refused. A cell connected while
the regulator is not in full mode browns the block out. -/
def regReqWrite (b : Nat) (v : W) (s : State) : State × Bool :=
  match regRefusal s b v with
  | some r => (setRegF (regStat b) 14 12 r (setRegF (regStat b) 10 10 1 s), true)
  | none =>
    let s := setRegF (regStat b) 10 10 0 s
    let s := setReg (regAddr b) (wd (fld v 1 0 + fld v 5 4 * 2 ^ 4 + fld v 31 16 * 2 ^ 16)) s
    if !bit (reg s (regStat b)) 6 && (List.range 16).any (fun c => bit v (16 + c) && !bit (reg s (regStat b)) (16 + c)) then
      (brownFree b s, false)
    else
      let s := if fld v 31 16 = regF s (regStat b) 31 16 then s else setCon b (fld v 31 16) s
      (applyReq b s, false)

/-- rclr (R527): bo and the counters. -/
def regClear (b : Nat) (s : State) : State := setReg (blockBase b + 0x1020) 0 (setRegF (regStat b) 9 9 0 s)

/-- A write of a word of the regulator. -/
def regWrite (b off : Nat) (v : W) (s : State) : State × Bool :=
  match off with
  | 0x1000 => regReqWrite b v s
  | 0x1028 => (if bit v 0 then regClear b s else s, false)
  | _ => (s, false)

/-- A change of level has completed: nlvl counts it, and the newest request is applied (R525, R527). -/
def levelDone (b : Nat) (s : State) : State :=
  vinKick (applyReq b (setPhase b .none (bumpReg (blockBase b + 0x1020) 32 s)))

/-- The divider switches at a superframe boundary (R32, R524). -/
def dividerSwitch (b : Nat) (s : State) : State :=
  match (blkOf s b).phase with
  | .divUp k => levelDone b (setRegF (regStat b) 1 0 k s)
  | .divDown k => setPhase b (.slewDown k) (setRegF (regStat b) 1 0 k s)
  | _ => s

/-- The regulator settles at its new voltage (R524). -/
def slewDone (b : Nat) (s : State) : State :=
  match (blkOf s b).phase with
  | .slewUp k => setPhase b (.divUp k) (setMv b (levelMv k) s)
  | .slewDown k => levelDone b (setMv b (levelMv k) s)
  | _ => s

/-- A block that waited for the rail goes on once it suffices. -/
def vinResume (s : State) (b : Nat) : State :=
  match (blkOf s b).phase with
  | .vin k => if vinOk s (levelMv k) then setPhase b (.slewUp k) s else s
  | .vinFull k => if vinOk s (levelMv k) then setPhase b (.full k) s else s
  | _ => s

/-- A change of VIN_CORE completes (R529): the measured rail lies within 15 mV of the target, at most 2 ms after the write. -/
def vinDone (meas : Nat) (s : State) : State :=
  match s.vin.tgt with
  | none => s
  | some t =>
    if meas ≤ t + 15 ∧ t ≤ meas + 15 ∧ s.time.dur ≤ s.vin.since + 2 * tMs then
      let s := setRegF (partIsland + 0x100028) 31 16 meas
        { s with vin := { mv := t, tgt := none, stuck := false, since := s.time.dur } }
      vinKick ((List.range 16).foldl vinResume s)
    else s

/-- A change of VIN_CORE has not completed within 2 ms (R529): the raise that needed it is not applied. -/
def vinTimeout (meas : Nat) (s : State) : State :=
  match s.vin.tgt with
  | none => s
  | some t =>
    if s.time.dur < s.vin.since + 2 * tMs then s
    else
      let s := setRegF (partIsland + 0x100028) 31 16 meas
        { s with vin := { s.vin with tgt := none, stuck := true, since := s.time.dur } }
      logFree 0x0B 0x0A 0 (t + meas * 2 ^ 16) s

/-- The controller tries again, 1 ms after the failure (R529). A raise that is no longer requested is dropped first. -/
def vinRetry (s : State) : State :=
  if !s.vin.stuck || decide (s.time.dur < s.vin.since + tMs) then s
  else
    let s := { s with vin := { s.vin with stuck := false } }
    let drop := fun (s : State) (b : Nat) =>
      match (blkOf s b).phase with
      | .vin k => if lvlOf s b = k ∧ bstOf s b < 2 then s else applyReq b (setPhase b .none s)
      | .vinFull k => if lvlOf s b = k ∧ bstOf s b < 2 then s else applyReq b (setPhase b .none s)
      | _ => s
    vinKick ((List.range 16).foldl drop s)

/-- The write-back for nap has ended (R531): the regulator enters low-power mode at 0.60 V. -/
def napEntered (b : Nat) (s : State) : State :=
  if (blkOf s b).phase ≠ .nap then s
  else
    let s := blockCachesEmpty false b (setRegF (regStat b) 6 4 2 s)
    vinKick (applyReq b (setPhase b .none (setMv b 600 s)))

/-- The regulator reaches full mode at the voltage of the lvl that it left nap or off for (R525, R531): the block runs, its cells
as cen says. -/
def fullReady (b : Nat) (s : State) : State :=
  match (blkOf s b).phase with
  | .full k =>
    let k := if forced s b then 3 else k
    let s := setRegF (regStat b) 6 4 4 s
    let s := setRegF (regStat b) 8 8 0 s
    let s := setRegF (regStat b) 1 0 k (setMv b (levelMv k) s)
    let s := setCon b (regF s (regAddr b) 31 16) s
    vinKick (applyReq b (setPhase b .none s))
  | _ => s

/-- A sensor reading as the temperature word holds it, signed. -/
def tempOf (t : BitVec 16) : Int := t.toInt

/-- The highest of four readings, in 0.1 C (R526). -/
def hottest (l : List (BitVec 16)) : Int := l.foldl (fun m t => max m t.toInt) (-32768)

/-- The four sensors of a block, as its word holds them. -/
def temps (s : State) (b : Nat) : List (BitVec 16) :=
  (List.range 4).map (fun i => BitVec.ofNat 16 (regF s (blockBase b + 0x1018) (16 * i + 15) (16 * i)))

/-- New readings of a block's sensors; while it is forced, the time since all read 105 C or less runs. -/
def setTemps (b : Nat) (l : List (BitVec 16)) (s : State) : State :=
  let w := (l.zip [0, 16, 32, 48]).foldl (fun n e => n + e.1.toNat * 2 ^ e.2) 0
  let s := setReg (blockBase b + 0x1018) (wd w) s
  let x := blkOf s b
  let cool := if hottest l ≤ 1050 then (match x.cool with | some t => some t | none => some s.time.dur) else none
  setBlk b { x with cool := cool } s

/-- A temperature as the detail of an event. -/
def tempNat (t : Int) : Nat := (BitVec.ofInt 16 t).toNat

/-- The chip's blocks are supplied: not in hibernate and wake-failed (R533). -/
def blocksSupplied (s : State) : Bool := pstateOf s == 0 || pstateOf s == 1 || pstateOf s == 3

/-- A sensor at 110 C or more forces the block to P3 (R526), while the chip has a clock (R533). -/
def thermalForce (b : Nat) (l : List (BitVec 16)) (s : State) : State :=
  if 16 ≤ b ∨ hottest l < 1100 ∨ !(pstateOf s == 0 || pstateOf s == 3) then s
  else
    let s := setTemps b l s
    if forced s b then s
    else
      let s := bump16 (blockBase b + 0x1020) 16 (setRegF (regStat b) 2 2 1 s)
      let s := logFree 0x0B 0x01 b (tempNat (hottest l)) s
      if 2 ≤ astOf s b then s
      else match (blkOf s b).phase with
        | .nap => s
        | _ =>
          if alvl s b ≠ 3 then setPhase b (.divDown 3) s
          else if (blkOf s b).mv ≠ levelMv 3 then setPhase b (.slewDown 3) s
          else applyReq b (setPhase b .none s)

/-- The force ends when all four sensors have read 105 C or less for 1 ms (R526). -/
def thermalRelease (b : Nat) (s : State) : State :=
  match (blkOf s b).cool with
  | none => s
  | some t =>
    if forced s b ∧ t + tMs ≤ s.time.dur then
      applyReq b (logFree 0x0B 0x02 b (tempNat (hottest (temps s b))) (setRegF (regStat b) 2 2 0 s))
    else s

/-- The nap monitor switches the regulator to full mode at 0.60 V (R532). -/
def napMonitor (b imon : Nat) (s : State) : State :=
  if b < 16 ∧ astOf s b = 2 ∧ !bit (reg s (regStat b)) 6 ∧ 48 ≤ imon ∧ blocksSupplied s then
    let s := setBlk b { blkOf s b with imon := some (s.time.dur, imon) } s
    let s := setRegF (regStat b) 8 8 1 (setRegF (regStat b) 6 6 1 s)
    logFree 0x0B 0x04 b imon s
  else s

/-- The block regulators without supply: every block off, its output and its cells too (R533). -/
def blocksOff (s : State) : State :=
  let off := fun (s : State) (b : Nat) =>
    setBlk b { mv := 0 } (setReg (blockBase b + 0x1010) 0 (setReg (regStat b) (wd (3 + 3 * 2 ^ 4)) s))
  vinSettle 0 ((List.range 16).foldl off s)

/-- The block regulators come up from reset with the main supply (R541, step 2). -/
def blocksUp (s : State) : State :=
  let up := fun (s : State) (b : Nat) =>
    { s with regs := tblDel (regStat b) (tblDel (blockBase b + 0x1010) s.regs), blks := tblDel b s.blks }
  let s := (List.range 16).foldl up s
  vinSettle (vinTarget s) s

/-- A brown-out of a block (R532): the output has fallen below 0.55 V. -/
def brownOut (b imon vout : Nat) (s : State) : State :=
  if b < 16 ∧ vout < 550 ∧ (astOf s b ≠ 3 ∨ regF s (regStat b) 31 16 ≠ 0) ∧ blocksSupplied s then blockBrown b imon vout s
  else s

end Sys2Proof.Machine
end

