-- ==== Sys2Proof/Machine/Ingress.lean ====
section
/-! DEFINITION. Received frames up to the stream checks (chapter 10): redundancy, the sampled-value format,
subscriptions, and the placing of samples in time. -/

namespace Sys2Proof.Machine

/-! Counters (R345, R366). -/

def laneBlock (n : Nat) : Nat := 0x62000000 + 0x1000 * n

/-- Counter `i`, from 1, of a lane. -/
def laneCnt (n i : Nat) (s : State) : State := bumpReg (laneBlock n + 0x800 + 8 * (i - 1)) 0 s

/-- Counter `i`, from 1, of a pair. -/
def pairCnt (p i : Nat) (s : State) : State := bumpReg (0x62400100 + 0x80 * p + 8 * (i - 1)) 0 s

def subBase (n : Nat) : Nat := 0x62100000 + 128 * n
def statBase (n : Nat) : Nat := 0x62200000 + 64 * n
def gridBase (g : Nat) : Nat := 0x62300000 + 0x1000 * g
def ingBase : Nat := 0x62400000

/-- A status counter of a subscription: word offset and low bit. -/
def subCnt (n off lo : Nat) (s : State) : State := bumpReg (statBase n + off) lo s

/-- A field of a subscription's words. -/
def subF (s : State) (n off hi lo : Nat) : Nat := regF s (subBase n + off) hi lo

def subSt (s : State) (n : Nat) : SubSt := tblGet {} s.subs n
def setSub (n : Nat) (x : SubSt) (s : State) : State := { s with subs := tblSet n x s.subs }

/-- The stream's state (R342). -/
def streamState (s : State) (n : Nat) : Nat := regF s (statBase n) 2 0

/-! Redundancy (R326 to R330). -/

/-- A pair's mode: 0 none, 1 PRP, 2 HSR. -/
def pairMode (s : State) (p : Nat) : Nat := regF s ingBase (4 * p + 1) (4 * p)

/-- Entries of a duplicate table (R329). -/
def dupCap : Nat := 65536

def dupsOf (s : State) (p : Nat) : List DupEntry := tblGet [] s.dups p
def setDups (p : Nat) (l : List DupEntry) (s : State) : State := { s with dups := tblSet p l s.dups }

/-- An entry's lifetime is over (R329). -/
def dupOver (s : State) (e : DupEntry) : Bool := decide (e.made + regF s (ingBase + 8) 9 0 * tMs ≤ s.time.dur)

/-- An entry forgotten: one that no second copy matched is counted by its lane (R329). -/
def dupDrop (p : Nat) (e : DupEntry) (s : State) : State :=
  let s := setDups p ((dupsOf s p).erase e) s
  if e.seen then s else if e.lane % 2 = 0 then pairCnt p 5 s else pairCnt p 6 s

/-- Every entry of a pair whose lifetime is over is forgotten (R329). -/
def dupsForget (p : Nat) (s : State) : State :=
  ((dupsOf s p).filter (dupOver s)).foldl (fun s e => dupDrop p e s) s

/-- Duplicate discard (R329): whether the frame is kept. Of copies that complete in one cycle the sender of commands
gives lane 2p's first (log entry 93). -/
def dupCheck (p lane mac seq : Nat) (s : State) : Bool × State :=
  let s := dupsForget p s
  let l := dupsOf s p
  match l.find? (fun e => e.mac == mac && e.seq == seq) with
  | some e =>
    (false, pairCnt p 1 (setDups p (l.map (fun x => if x = e then { e with seen := true } else x)) s))
  | none =>
    let new : DupEntry := { mac := mac, seq := seq, lane := lane, made := s.time.dur, seen := false }
    if l.length < dupCap then (true, setDups p (l ++ [new]) s)
    else (true, pairCnt p 4 (setDups p (l.drop 1 ++ [new]) s))

/-- An entry is forgotten when its lifetime is over (R329). -/
def dupForget (p mac seq : Nat) (s : State) : State :=
  match (dupsOf s p).find? (fun e => e.mac == mac && e.seq == seq) with
  | none => s
  | some e => if dupOver s e then dupDrop p e s else s

/-- A 6-octet address at an offset, first octet in the low byte. -/
def macAt (b : List Byte) (o : Nat) : Nat := leNat (slice b o 6)

/-- The EtherType at an offset. -/
def etherAt (b : List Byte) (o : Nat) : Nat := beNat (slice b o 2)

/-- The frame's PRP trailer (R327): sequence number and LAN identifier. -/
def prpTrailer (b : List Byte) : Option (Nat × Nat) :=
  let n := b.length
  let w := etherAt b (n - 4)
  let vlan := if etherAt b 12 = 0x8100 then 4 else 0
  if 20 ≤ n ∧ etherAt b (n - 2) = 0x88FB ∧ w % 0x1000 = n - 14 - vlan then
    some (etherAt b (n - 6), w / 0x1000)
  else none

/-- PRP reception (R327): the frame without its trailer when it is kept. -/
def prpReceive (lane : Nat) (b : List Byte) (s : State) : Option (List Byte) × State :=
  let p := lane / 2
  match prpTrailer b with
  | none => (some b, pairCnt p 2 s)
  | some (seq, lan) =>
    let s := if lan = 0xA + lane % 2 then s else pairCnt p 3 s
    match dupCheck p lane (macAt b 6) seq s with
    | (true, s) => (some (b.take (b.length - 6)), s)
    | (false, s) => (none, s)

/-- A lane's mode (R482). -/
def laneMode (s : State) (n : Nat) : Nat := objNat s (0x3000 + n) 1 0

/-- A frame leaves on a lane; a lane that is off sends nothing (R482). -/
def sendFrame (lane : Nat) (b : List Byte) (s : State) : State :=
  if laneMode s lane = 0 then s else { s with tx := .frame lane b :: s.tx }

/-- A frame that leaves on a lane and is counted for its pair: a lane that is off sends and counts nothing (R366). -/
def sendCounted (p i lane : Nat) (b : List Byte) (s : State) : State :=
  if laneMode s lane = 0 then s else pairCnt p i (sendFrame lane b s)

/-- A MAC address is one of the module's own: of any lane (R328; DEDUCED, log entry 65). -/
def ownMac (m : Nat) : Bool := (List.range 16).any (fun n => (laneMac n).toNat == m)

/-- HSR reception (R328): the frame without its tag when it is kept; a tagged frame is also forwarded. -/
def hsrReceive (lane : Nat) (b : List Byte) (s : State) : Option (List Byte) × State :=
  let p := lane / 2
  let other := if lane % 2 = 0 then lane + 1 else lane - 1
  if etherAt b 12 ≠ 0x892F then (some b, pairCnt p 2 s)
  else
    match dupCheck p lane (macAt b 6) (etherAt b 16) s with
    | (kept, s) =>
      let s := if kept && !ownMac (macAt b 6) && !ownMac (macAt b 0) then
          sendCounted p 9 other b s else s
      (if kept then some (b.take 12 ++ b.drop 18) else none, s)

/-- Step 3 of R325. -/
def pairReceive (lane : Nat) (b : List Byte) (s : State) : Option (List Byte) × State :=
  match pairMode s (lane / 2) with
  | 1 => prpReceive lane b s
  | 2 => hsrReceive lane b s
  | _ => (some b, s)

/-- What step 3 counts of a frame that is not subject to duplicate discard: none of trailer and tag in nort, a trailer
of the other LAN in wlan (R327, R328, R366). -/
def pairTell (lane : Nat) (b : List Byte) (s : State) : State :=
  match pairMode s (lane / 2) with
  | 1 => (match prpTrailer b with
    | none => pairCnt (lane / 2) 2 s
    | some (_, lan) => if lan = 0xA + lane % 2 then s else pairCnt (lane / 2) 3 s)
  | 2 => if etherAt b 12 ≠ 0x892F then pairCnt (lane / 2) 2 s else s
  | _ => s

/-- The copy of a frame that a lane of a PRP or HSR pair sends (R386). -/
def pairFrame (mode lane seq : Nat) (b : List Byte) : List Byte :=
  let vlan := if etherAt b 12 = 0x8100 then 4 else 0
  if mode = 1 then
    b ++ beBytes 2 seq ++ beBytes 2 ((0xA + lane % 2) * 2 ^ 12 + (b.length + 6 - 14 - vlan) % 2 ^ 12) ++ beBytes 2 0x88FB
  else b.take 12 ++ beBytes 2 0x892F ++ beBytes 2 (lane % 2 * 2 ^ 12 + (b.length + 6 - 14) % 2 ^ 12) ++ beBytes 2 seq
    ++ b.drop 12

/-- A frame of the module's own sent on some lanes, duplicated as their pairs ask. -/
def sendOn (lanes : List Nat) (build : Nat → List Byte) (s : State) : State :=
  lanes.foldl (fun s n =>
    let mode := pairMode s (n / 2)
    if mode = 0 then sendFrame n (build (laneMac n).toNat) s
    else
      let seq := tblGet 0 s.pairSeq (n / 2)
      let s := sendFrame n (pairFrame mode n seq (build (laneMac (n / 2 * 2)).toNat)) s
      if n % 2 = 1 ∨ !lanes.contains (n + 1) then { s with pairSeq := tblSet (n / 2) ((seq + 1) % 2 ^ 16) s.pairSeq } else s) s

/-- A supervision frame of a pair's edition, from a source MAC: the spec names its format by the standard
(R330). -/
def supvFrame (s : State) (p mac : Nat) : List Byte :=
  Config.supervision (bit (reg s ingBase) (4 * p + 2)) (pairMode s p == 2) (tblGet 0 s.pairSeq p) (leBytes 6 mac)

/-- Every 2 s a pair whose transmit bit is set sends a supervision frame on each lane, whatever its mode; each frame sent
is counted (R330; DEDUCED, log entry 65). -/
def supvTransmit (p : Nat) (s : State) : State :=
  let due := match tblFind s.supvAt p with
    | some t => decide (t + 2 * tSec ≤ s.time.dur)
    | none => true
  if p < 8 ∧ bit (reg s ingBase) (4 * p + 3) = true ∧ due = true then
    ([2 * p, 2 * p + 1].filter (fun n => laneMode s n != 0)).foldl (fun s _ => pairCnt p 8 s)
      (sendOn [2 * p, 2 * p + 1] (supvFrame s p) { s with supvAt := tblSet p s.time.dur s.supvAt })
  else s

/-! The sampled-value format (R331). -/

/-- A BER element: tag, content, and the rest of the bytes. -/
def berTlv (b : List Byte) : Option (Nat × List Byte × List Byte) :=
  match b with
  | t :: l :: rest =>
    let n := l.toNat
    let k := n - 0x80
    let lenRest : Option (Nat × List Byte) :=
      if n < 0x80 then some (n, rest)
      else if 1 ≤ k ∧ k ≤ 4 ∧ k ≤ rest.length then some (beNat (rest.take k), rest.drop k)
      else none
    match lenRest with
    | some (m, rest) => if m ≤ rest.length then some (t.toNat, rest.take m, rest.drop m) else none
    | none => none
  | _ => none

/-- The BER elements that bytes spell, in order; `n` bounds their number. -/
def berList : Nat → List Byte → Option (List (Nat × List Byte))
  | 0, b => if b.isEmpty then some [] else none
  | n + 1, b =>
    if b.isEmpty then some []
    else match berTlv b with
      | none => none
      | some (t, c, rest) => (berList n rest).map (fun l => (t, c) :: l)

/-- One ASDU (R331). -/
structure Asdu where
  svid    : List Byte
  smpCnt  : Nat
  confRev : Nat
  synch   : Nat
  data    : List Byte
  gm      : Option (List Byte)
  deriving DecidableEq, Repr

/-- The tags of an ASDU's fields in their standard order, with the fixed content lengths; the optional ones
are 0x81, 0x84, 0x86, 0x88 and 0x89. -/
def asduOrder : List Nat := [0x80, 0x81, 0x82, 0x83, 0x84, 0x85, 0x86, 0x87, 0x88, 0x89]

/-- A list of tags is in the standard order, each at most once. -/
def tagsRise : List Nat → Bool
  | [] => true
  | [_] => true
  | a :: b :: l => decide (a < b) && tagsRise (b :: l)

/-- The content of the first element with a tag. -/
def berGet (l : List (Nat × List Byte)) (t : Nat) : Option (List Byte) :=
  (l.find? (fun e => e.1 == t)).map (fun e => e.2)

/-- An ASDU read from its elements. -/
def asduOf (b : List Byte) : Option Asdu :=
  match berList 10 b with
  | none => none
  | some l =>
    if !(tagsRise (l.map (fun e => e.1)) && l.all (fun e => asduOrder.contains e.1)) then none
    else match berGet l 0x80, berGet l 0x82, berGet l 0x83, berGet l 0x85, berGet l 0x87 with
      | some id, some cnt, some rev, some syn, some dat =>
        if cnt.length = 2 ∧ rev.length = 4 ∧ syn.length = 1 ∧ dat.length % 8 = 0 then
          some { svid := id, smpCnt := beNat cnt, confRev := beNat rev, synch := beNat syn, data := dat,
                 gm := berGet l 0x89 }
        else none
      | _, _, _, _, _ => none

/-- A well-formed sampled-value frame: APPID, simulation bit and ASDUs. -/
structure SvFrame where
  dmac  : Nat
  appid : Nat
  sim   : Bool
  asdus : List Asdu
  deriving DecidableEq, Repr

/-- All of a list's optional values. -/
def allSome {α : Type} : List (Option α) → Option (List α)
  | [] => some []
  | x :: xs => match x, allSome xs with
    | some a, some l => some (a :: l)
    | _, _ => none

/-- The ASDUs of a savPdu (R331). -/
def savPdu (b : List Byte) : Option (List Asdu) :=
  match berTlv b with
  | some (0x60, c, []) =>
    match berList 3 c with
    | none => none
    | some l =>
      if !(l.all (fun e => [0x80, 0x81, 0xA2].contains e.1)) then none
      else match berGet l 0x80, berGet l 0xA2 with
        | some n, some sq =>
          match berList 8 sq with
          | none => none
          | some as =>
            let k := beNat n
            if 1 ≤ k ∧ k ≤ 8 ∧ as.length = k ∧ as.all (fun e => e.1 == 0x30) then
              match allSome (as.map (fun e => asduOf e.2)) with
              | some l => if l.all (fun a => some a.svid == l.head?.map (fun x => x.svid)) then some l else none
              | none => none
            else none
        | _, _ => none
  | _ => none

/-- A sampled-value frame from its destination MAC and the bytes from APPID on. -/
def svParse (dmac : Nat) (b : List Byte) : Option SvFrame :=
  let len := etherAt b 2
  if b.length < 8 ∨ len < 8 ∨ b.length < len then none
  else (savPdu ((b.take len).drop 8)).map (fun l =>
    { dmac := dmac, appid := etherAt b 0, sim := decide (0x8000 ≤ etherAt b 4), asdus := l })

/-! Subscriptions (R334 to R339). -/

/-- The subscription's svID octets. -/
def subSvid (s : State) (n : Nat) : List Byte :=
  ((List.range 8).flatMap (fun i => leBytes 8 (reg s (subBase n + 0x40 + 8 * i)).toNat)).take
    (subF s n 0x08 62 56)

def subEn (s : State) (n : Nat) : Bool := bit (reg s (subBase n)) 48
def subSim (s : State) (n : Nat) : Bool := bit (reg s (subBase n)) 49

/-- Simulation mode (R338). -/
def simMode (s : State) : Bool := bit (reg s (ingBase + 0x10)) 0

/-- A subscription is active (R334). -/
def subActive (s : State) (n : Nat) : Bool := subEn s n && (!subSim s n || simMode s)

/-- The numbers of the subscriptions whose first word is listed, enabled: only these can match. -/
def enabledSubs (s : State) : List Nat :=
  (s.regs.filter (fun e => decide (0x62100000 ≤ e.1) && decide (e.1 < 0x62200000)
    && e.1 % 128 == 0 && bit e.2 48)).map (fun e => (e.1 - 0x62100000) / 128)

/-- A frame's key equals that of a subscription (R334). -/
def subMatches (s : State) (f : SvFrame) (n : Nat) : Bool :=
  match f.asdus.head? with
  | some a =>
    subActive s n && subF s n 0 47 0 == f.dmac && subF s n 8 15 0 == f.appid
      && subSim s n == f.sim && decide (a.svid.length ≤ 64) && subSvid s n == a.svid
  | none => false

def subRate (s : State) (n : Nat) : Nat := subF s n 0x10 16 0
def subNasdu (s : State) (n : Nat) : Nat := subF s n 0x08 50 48
def subNdp (s : State) (n : Nat) : Nat := subF s n 0x08 55 51
def subGrid (s : State) (n : Nat) : Nat := subF s n 0x10 37 34
def subFch (s : State) (n : Nat) : Nat := subF s n 0x10 53 38

/-- The effective wrap (R335, R346). -/
def subWrap (s : State) (n : Nat) : Nat :=
  let w := subF s n 0x10 33 17
  if w = 0 then subRate s n else w

/-- A stream event (R344): logged, and posted when evon is set. -/
def streamEvent (n code state cnt time : Nat) (s : State) : State :=
  let s := logFree 0x08 code n (state + cnt * 2 ^ 16) s
  if bit (reg s (subBase n + 0x28)) 18 then
    post 0x200 (subF s n 0x28 17 0)
      (leBytes 2 n ++ leBytes 1 code ++ leBytes 1 state ++ leBytes 2 cnt ++ leBytes 2 0 ++ time96 time
        ++ leBytes 12 0) s
  else s

/-- A change of the stream's state, with its event; a recovery arms the gmIdentity event again (R342, R344). -/
def enterStream (n st code : Nat) (s : State) : State :=
  if streamState s n = st then s
  else
    let s := setRegF (statBase n) 2 0 st s
    let s := if code = 0x03 then setSub n { subSt s n with gm := false } s else s
    if code = 0 then s else streamEvent n code st (regF s (statBase n) 31 16) (time16 s) s

/-- smpSynch satisfies synreq (R335). -/
def synchOk (s : State) (n v : Nat) : Bool :=
  match subF s n 0 54 53 with
  | 0 => v == 1 || v == 2 || (decide (5 ≤ v) && decide (v ≤ 254))
  | 1 => v == 2
  | 2 => v == subF s n 0 63 56
  | _ => false

/-- The state that a frame that passes the first checks leaves its stream in, with the event code and the
new count of good frames (R342, R348). -/
def nextStream (s : State) (n synch : Nat) : Nat × Nat × Nat :=
  let st := streamState s n
  let first := if st = 1 then 0x01 else if st = 5 ∨ st = 6 then 0x03 else 0
  let x := subSt s n
  if bit (reg s (subBase n)) 50 then (3, first, 0)
  else if synchOk s n synch then
    if st = 4 then (if 8 ≤ x.ok + 1 then (2, 0x06, 8) else (4, 0, x.ok + 1)) else (2, first, x.ok + 1)
  else (4, if st = 2 then 0x05 else first, 0)

/-! Placing samples in time (R346, R347). -/

/-- One second in units of 2^-16 ns. -/
def g16 : Nat := 1000000000 * 2 ^ 16

/-- The arrival-mode time of ASDU `i`, times the rate (R346). -/
def refTimesRate (s : State) (n arr dly i : Nat) : Int :=
  ((arr : Int) - (dly : Int) * 2 ^ 16) * (subRate s n : Int)
    - ((subNasdu s n : Int) - (i : Int)) * (g16 : Int)

/-- The time of ASDU `i` of a frame that arrived at `arr`, its stream being in `st` (R346). -/
def asduTime (s : State) (n st arr i cnt : Nat) : Int :=
  let r := max 1 (subRate s n)
  let hold := st = 4 ∧ subF s n 0 52 51 = 0
  let dly := if hold then regF s (statBase n) 63 32 else subF s n 0x20 31 0
  let rf := refTimesRate s n arr dly i
  if st = 3 ∨ hold then roundDiv rf r
  else
    let w := max 1 (subWrap s n)
    let k := (cnt : Int) + (w : Int) * roundDiv (rf - (cnt : Int) * (g16 : Int)) (w * g16)
    roundDiv (k * (g16 : Int)) r

/-- The largest plausible delay, in ns (R335). -/
def subMaxdly (s : State) (n : Nat) : Nat :=
  let m := subF s n 0x20 63 32
  if m = 0 then 10000000 else m

/-- The mean of the kept delays in ns; the configured delay until 256 are kept (R347). -/
def learnedDelay (s : State) (n : Nat) (ds : List Int) : Nat :=
  if ds.length < 256 then subF s n 0x20 31 0
  else (ds.foldl (· + ·) 0 / (256 * 2 ^ 16)).toNat

/-- The channels of an ASDU (R333): values and the 13 quality bits. -/
def asduChans (d : List Byte) : Nat → List (BitVec 32 × Nat)
  | 0 => []
  | k + 1 =>
    (BitVec.ofNat 32 (beNat (slice d 0 4)), beNat (slice d 4 4) % 2 ^ 13) :: asduChans (d.drop 8) k

/-- What one ASDU does to its stream (R341): a duplicate, late, or accepted. One that lies before the newest by exactly
half a period is accepted in the newest one's place, with nothing missing (DEDUCED, log entry 63). -/
def asduAccept (n st arr : Nat) (t : Int) (a : Asdu) (s : State) : Bool × State :=
  let x := subSt s n
  let r := subRate s n
  let sm := fun (k : Nat) =>
    ({ k := k, t := t, chans := asduChans a.data (subNdp s n + 1), held := st != 2,
       inv := st == 4 && subF s n 0 52 51 == 2, arr := arr } : Sample)
  let take := fun (k : Nat) (s : State) =>
    let new := sm k
    let s := setSub n { x with samples := new :: x.samples } s
    let s := subCnt n 0x08 32 (setRegF (statBase n) 31 16 a.smpCnt s)
    let s := if st = 4 then subCnt n 0x28 32 s else s
    (true, if new.chans.any (fun c => c.2 % 4 != 0) then subCnt n 0x30 0 s else s)
  match x.samples with
  | [] => take 0 s
  | y :: _ =>
    let d := (t - y.t) * (r : Int)
    if 2 * d.natAbs < g16 then (false, subCnt n 0x10 32 s)
    else if 2 * d < -(g16 : Int) then (false, subCnt n 0x18 0 s)
    else
      let steps := (roundDiv d g16).toNat
      let s := (List.range (steps - 1)).foldl (fun s _ => subCnt n 0x10 0 s) s
      take (y.k + steps) s

/-- The ASDUs of a frame in order; whether any was accepted. -/
def asdusAccept (n st arr : Nat) : Nat → List Asdu → State → Bool × State
  | _, [], s => (false, s)
  | i, a :: as, s =>
    match asduAccept n st arr (asduTime s n st arr i a.smpCnt) a s with
    | (b, s) =>
      match asdusAccept n st arr (i + 1) as s with
      | (c, s) => (b || c, s)

/-- The partner of a simulation subscription (R335, R339). -/
def subAlt (s : State) (n : Nat) : Option Nat :=
  if bit (reg s (subBase n + 0x18)) 45 then some (subF s n 0x18 44 32) else none

/-- The subscription whose takeover is in force over `n`, if any (R339). -/
def takenBy (s : State) (n : Nat) : Option Nat :=
  (enabledSubs s).find? (fun m => subSim s m && (subSt s m).takes && subAlt s m == some n)

/-- A simulation subscription that takes its partner's channels over with the next frame it accepts (R339). -/
def takesNext (s : State) (n : Nat) : Bool :=
  subSim s n && (subAlt s n).isSome && simMode s && !(subSt s n).takes

/-- At a change of source the samples that a stream has accepted no longer serve entries (R339, R341; DEDUCED, log entry
63). -/
def cutSamples (n : Nat) (s : State) : State :=
  setSub n { subSt s n with samples := (subSt s n).samples.map (fun x => { x with cut := true }) } s

/-- The start of a simulation takeover, with the first frame that the subscription accepts (R339). -/
def takeover (n : Nat) (s : State) : State :=
  if takesNext s n then
    streamEvent n 0x07 (streamState s n) (regF s (statBase n) 31 16) (time16 s)
      (setSub n { subSt s n with takes := true } s)
  else s

/-- The end of a simulation takeover: the partner writes again from its next accepted sample (R339). -/
def takeoverEnd (n : Nat) (s : State) : State :=
  if (subSt s n).takes then
    let s := match subAlt s n with
      | some m => cutSamples m s
      | none => s
    streamEvent n 0x08 (streamState s n) (regF s (statBase n) 31 16) (time16 s)
      (setSub n { subSt s n with takes := false } s)
  else s

/-- Checks 4 to 6 of R340 and what follows an accepted frame. A stream that is followed already changes between
synchronised and holdover with every frame (R348); one that waits or is lost goes on with an accepted sample (R342;
DEDUCED, log entry 63). -/
def streamPlace (n arr : Nat) (f : SvFrame) (last : Asdu) (s : State) : State :=
  let z := nextStream s n last.synch
  let st := z.1
  let fresh := streamState s n = 1 ∨ streamState s n = 5
  let followed := fun (s : State) => if fresh then s else enterStream n st z.2.1 s
  let t := asduTime s n st arr (subNasdu s n) last.smpCnt
  let d := (arr : Int) - t
  let far := st ≠ 3 ∧ ¬ (st = 4 ∧ subF s n 0 52 51 = 0)
    ∧ (d < 0 ∨ (subMaxdly s n : Int) * 2 ^ 16 < d)
  let s := if fresh then s else setSub n { subSt s n with ok := z.2.2 } s
  if far then followed (subCnt n 0x20 0 s)
  else
    let s := setSub n { subSt s n with ok := z.2.2, samples := if fresh then [] else (subSt s n).samples } s
    let s := if takesNext s n then cutSamples n s else s
    match asdusAccept n st arr 0 f.asdus s with
    | (false, s) => followed s
    | (true, s) =>
      let x := subSt s n
      let ds := if st = 2 then (d :: x.ds).take 256 else x.ds
      let s := setSub n { x with lastFrm := some (stampDur s arr), ds := ds } s
      let s := setRegF (statBase n) 63 32 (learnedDelay s n ds) s
      let s := subCnt n 0x08 0 s
      takeover n (enterStream n st z.2.1 s)

/-- A frame that passes check 1 ends the mismatch state: its stream starts afresh (R341, R342; DEDUCED, log entry 63). -/
def leaveMismatch (n synch : Nat) (s : State) : State :=
  if streamState s n = 6 then
    let z := nextStream s n synch
    enterStream n z.1 z.2.1 (setSub n { subSt s n with ok := 0, samples := [] } s)
  else s

/-- The stream checks (R340). -/
def streamCheck (n arr : Nat) (f : SvFrame) (s : State) : State :=
  match f.asdus.getLast? with
  | none => s
  | some last =>
    let s := setRegF (statBase n) 15 8 last.synch s
    let s := if (takenBy s n).isSome then subCnt n 0x38 32 s else s
    if f.asdus.any (fun a => a.confRev != subF s n 8 47 16) then
      enterStream n 6 0x04 (subCnt n 0x18 32 s)
    else
    let s := leaveMismatch n last.synch s
    if bit (reg s (subBase n)) 55
        && f.asdus.any (fun a => a.gm != some (leBytes 8 (reg s (subBase n + 0x30)).toNat)) then
      let s := subCnt n 0x30 32 s
      if (subSt s n).gm then s
      else streamEvent n 0x0A (streamState s n) (regF s (statBase n) 31 16) (time16 s)
        (setSub n { subSt s n with gm := true } s)
    else if f.asdus.length ≠ subNasdu s n + 1
        ∨ f.asdus.any (fun a => a.data.length != 8 * (subNdp s n + 1)) then subCnt n 0x38 0 s
    else streamPlace n arr f last s

/-- The lost-stream timeout in units of 2^-16 ns (R343). -/
def lostAfter (s : State) (n : Nat) : Nat :=
  let t := subF s n 0x18 31 16
  if t ≠ 0 then t * 10000 * 2 ^ 16
  else (4 * (subNasdu s n + 1) * g16 + subRate s n - 1) / max 1 (subRate s n)

/-- The lost-stream timeout has run out, measured with the steps removed from the last frame counted (R343, R402). -/
def lostDue (s : State) (n : Nat) : Bool :=
  match (subSt s n).lastFrm with
  | some t => decide (t + lostAfter s n * 2 ^ 16 ≤ s.time.dur)
  | none => false

/-- The lost-stream timeout has expired (R343). -/
def streamLost (n : Nat) (s : State) : State :=
  let st := streamState s n
  if subEn s n && decide (2 ≤ st) && st != 5 && lostDue s n then
    let s := subCnt n 0x28 0 s
    let s := setSub n { subSt s n with ok := 0, lastFrm := none } s
    takeoverEnd n (enterStream n 5 0x02 s)
  else s

/-- Steps 6 to 9 of R325 for a sampled-value frame; the subscription that it reached. A timeout that has expired comes
before the frame (R343). -/
def svReceive (lane arr dmac : Nat) (b : List Byte) (s : State) : Option Nat × State :=
  match svParse dmac b with
  | none => (none, laneCnt lane 6 s)
  | some f =>
    match (enabledSubs s).find? (subMatches s f) with
    | none => (none, laneCnt lane 7 s)
    | some n =>
      if !bit (reg s (subBase n + 0x18)) lane then (none, subCnt n 0x20 32 s)
      else (some n, streamCheck n arr f (streamLost n s))

end Sys2Proof.Machine
end

