-- ==== Sys2Proof/Machine/Align.lean ====
section
/-! DEFINITION. The aligner (R349 to R362): grid instants, planes, entries, headers and doorbells, and the
configuration writes of subscriptions, grids and the ingress control block (R336 to R339, R350). -/

namespace Sys2Proof.Machine

/-! Grids (R349, R351). -/

def gridF (s : State) (g off hi lo : Nat) : Nat := regF s (gridBase g + off) hi lo
def gridEn (s : State) (g : Nat) : Bool := bit (reg s (gridBase g)) 0
def gridRate (s : State) (g : Nat) : Nat := max 1 (gridF s g 0 17 1)
def gridOff (s : State) (g : Nat) : Int := (BitVec.ofNat 32 (gridF s g 0 63 32)).toInt
def gridNch (s : State) (g : Nat) : Nat := gridF s g 0x18 16 0
def gridSt (s : State) (g : Nat) : GridSt := tblGet {} s.grids g
def setGrid (g : Nat) (x : GridSt) (s : State) : State := { s with grids := tblSet g x s.grids }
def gridCnt (g off lo : Nat) (s : State) : State := bumpReg (gridBase g + off) lo s

/-- Grid instant number `n` since the epoch (R351). -/
def instant (s : State) (g : Nat) (n : Int) : Int :=
  roundDiv (n * (g16 : Int)) (gridRate s g) + gridOff s g * 2 ^ 16

/-- The first instant after a time. -/
def instantAfter (s : State) (g : Nat) (t : Int) : Int :=
  let m := (t - gridOff s g * 2 ^ 16) * (gridRate s g : Int) / (g16 : Int)
  if t < instant s g (m + 1) then m + 1 else m + 2

/-- A plane begun at an instant, with the grid words now in force (R350). -/
def planeAt (s : State) (g p : Nat) (n : Int) (gap : Bool) : Plane :=
  { p := p, tg := instant s g n, rbase := gridF s g 0x08 47 9 * 512, hbase := gridF s g 0x10 47 12 * 4096,
    dl := gridF s g 0x18 47 32, ctol := gridF s g 0x20 15 0, dbl := gridF s g 0x28 47 6 * 64,
    dbn := gridF s g 0x30 8 0, done := [], ngood := 0, nsub := 0, ninv := 0, wfail := false, gap := gap,
    sim := false }

/-- The planes begun by a time; `k` bounds their number. -/
def openPlanes (s : State) (g : Nat) (t : Int) : Nat → GridSt → GridSt
  | 0, x => x
  | k + 1, x =>
    if t < instant s g x.next then x
    else
      let p := planeAt s g (gridF s g 0x40 31 0 + x.planes.length) x.next x.gap
      openPlanes s g t k { x with planes := x.planes ++ [p], next := x.next + 1, gap := false }

/-- A grid followed to the present: planes begin at the instants passed, in service only (R354). -/
def gridFollow (g : Nat) (s : State) : State :=
  if !gridEn s g then s
  else
    let x := gridSt s g
    let t : Int := time16 s
    if inService s then
      let k := ((t - instant s g x.next) * (gridRate s g : Int) / (g16 : Int)).toNat + 2
      setGrid g (openPlanes s g t k x) s
    else setGrid g { x with planes := [], next := instantAfter s g t } s

/-! Entries (R355 to R358). -/

/-- One sample as an entry uses it. -/
structure Tap where
  v     : Int
  q     : Nat
  held  : Bool
  inv   : Bool
  subst : Bool
  deriving DecidableEq, Repr

/-- What is known of a place in a stream's sequence: nothing yet, that it cannot be used, or the sample. -/
inductive Place where
  | wait
  | bad
  | tap (t : Tap)
  deriving DecidableEq, Repr

/-- The channel of a sample. -/
def chanOf (x : Sample) (ch : Nat) : Int × Nat :=
  match x.chans[ch]? with
  | some e => (e.1.toInt, e.2)
  | none => (0, 0)

/-- The place numbered `k` in the sequence (R357): received, replaced by extrapolation, or beyond it. Samples
stand newest first. -/
def placeAt (xs : List Sample) (ch : Nat) (final : Bool) (k : Int) : Place :=
  match xs.find? (fun x => (x.k : Int) == k) with
  | some x => .tap { v := (chanOf x ch).1, q := (chanOf x ch).2, held := x.held, inv := x.inv, subst := false }
  | none =>
    match xs.dropWhile (fun x => decide (k < (x.k : Int))) with
    | r :: r1 :: _ =>
      let d := k - (r.k : Int)
      if !final && xs.head?.map (fun x => x.k) == some r.k then .wait
      else if 3 ≤ d then .bad
      else
        let a := (chanOf r ch).1
        let b := (chanOf r1 ch).1
        .tap { v := (d + 1) * a - d * b, q := (chanOf r ch).2, held := r.held, inv := r.inv, subst := true }
    | [r] => if !final && xs.head?.map (fun x => x.k) == some r.k then .wait else .bad
    | [] => .bad

/-- The time of a place: that of its sample, or at the stream's period after the sample before it. -/
def placeTime (xs : List Sample) (rate : Nat) (k : Int) : Int :=
  match xs.dropWhile (fun x => decide (k < (x.k : Int))) with
  | r :: _ => r.t + roundDiv ((k - (r.k : Int)) * (g16 : Int)) rate
  | [] => 0

/-- The newest place with time at or before the grid instant. -/
def placeBefore (xs : List Sample) (rate : Nat) (tg : Int) : Option Int :=
  match xs.dropWhile (fun x => decide (tg < x.t)) with
  | [] => none
  | v :: _ =>
    let i := (tg - v.t) * (rate : Int) / (g16 : Int)
    match (xs.takeWhile (fun x => decide (tg < x.t))).getLast? with
    | some u => some (v.k + min i ((u.k : Int) - v.k - 1))
    | none => some (v.k + i)

/-- An entry: value, quality and whether it was copied; or none yet; or invalid (R358). -/
inductive Entry where
  | wait
  | invalid
  | val (v : BitVec 32) (q : Nat) (copied : Bool)
  deriving DecidableEq, Repr

/-- The worst validity (R358): invalid, questionable, good; reserved counts as invalid. -/
def worstValidity (l : List Nat) : Nat :=
  if l.any (fun q => q % 4 == 1 || q % 4 == 2) then 1 else if l.any (fun q => q % 4 == 3) then 3 else 0

/-- The quality word of the samples used (R358). -/
def entryQuality (ts : List Tap) : Nat :=
  let v := worstValidity (ts.map (fun t => t.q))
  let o := ts.foldl (fun a t => a ||| (t.q / 4 * 4)) 0
  v + o + b2n (ts.any (fun t => t.held)) * 2 ^ 13 + b2n (ts.any (fun t => t.subst)) * 2 ^ 14
    + b2n (v == 1) * 2 ^ 15

/-- An entry that copies a sample. -/
def copied (p : Place) (isCopy : Bool) : Entry :=
  match p with
  | .wait => .wait
  | .bad => .invalid
  | .tap t =>
    if t.inv then .invalid
    else
      let v := if t.v < -(2 ^ 31) ∨ 2 ^ 31 ≤ t.v then Config.extrapolated t.v else BitVec.ofInt 32 t.v
      .val v (entryQuality [t]) isCopy

/-- The Lagrange coefficients for a fraction in units of 1/65536 (R356). -/
def lagrange (m : Int) : Int × Int × Int × Int :=
  let d : Int := 65536
  let a := roundDiv (-m * (m - d) * (m - 2 * d)) (6 * 65536 ^ 2)
  let b := roundDiv ((m + d) * (m - d) * (m - 2 * d)) (2 * 65536 ^ 2)
  let e := roundDiv ((m + d) * m * (m - d)) (6 * 65536 ^ 2)
  (a, b, d - a - b - e, e)

/-- The interpolated value of four samples (R356). -/
def interpolate (m x0 x1 x2 x3 : Int) : BitVec 32 :=
  let h := lagrange m
  let acc := h.1 * x0 + h.2.1 * x1 + h.2.2.1 * x2 + h.2.2.2 * x3
  BitVec.ofInt 32 (clampInt (-(2 ^ 31)) (2 ^ 31 - 1) (roundDiv acc 65536))

/-- An entry interpolated at place `k` (R355, R356). -/
def interpolated (xs : List Sample) (ch rate : Nat) (final : Bool) (tg k : Int) : Entry :=
  let at_ := fun (i : Int) => placeAt xs ch final (k + i)
  let t0 := placeTime xs rate k
  let t1 := placeTime xs rate (k + 1)
  let m := roundDiv ((tg - t0) * 65536) (max 1 (t1 - t0).toNat)
  if m = 0 then copied (at_ 0) false
  else if m = 65536 then copied (at_ 1) false
  else
    let l := [at_ (-1), at_ 0, at_ 1, at_ 2]
    if l.contains .wait then .wait
    else match l with
      | [.tap a, .tap b, .tap c, .tap d] =>
        if a.inv || b.inv || c.inv || d.inv then .invalid
        else .val (interpolate m a.v b.v c.v d.v) (entryQuality [a, b, c, d]) false
      | _ => .invalid

/-- The entry of a stream's channel for a grid instant (R355, R357). Without `final`, places not yet received
are waited for. -/
def entryOf (xs : List Sample) (ch rate ctol : Nat) (final : Bool) (tg : Int) : Entry :=
  match placeBefore xs rate tg with
  | none => if xs.isEmpty && !final then .wait else .invalid
  | some k =>
    let tol : Int := (ctol : Int) * 2 ^ 16
    let newest := xs.head?.map (fun x => (x.k : Int))
    if tg - placeTime xs rate k ≤ tol then copied (placeAt xs ch final k) true
    else if !final && newest == some k then .wait
    else if placeTime xs rate (k + 1) - tg ≤ tol then copied (placeAt xs ch final (k + 1)) true
    else interpolated xs ch rate final tg k

/-! Writing planes (R352, R359 to R362). -/

/-- An engine's ring and header writes (R46). -/
def gridInit (g : Nat) : Nat := 0x110 + g

/-- One ring or header write; whether it was performed: a denial, or a bus error among those that the command brings,
loses it (R362); so does the poison code of a line that it writes in part (R288; DEDUCED, log entry 64). -/
def gridWrite (g a : Nat) (bs : List Byte) (s : State) : Bool × State :=
  match gateCheck s (gridInit g) a bs.length .write with
  | .ok _ =>
    if rangeErr s true a bs.length then (false, gridCnt g 0x60 0 s)
    else (true, memStore a bs s)
  | .error d => (false, gridCnt g 0x60 0 (gateEvent (gridInit g) a .write d s))

/-- The age field (R358): from the grid instant, in 100 ns. -/
def ageOf (tg : Int) (till : Int) : Nat :=
  let d := till - tg
  if d < 0 then (Config.ageBefore d).toNat else min 0xFFFF (d.toNat / (100 * 2 ^ 16))

/-- One entry written to its ring slot and counted in the plane. -/
def putEntry (g c : Nat) (v : BitVec 32) (q : Nat) (till : Int) (sim : Bool) (x : Plane × State) : Plane × State :=
  let p := x.1
  let w := v.toNat + q * 2 ^ 32 + ageOf p.tg till * 2 ^ 48
  let z := gridWrite g (p.rbase + 512 * c + 8 * (p.p % 64)) (leBytes 8 w) x.2
  let sub := q.testBit 14
  let inv := q.testBit 15
  let s := if sub then gridCnt g 0x58 0 z.2 else z.2
  let s := if inv then gridCnt g 0x58 32 s else s
  let p := { p with done := c :: p.done, wfail := p.wfail || !z.1, sim := p.sim || sim,
                    ngood := p.ngood + b2n (!sub && !inv), nsub := p.nsub + b2n (sub && !inv),
                    ninv := p.ninv + b2n inv }
  (p, s)

/-- An invalid entry (R358). -/
def putInvalid (g c : Nat) (till : Int) (x : Plane × State) : Plane × State :=
  putEntry g c 0 0x8001 till false x

/-- The subscriptions that write a grid's channels (R339). -/
def feeders (s : State) (g : Nat) : List Nat :=
  (enabledSubs s).filter (fun n => subGrid s n == g && subActive s n && (takenBy s n).isNone
    && !(subSim s n && (subAlt s n).isSome && !(subSt s n).takes))

/-- A stream whose channels come from samples (R342). -/
def streamLive (s : State) (n : Nat) : Bool :=
  streamState s n == 2 || streamState s n == 3 || streamState s n == 4

/-- A stream's channels that a plane still lacks, written as far as their entries are known. -/
def fillFrom (g : Nat) (final : Bool) (till : Int) (n : Nat) (x : Plane × State) : Plane × State :=
  let xs := (subSt x.2 n).samples.takeWhile (fun e => !e.cut)
  let rate := max 1 (subRate x.2 n)
  let fch := subFch x.2 n
  let sim := subSim x.2 n
  (List.range (subNdp x.2 n + 1)).foldl (fun x ch =>
    if x.1.done.contains (fch + ch) then x
    else match entryOf xs ch rate x.1.ctol final x.1.tg with
      | .wait => x
      | .invalid => putInvalid g (fch + ch) till x
      | .val v q cp =>
        putEntry g (fch + ch) v q till sim (x.1, gridCnt g 0x50 (if cp then 0 else 32) x.2)) x

/-- Every live stream's channels filled. -/
def fillPlane (g : Nat) (final : Bool) (till : Int) (x : Plane × State) : Plane × State :=
  ((feeders x.2 g).filter (streamLive x.2)).foldl (fun x n => fillFrom g final till n x) x

/-- Every channel that a live stream feeds has its entry (R352). -/
def planeFull (s : State) (g : Nat) (p : Plane) : Bool :=
  ((feeders s g).filter (streamLive s)).all (fun n =>
    (List.range (subNdp s n + 1)).all (fun ch => p.done.contains (subFch s n + ch)))

/-- The plane's deadline. -/
def planeEnd (p : Plane) : Int := p.tg + (p.dl : Int) * 1000 * 2 ^ 16

/-- The 12 bytes of a TIME96 of a time that may lie before the epoch in no run. -/
def time96I (t : Int) : List Byte := time96 t.toNat

/-- Header flags (R360). -/
def planeFlags (s : State) (p : Plane) (late wfail : Bool) : Nat :=
  b2n late + b2n wfail * 2 + b2n (!tlock s) * 4 + b2n p.gap * 8 + b2n p.sim * 16

/-- The 64 bytes of a plane header (R360). -/
def headerBytes (s : State) (g : Nat) (p : Plane) (late : Bool) : List Byte :=
  let lost := ((enabledSubs s).filter (fun n => subGrid s n == g
    && (streamState s n == 5 || streamState s n == 6))).length
  time96I p.tg ++ leBytes 4 p.p ++ leBytes 1 (p.p % 64) ++ leBytes 1 (planeFlags s p late p.wfail)
    ++ leBytes 2 0 ++ leBytes 4 (gridNch s g) ++ leBytes 4 p.ngood ++ leBytes 4 p.nsub ++ leBytes 4 p.ninv
    ++ leBytes 2 lost ++ leBytes 2 0 ++ time96 (time16 s) ++ leBytes 12 0

/-- The 16 bytes of a doorbell (R361). -/
def doorbellBytes (g : Nat) (p : Plane) (flags : Nat) : List Byte :=
  let t := p.tg.toNat
  leBytes 4 p.p ++ leBytes 1 (p.p % 64) ++ leBytes 1 flags ++ leBytes 1 g ++ leBytes 1 0
    ++ leBytes 4 (t % g16 / 2 ^ 16) ++ leBytes 4 (t / g16)

/-- The doorbells posted, in list order (R361). -/
def postDoorbells (g : Nat) (p : Plane) (flags : Nat) (s : State) : State :=
  let n := 4 * p.dbn
  if n = 0 then s
  else match rangeCheck s (gridInit g) p.dbl n .read with
  | some (d, a) => gateEvent (gridInit g) a .read d s
  | none =>
    if rangeErr s false p.dbl n then s
    else (List.range p.dbn).foldl (fun s i =>
      let e := physNat s (p.dbl + 4 * i) 4
      if e < 2 ^ 18 then post (gridInit g) e (doorbellBytes g p flags) s else s) s

/-- A plane completes (R352): remaining channels, header, doorbells. -/
def completePlane (g : Nat) (late : Bool) (till : Int) (p : Plane) (s : State) : State :=
  let x := fillPlane g true till (p, s)
  let x := (List.range (gridNch s g)).foldl (fun x c =>
    if x.1.done.contains c then x else putInvalid g c till x) x
  let z := gridWrite g (x.1.hbase + 64 * (p.p % 64)) (headerBytes x.2 g x.1 late) x.2
  let s := postDoorbells g x.1 (planeFlags x.2 x.1 late (x.1.wfail || !z.1)) z.2
  let s := gridCnt g 0x40 32 s
  let s := if late then gridCnt g 0x48 0 s else s
  setRegF (gridBase g + 0x40) 31 0 ((p.p + 1) % 2 ^ 32) s

/-- A plane's ring or header writes must wait, for a link or at a gate (R24, R265). -/
def planeHeld (s : State) (g : Nat) (p : Plane) : Bool :=
  reqWaits s (gridInit g) p.rbase || reqWaits s (gridInit g) p.hbase

/-- Planes complete in order while the first one may, none before the time has passed its instant (R353); `k` bounds
their number. Whatever fills one is followed by this look at it, so that a plane that stands full was so before its deadline
(R352). -/
def completePlanes (g : Nat) (till : Int) : Nat → State → State
  | 0, s => s
  | k + 1, s =>
    match (gridSt s g).planes with
    | [] => s
    | p :: ps =>
      let full := decide (p.tg ≤ (time16 s : Int)) && planeFull s g p
      let late := decide (planeEnd p ≤ (time16 s : Int)) && !full
      if (late || full) && !planeHeld s g p then
        let s := completePlane g late (if late then planeEnd p else till) p s
        completePlanes g till k (setGrid g { gridSt s g with planes := ps } s)
      else s

/-- The entries of every plane begun, as far as they are known. -/
def fillPlanes (g : Nat) (till : Int) : List Plane → State → List Plane × State
  | [], s => ([], s)
  | p :: ps, s =>
    match (if planeHeld s g p then (p, s) else fillPlane g false till (p, s)) with
    | (p, s) =>
      match fillPlanes g till ps s with
      | (qs, s) => (p :: qs, s)

/-- Samples that no plane can need any more are dropped: those eight periods before the oldest plane. -/
def pruneSub (n : Nat) (t : Int) (s : State) : State :=
  let x := subSt s n
  let lim := t * (subRate s n : Int) - 8 * (g16 : Int)
  let keep := x.samples.take 4 ++ (x.samples.drop 4).takeWhile (fun e => decide (lim ≤ e.t * (subRate s n : Int)))
  setSub n { x with samples := keep } s

/-- A grid brought to the present after a frame that arrived at `till`. -/
def alignGrid (g : Nat) (till : Int) (s : State) : State :=
  if !gridEn s g || !inService s then gridFollow g s
  else
    let s := gridFollow g s
    let x := gridSt s g
    match fillPlanes g till x.planes s with
    | (ps, s) =>
      let s := setGrid g { x with planes := ps } s
      let s := completePlanes g till ps.length s
      let y := gridSt s g
      let oldest := match y.planes with | p :: _ => p.tg | [] => instant s g y.next
      (feeders s g).foldl (fun s n => pruneSub n oldest s) s

/-- Planes whose deadline has come complete before a later frame is looked at (R352). -/
def planesDue (g : Nat) (s : State) : State :=
  let s := gridFollow g s
  completePlanes g (time16 s) ((gridSt s g).planes.length) s

/-- The deadline of a grid's first plane (R352). -/
def planeDeadline (g : Nat) (bad : List Nat) (s : State) : State :=
  if g < 16 ∧ gridEn s g then withBusLost bad (planesDue g) s else s

/-- The lost-stream timeout, and the planes that it completes. -/
def streamLostStep (n : Nat) (bad : List Nat) (s : State) : State :=
  let s := if gridEn s (subGrid s n) ∧ subGrid s n < 16 then planesDue (subGrid s n) s else s
  let s1 := streamLost n s
  if streamState s1 n = streamState s n then s else withBusLost bad (alignGrid (subGrid s n) (time16 s)) s1

/-- Grids after a step of the timebase, having been followed up to it (R353): instants passed over are skipped. -/
def gridsStep (before : State) (s : State) : State :=
  (List.range 16).foldl (fun s g =>
    if !gridEn s g || !inService s then s
    else
      let x := gridSt s g
      let fwd := (time16 s : Int) - (time16 before : Int)
      if fwd * (gridRate s g : Int) < (g16 : Int) then s
      else
        let n := instantAfter s g (time16 s)
        let skipped := (n - x.next).toNat
        let old := gridF s g 0x48 63 32
        setRegF (gridBase g + 0x48) 63 32 (min (old + skipped) 0xFFFFFFFF)
          (setGrid g { x with next := n, gap := x.gap || decide (0 < skipped) } s)) s

/-- Every grid followed to the present. -/
def gridsFollow (s : State) : State := (List.range 16).foldl (fun s g => gridFollow g s) s

/-! Configuration writes (R336, R337, R350). -/

/-- A refused configuration write (R336). -/
def ingRefuse (rsn idx : Nat) (s : State) : State × Bool :=
  (setReg (ingBase + 0x18) (wd (1 + rsn * 2 ^ 8 + idx * 2 ^ 16)) s, true)

/-- An accepted configuration write. -/
def ingAccept (s : State) : State × Bool := (setRegF (ingBase + 0x18) 0 0 0 s, false)

/-- A field outside its range, or a reserved value (R337, reason 0x02). -/
def subBadField (s : State) (n : Nat) : Bool :=
  let rate := subRate s n
  let w := subF s n 0x10 33 17
  let len := subF s n 8 62 56
  let svid := (List.range 8).flatMap (fun i => leBytes 8 (reg s (subBase n + 0x40 + 8 * i)).toNat)
  subF s n 0 52 51 == 3 || subF s n 0 54 53 == 3 || bit (reg s (subBase n + 8)) 63
    || len == 0 || decide (64 < len) || decide (rate < 1000) || decide (96000 < rate)
    || (if w = 0 then decide (65536 < rate) else rate % w != 0)
    || subF s n 0x10 63 54 != 0 || subF s n 0x18 63 46 != 0 || subF s n 0x28 63 19 != 0
    || reg s (subBase n + 0x38) != 0 || (svid.drop len).any (fun b => b != 0)

/-- The key of a subscription (R334). -/
def subKey (s : State) (n : Nat) : Nat × Nat × List Byte × Bool :=
  (subF s n 0 47 0, subF s n 8 15 0, subSvid s n, subSim s n)

/-- The channel ranges of two subscriptions of one grid overlap. -/
def subsOverlap (s : State) (n m : Nat) : Bool :=
  subGrid s n == subGrid s m && decide (subFch s n ≤ subFch s m + subNdp s m)
    && decide (subFch s m ≤ subFch s n + subNdp s n)

/-- The alt partner's conditions (R337, reason 0x06). -/
def altBad (s : State) (n : Nat) : Bool :=
  match subAlt s n with
  | none => false
  | some m => !subSim s n || subSim s m || subGrid s m != subGrid s n || subFch s m != subFch s n
      || subNdp s m != subNdp s n

/-- The load of the enabled subscriptions and grids (R364): frames per second times 840, and
channel-samples per second. -/
def ingressLoad (s : State) (subs : List Nat) : Nat × Nat :=
  (subs.foldl (fun a n => a + subRate s n * (840 / (subNasdu s n + 1))) 0,
   subs.foldl (fun a n => a + subRate s n * (subNdp s n + 1)) 0)

/-- The enabled subscriptions and grids keep within the limits under which every lane accepts frames at line rate
(R364; DEDUCED, log entry 64). -/
def ingressWithin (s : State) : Bool :=
  let load := ingressLoad s (enabledSubs s)
  let all := (List.range 16).filter (gridEn s)
  decide (load.1 ≤ 48000000 * 840) && decide (load.2 ≤ 600000000)
    && decide (all.foldl (fun a h => a + gridF s h 0 17 1 * gridNch s h) 0 ≤ 600000000)

/-- The refusal of a subscription's commit, the lowest reason first (R337). The words stand as written. -/
def subCommitRefusal (s : State) (n : Nat) : Option Nat :=
  let others := (enabledSubs s).filter (fun m => m != n)
  let load := ingressLoad s (n :: others)
  if subBadField s n then some 0x02
  else if others.any (fun m => subKey s m == subKey s n) then some 0x03
  else if !gridEn s (subGrid s n) || decide (gridNch s (subGrid s n) ≤ subFch s n + subNdp s n) then some 0x04
  else if others.any (fun m => subsOverlap s n m && subAlt s n != some m && subAlt s m != some n) then some 0x05
  else if altBad s n then some 0x06
  else if 48000000 * 840 < load.1 ∨ 600000000 < load.2 then some 0x07
  else none

/-- A subscription disabled (R336, R342); planes that it leaves complete follow (R352). -/
def subDisable (n : Nat) (s : State) : State :=
  let g := subGrid s n
  let due := fun (s : State) => if g < 16 ∧ gridEn s g then planesDue g s else s
  let s := takeoverEnd n (setRegF (subBase n) 48 48 0 (due s))
  due (setSub n {} (enterStream n 0 0x09 s))

/-- The bits of a subscription's word that hold fields (R335). -/
def subMask (off : Nat) : W :=
  match off with
  | 0x08 => ones 63
  | 0x10 => ones 54
  | 0x18 => ones 46
  | 0x28 => ones 19
  | 0x38 => 0
  | _ => ones 64

/-- A write of a subscription's word (R336): the state, and whether it was refused. A word with a reserved bit set is
refused whole (R16, R337; DEDUCED, log entry 62). -/
def subWrite (n off : Nat) (v : W) (s : State) : State × Bool :=
  let a := subBase n + off
  if subEn s n then
    if off = 0 ∧ bit v 48 = false ∧ reg s a = v ||| (1 <<< 48) then ingAccept (subDisable n s)
    else ingRefuse 0x01 n s
  else if v &&& ~~~ subMask off ≠ 0 then ingRefuse 0x02 n s
  else if off = 0 ∧ bit v 48 = true then
    match subCommitRefusal (setReg a v s) n with
    | some r => ingRefuse r n s
    | none =>
      let s := setReg a v s
      let s := setRegF (statBase n) 63 32 (subF s n 0x20 31 0) s
      ingAccept (setSub n {} (setRegF (statBase n) 2 0 1 s))
  else ingAccept (setReg a v s)

/-- A grid's fields outside their ranges (R337, reason 0x02). -/
def gridBadField (s : State) (g : Nat) : Bool :=
  let rate := gridF s g 0 17 1
  let nch := gridNch s g
  let dl := gridF s g 0x18 47 32
  decide (rate < 1000) || decide (96000 < rate) || decide (1000000000 ≤ (gridOff s g).natAbs * rate)
    || nch == 0 || decide (65536 < nch) || dl == 0 || decide (256 < gridF s g 0x30 8 0)

/-- The grid's ring or header array does not lie within one target (R337, reason 0x08). -/
def gridBadPlace (s : State) (g : Nat) : Bool :=
  !spanOk s (gridF s g 8 47 9 * 512) (gridNch s g * 512) || !spanOk s (gridF s g 0x10 47 12 * 4096) 4096

/-- The refusal of a grid's commit (R337). -/
def gridCommitRefusal (s : State) (g : Nat) : Option Nat :=
  let all := g :: (List.range 16).filter (fun h => h != g && gridEn s h)
  if gridBadField s g then some 0x02
  else if 600000000 < all.foldl (fun a h => a + gridF s h 0 17 1 * gridNch s h) 0 then some 0x07
  else if gridBadPlace s g then some 0x08
  else if 65536 < all.foldl (fun a h => a + gridNch s h) 0 then some 0x09
  else none

/-- A grid committed: pidx 0, and planes from the first instant after (R350, R351). -/
def gridCommit (g : Nat) (s : State) : State :=
  setGrid g { planes := [], next := instantAfter s g (time16 s), gap := false }
    (setRegF (gridBase g + 0x40) 31 0 0 s)

/-- The bits of a grid's word that hold fields (R349). -/
def gridMask (off : Nat) : W :=
  match off with
  | 0x00 => ones 18 ||| (ones 32 <<< 32)
  | 0x08 => ones 48
  | 0x10 => ones 48
  | 0x18 => ones 17 ||| (ones 16 <<< 32)
  | 0x20 => ones 16
  | 0x28 => ones 48 &&& ~~~ (ones 6)
  | 0x30 => ones 9
  | _ => 0

/-- The refusal of a grid's word by itself: a reserved bit, or a misaligned array (R16, R337; DEDUCED, log entry 62). -/
def gridWordRefusal (off : Nat) (v : W) : Option Nat :=
  if v &&& ~~~ gridMask off ≠ 0 then some 0x02
  else if (off = 0x08 ∧ fld v 8 0 ≠ 0) ∨ (off = 0x10 ∧ fld v 11 0 ≠ 0) then some 0x08
  else none

/-- A write of a word of an enabled grid (R350). -/
def gridLiveWrite (g off : Nat) (v : W) (s : State) : State × Bool :=
  let a := gridBase g + off
  if off = 0 then
    if reg s a = v then ingAccept s
    else if reg s a ≠ v ||| 1 then ingRefuse 0x01 g s
    else if (enabledSubs s).any (fun n => subGrid s n == g) then ingRefuse 0x0A g s
    else ingAccept (setGrid g {} (setReg a v s))
  else if off = 0x18 ∧ fld v 16 0 ≠ gridNch s g then ingRefuse 0x01 g s
  else
    let s := gridFollow g s
    let t := setReg a v s
    match gridWordRefusal off v with
    | some r => ingRefuse r g s
    | none =>
    if gridBadField t g then ingRefuse 0x02 g s
    else if gridBadPlace t g then ingRefuse 0x08 g s
    else ingAccept t

/-- A write of a grid's word (R350): the state, and whether it was refused. -/
def gridCfgWrite (g off : Nat) (v : W) (s : State) : State × Bool :=
  let a := gridBase g + off
  if 0x38 ≤ off then (s, false)
  else if gridEn s g then gridLiveWrite g off v s
  else match gridWordRefusal off v with
  | some r => ingRefuse r g s
  | none =>
    if off = 0 ∧ bit v 0 then
      match gridCommitRefusal (setReg a v s) g with
      | some r => ingRefuse r g s
      | none => ingAccept (gridCommit g (setReg a v s))
    else ingAccept (setReg a v s)

/-- The first pair of a new pair word that is refused, with its reason (R326, R337). -/
def pairRefusal (s : State) (v : W) : Option (Nat × Nat) :=
  ((List.range 8).filterMap (fun p =>
    let m := fld v (4 * p + 1) (4 * p)
    if m = 3 then some (0x02, p)
    else if (m = 1 ∨ m = 2) ∧ laneMode s (2 * p) ≠ laneMode s (2 * p + 1) then some (0x0B, p)
    else none)).head?

/-- sclr (R338): the counters of the subscription selected by 0x8520:01. -/
def subClear (s : State) : State :=
  let n := objNat s 0x8520 1 0
  [8, 0x10, 0x18, 0x20, 0x28, 0x30, 0x38].foldl (fun s o => setReg (statBase n + o) 0 s) s

/-- gclr (R338): every lane, pair and grid counter. -/
def ingressClear (s : State) : State :=
  let s := (List.range 16).foldl (fun s n =>
    (List.range 8).foldl (fun s i => setReg (laneBlock n + 0x800 + 8 * i) 0 s) s) s
  let s := (List.range 8).foldl (fun s p =>
    (List.range 9).foldl (fun s i => setReg (0x62400100 + 0x80 * p + 8 * i) 0 s) s) s
  (List.range 16).foldl (fun s g =>
    let s := setRegF (gridBase g + 0x40) 63 32 0 s
    [0x48, 0x50, 0x58, 0x60].foldl (fun s o => setReg (gridBase g + o) 0 s) s) s

/-- A write of simmode (R339). -/
def simmodeWrite (v : W) (s : State) : State :=
  let s := setReg (ingBase + 0x10) (wd (fld v 0 0)) s
  if bit v 0 then s
  else ((s.subs.filter (fun e => e.2.takes)).map (fun e => e.1)).foldl (fun s n => takeoverEnd n s) s

/-- A write of the ingress control block (R338). -/
def ingWrite (off : Nat) (v : W) (s : State) : State × Bool :=
  match off with
  | 0x000 =>
    match pairRefusal s v with
    | some (r, p) => ingRefuse r p s
    | none => if fld v 63 32 ≠ 0 then ingRefuse 0x02 0 s else ingAccept (setReg ingBase v s)
  | 0x008 =>
    if fld v 9 0 = 0 ∨ 1000 < fld v 9 0 then ingRefuse 0x02 0 s
    else ingAccept (setReg (ingBase + 8) (wd (fld v 9 0)) s)
  | 0x010 => (simmodeWrite v s, false)
  | 0x020 => (if bit v 0 then subClear s else s, false)
  | 0x028 => (if bit v 0 then ingressClear s else s, false)
  | _ => (s, false)

end Sys2Proof.Machine
end

