-- ==== Sys2Proof/Machine/Clock.lean ====
section
/-! DEFINITION. UTC and the UtcTime of IEC 61850 (R416 to R420): the leap-second table, the offset in force,
and the quality octet. -/

namespace Sys2Proof.Machine

/-- The UTC seconds of a TAI second (R419): the second before an increase repeats the value before it. -/
def utcSeconds (s : State) (sec : Nat) : Int :=
  let o := utcOffset s sec
  let n := utcOffset s (sec + 1)
  if o < n then (sec : Int) - o - 1 else (sec : Int) - o

/-- Units of 2^-16 ns that the error estimate grows by in holdover: 1.5 us an hour (R420). -/
def holdError (s : State) : Nat := 1500 * (s.time.dur - s.time.lost) / (3600 * 1000000000 * 2 ^ 16)

/-- The error estimate in units of 2^-16 ns, when the state has one (R420). -/
def timeError (s : State) : Option Nat :=
  let thr := regF s (partTime + 0x20) 47 32 * 2 ^ 16
  match s.time.state with
  | 1 => if s.time.hasOff then some ((reg s (partTime + 8)).toInt.natAbs + thr) else none
  | 2 => some thr
  | 3 => some (thr + holdError s)
  | _ => none

/-- The number of fraction bits that an error estimate vouches for, at most `n` (R420). -/
def accuracyBits (e : Nat) : Nat → Nat
  | 0 => if e ≤ g16 then 0 else 31
  | n + 1 => if e * 2 ^ (n + 1) ≤ g16 then n + 1 else accuracyBits e n

/-- TimeQuality (R420). -/
def timeQuality (s : State) : Nat :=
  let acc := match timeError s with
    | some e => accuracyBits e 24
    | none => 31
  b2n (leapAtSec s (time16 s / g16)).isSome * 128 + b2n (bit (reg s partTime) 4) * 64
    + b2n (!tlock s) * 32 + acc

/-- The present as a UtcTime: 8 octets, the first sent first (R420). -/
def utcTime (s : State) : List Byte :=
  let t := time16 s
  let ns := t % g16 / 2 ^ 16
  beBytes 4 (BitVec.ofInt 32 (utcSeconds s (t / g16))).toNat ++ beBytes 3 (ns * 2 ^ 24 / 1000000000) ++ beBytes 1 (timeQuality s)

/-! The passing of time. -/

/-- 2.5 ns, in units of 2^-32 ns. -/
def tTick : Nat := 0x280000000

/-- A tick of the timebase (R399): 2.5 ns of its clock, by which the timebase and the clock that measures durations
advance by inc. The island clock comes from the same reference and not from the timebase: the island timer counts 2.5 ns
in every state in which the auxiliary supply is present (R34). Off, the chip has no timebase (R533, R539). -/
def tick (s : State) : State :=
  let s := if s.chip.aux then { s with chip := { s.chip with ref := s.chip.ref + tTick } } else s
  if pstateOf s = 0 ∨ pstateOf s = 3 then
    { s with time := { s.time with now := s.time.now + s.time.inc, dur := s.time.dur + s.time.inc } }
  else { s with time := { s.time with dur := s.time.dur + tTick } }

end Sys2Proof.Machine
end

