-- ==== Sys2Proof/Machine/Trip.lean ====
section
/-! DEFINITION. The trip unit (chapter 11): voting, latches, the state word, trip outputs, GOOSE publication,
and the commands of the trip unit control block. -/

namespace Sys2Proof.Machine

/-- The initiator ID of the trip unit (R46). -/
def tripInit : Nat := 0x120

/-- The publication table base (R367). -/
def pubBase (s : State) : Nat := regF s (tripBlock + 8) 47 21 * 2 ^ 21

def tripObj (s : State) (n : Nat) : Option TripObj := tblFind s.trip.objs n
def setTrip (n : Nat) (o : TripObj) (s : State) : State :=
  { s with trip := { s.trip with objs := tblSet n o s.trip.objs } }
def tripCnt (n : Nat) (f : TripCnt → TripCnt) (s : State) : State :=
  { s with trip := { s.trip with cnts := tblSet n (f (tblGet {} s.trip.cnts n)) s.trip.cnts } }

def pubOf (s : State) (p : Nat) : Option Pub := tblFind s.trip.pubs p
def setPub (p : Nat) (x : Pub) (s : State) : State :=
  { s with trip := { s.trip with pubs := tblSet p x s.trip.pubs } }
def pubCnt (p : Nat) (f : PubCnt → PubCnt) (s : State) : State :=
  { s with trip := { s.trip with pcnts := tblSet p (f (tblGet {} s.trip.pcnts p)) s.trip.pcnts } }

/-! Trip events (R389). -/

/-- stNum of an object's publication; 0 when it publishes nothing. -/
def tripStn (s : State) (o : TripObj) : Nat :=
  if o.pon then (match pubOf s o.pub with | some x => x.st | none => 0) else 0

/-- An access of the trip unit or of an egress engine that waits for a link or at a gate (R24, R265). -/
def lateAdd (l : TripLate) (s : State) : State := { s with trip := { s.trip with late := s.trip.late ++ [l] } }

/-- A trip event: logged (R489), and posted to evq with evon set (R389). -/
def tripEvent (n code byte3 : Nat) (word : W32) (stn : Nat) (s : State) : State :=
  let s := logFree 0x09 code n (word.toNat + byte3 * 2 ^ 32) s
  let w := reg s (tripBlock + 0x20)
  if bit w 18 then
    post 0x300 (fld w 17 0)
      (leBytes 2 n ++ leBytes 1 code ++ leBytes 1 byte3 ++ leBytes 4 word.toNat ++ time96 (time16 s)
        ++ leBytes 4 stn ++ leBytes 8 0) s
  else s

/-! GOOSE frames (R382, R383, R386). -/

/-- A BER length in its shortest form. -/
def berLen (n : Nat) : List Byte :=
  if n < 0x80 then beBytes 1 n else if n < 0x100 then beBytes 1 0x81 ++ beBytes 1 n else beBytes 1 0x82 ++ beBytes 2 n

def berOut (tag : Nat) (c : List Byte) : List Byte := beBytes 1 tag ++ berLen c.length ++ c

/-- A number as an INTEGER in its shortest form. -/
def berInt (v : Nat) : List Byte :=
  if v < 0x80 then beBytes 1 v else if v < 0x8000 then beBytes 2 v else if v < 0x800000 then beBytes 3 v
  else if v < 0x80000000 then beBytes 4 v else beBytes 5 v

def berBool (b : Bool) : List Byte := beBytes 1 (b2n b)

/-- The goosePdu. -/
def goosePdu (x : Pub) (st sq tal : Nat) (data : List Byte) : List Byte :=
  berOut 0x61 (berOut 0x80 x.gocbref ++ berOut 0x81 (berInt tal) ++ berOut 0x82 x.datset ++ berOut 0x83 x.goid
    ++ berOut 0x84 x.t ++ berOut 0x85 (berInt st) ++ berOut 0x86 (berInt sq) ++ berOut 0x87 (berBool x.sim)
    ++ berOut 0x88 (berInt x.confrev) ++ berOut 0x89 (berBool x.ndscom) ++ berOut 0x8A (berInt x.nent)
    ++ berOut 0xAB data)

/-- Bytes filled up to a number with zeros. -/
def padTo (n : Nat) (b : List Byte) : List Byte := b ++ List.replicate (n - b.length) 0

/-- A frame as it leaves an unpaired lane whose MAC is `smac`. -/
def gooseFrame (x : Pub) (smac : Nat) (pdu : List Byte) : List Byte :=
  let tag := if x.vtag then beBytes 2 0x8100 ++ beBytes 2 (x.pcp * 2 ^ 13 + x.vid) else []
  let res1 := if x.sim && x.ed != 0 then 0x8000 else 0
  padTo 60 (leBytes 6 x.dmac ++ leBytes 6 smac ++ tag ++ beBytes 2 0x88B8 ++ beBytes 2 x.appid
    ++ beBytes 2 (8 + pdu.length) ++ beBytes 2 res1 ++ beBytes 2 0 ++ pdu)

/-- The octets that the active objects of a publication put in place (R371). -/
def pubOverlay (s : State) (p : Nat) : List (Nat × List Byte) :=
  (s.trip.objs.filter (fun e => e.2.pon && e.2.pub == p && e.2.act)).flatMap (fun e =>
    e.2.pos.map (fun q => (q.1, beBytes q.2.1 (e.2.word.toNat / 2 ^ q.2.2))))

/-- Octets replaced in place. -/
def overlay (b : List Byte) : List (Nat × List Byte) → List Byte
  | [] => b
  | (o, r) :: l => overlay (b.take o ++ r ++ b.drop (o + r.length)) l

/-- The interval after the one in progress (R385). -/
def nextIv (x : Pub) : Nat := min (2 * x.iv) (x.t0 * 1000)

/-- timeAllowedtoLive: twice the interval to the next planned frame, in ms rounded up. -/
def pubTal (x : Pub) : Nat := (2 * x.iv + 999) / 1000

/-- The frame of a publication now in force, sent by the egress engine of cage `q` (R381, R387): its allData
is read again, and a failed read loses the frame on the cage's lanes. `bad` holds the cages whose read meets an error. While
the read waits, for a link or at a gate, the frame waits with it (R24, R265). -/
def pubCage (p : Nat) (x : Pub) (bad q : Nat) (s : State) : State :=
  let lanes := (List.range 4).map (fun i => 4 * q + i)
  let lanes := lanes.filter (fun n => x.lanes.testBit n && laneMode s n != 0)
  let a := pubBase s + 2048 * p + 0x400
  if lanes.isEmpty then s
  else if rangeWaits s (0x121 + q) a x.dlen then lateAdd (.frame p x bad q) s
  else
    let fail := fun (s : State) =>
      tripEvent p 0x07 q 0 x.st (pubCnt p (fun c => { c with nterr := satInc32 c.nterr }) s)
    match rangeCheck s (0x121 + q) a x.dlen .read with
    | some (d, b) => fail (gateEvent (0x121 + q) b .read d s)
    | none =>
      if bad.testBit q || rangeErr s false a x.dlen then fail s
      else
        let data := overlay (physRead s a x.dlen) (pubOverlay s p)
        let s := sendOn lanes (fun m => gooseFrame x m (goosePdu x x.st x.sq (pubTal x) data)) s
        pubCnt p (fun c => { c with ntx := min 0xFFFFFFFF (c.ntx + lanes.length) }) s

/-- The planned frame of a publication sent, and the next one planned (R384, R385). -/
def pubSend (p bad : Nat) (s : State) : State :=
  match pubOf s p with
  | none => s
  | some x =>
    let s := (List.range 4).foldl (fun s q => pubCage p x bad q s) s
    let sq := if x.sq = 0xFFFFFFFF then 1 else x.sq + 1
    setPub p { x with sq := sq, due := s.time.dur + x.iv * tUs, iv := nextIv x } s

/-- A state change of a publication (R384, R385): its frame is sent at once, in service. -/
def pubChange (p : Nat) (s : State) : State :=
  match pubOf s p with
  | none => s
  | some x =>
    let st := if x.st = 0xFFFFFFFF then 1 else x.st + 1
    let s := setPub p { x with st := st, sq := 0, t := utcTime s, due := s.time.dur, iv := x.tmin } s
    let s := pubCnt p (fun c => { c with nst := satInc32 c.nst, ncanc := satInc32 c.ncanc }) s
    if inService s then pubSend p 0 s else s

/-- The retransmission interval of a publication has passed (R385, R387). -/
def gooseRetransmit (p bad : Nat) (s : State) : State :=
  match pubOf s p with
  | some x => if inService s ∧ x.due ≤ s.time.dur then pubSend p bad s else s
  | none => s

/-- Publications resume with a frame at once when service begins (R387). The cages whose allData read then meets an error are
free values: the commands that begin service do not name them (log entry 104). -/
def pubsResume (s : State) : State :=
  s.trip.pubs.foldl (fun s e => pubSend e.1 (Config.pubBad s.fresh e.1) s) { s with fresh := s.fresh + 1 }

/-! Objects (R372 to R377). -/

/-- A registration has not expired. -/
def regLive (s : State) (o : TripObj) (r : VoteReg) : Bool := decide (s.time.dur ≤ r.ti + o.win * tUs)

/-- The state word of an enabled object, in bits [63:8] (R376). -/
def tripWord (s : State) (o : TripObj) : W :=
  let reg := (o.regs.filter (regLive s o)).foldl (fun a r => a ||| 2 ^ r.voter) 0
  wd (b2n o.act * 2 ^ 8 + b2n (o.act && o.lmode != 0) * 2 ^ 9 + reg * 2 ^ 10 + o.lmode * 2 ^ 13 + o.rule * 2 ^ 15
    + o.ntrip % 2 ^ 16 * 2 ^ 32 + tripStn s o % 2 ^ 16 * 2 ^ 48)

/-- A write of lstate that was denied or failed is counted and posted (R377). -/
def lstateLost (n : Nat) (o : TripObj) (s : State) : State :=
  tripEvent n 0x06 0 o.word (tripStn s o) (tripCnt n (fun c => { c with nlw := satInc32 c.nlw }) s)

/-- What the gate's answer makes of the write of lstate and ttrip at an address: stored, or denied or failed (R266, R268,
R377). -/
def lstatePut (n : Nat) (o : TripObj) (bs : List Byte) (a : Nat) (s : State) : Except Deny Nat → State
  | .ok _ => if rangeErr s true a 32 then lstateLost n o s else memStore a bs s
  | .error d => lstateLost n o (gateEvent tripInit a .write d s)

/-- The 32 bytes of lstate and ttrip (R369, R376). -/
def lstateBytes (s : State) (o : TripObj) : List Byte :=
  leBytes 8 (tripWord s o).toNat ++ time96 (time16 s) ++ leBytes 12 0

/-- The write reaches its gate. -/
def lstateSend (n : Nat) (o : TripObj) (bs : List Byte) (s : State) : State :=
  lstatePut n o bs (tripBase s + 256 * n + 0x20) s (gateCheck s tripInit (tripBase s + 256 * n + 0x20) 32 .write)

/-- lstate and ttrip written to the object in memory (R369, R377); the write waits for a link or at a gate, behind those that
wait already (R24, R265), and the trip does not wait for it. -/
def lstateWrite (n : Nat) (o : TripObj) (s : State) : State :=
  if rangeWaits s tripInit (tripBase s + 256 * n + 0x20) 32 || !s.trip.late.isEmpty then
    lateAdd (.lstate n o (lstateBytes s o)) s
  else lstateSend n o (lstateBytes s o) s

/-- What waited for a link or at a gate goes, in order, as far as it can. -/
def lateFlush (s : State) : State :=
  s.trip.late.foldl (fun s l => match l with
    | .lstate n o bs =>
      if rangeWaits s tripInit (tripBase s + 256 * n + 0x20) 32 || !s.trip.late.isEmpty then lateAdd l s
      else lstateSend n o bs s
    | .frame p x bad q => pubCage p x bad q s) { s with trip := { s.trip with late := [] } }

/-- act changes: publication, event and lstate follow (R373, R375, R377, R389). -/
def tripChanged (n code voter : Nat) (o : TripObj) (s : State) : State :=
  let o := { o with regs := [], since := s.time.dur }
  let s := setTrip n o s
  let s := if o.pon then pubChange o.pub s else s
  lstateWrite n o (tripEvent n code voter o.word (tripStn s o) s)

/-- act clears. -/
def tripClear (n code : Nat) (o : TripObj) (s : State) : State := tripChanged n code 0 { o with act := false } s

/-- The vote is met (R373). -/
def voteMet (n v : Nat) (w : W32) (o : TripObj) (s : State) : State :=
  let s := tripCnt n (fun c => { c with nmet := satInc32 c.nmet }) s
  tripChanged n 0x01 v { o with act := true, ntrip := o.ntrip + 1, word := w } s

/-- A voter that the rule uses and the object enables (R372, row 1). -/
def voterOk (o : TripObj) (v : Nat) : Bool :=
  o.ven.testBit v && !(o.rule == 0 && v != 0) && !(o.rule == 1 && v == 2)

/-- An invocation handled (R372): the answer and the state. -/
def tripInvoke (n v region : Nat) (w : W32) (s : State) : Nat × State :=
  let s := tripCnt n (fun c => { c with ninv := satInc32 c.ninv }) s
  let dis := fun (s : State) => (0x03, tripCnt n (fun c => { c with ndis := satInc32 c.ndis }) s)
  match tripObj s n with
  | none => dis s
  | some o =>
    if !inService s || !voterOk o v then dis s
    else if o.act then (0x02, tripCnt n (fun c => { c with nact := satInc32 c.nact }) s)
    else if o.rule = 0 then (0x00, voteMet n v w o s)
    else
      let live := o.regs.filter (regLive s o)
      let gone := o.regs.length - live.length
      let s := tripCnt n (fun c => { c with nexp := min 0xFFFFFFFF (c.nexp + gone) }) s
      let others := live.filter (fun r => r.voter != v)
      if others.any (fun r => r.region != region) then (0x00, voteMet n v w { o with regs := live } s)
      else
        let s := if others.isEmpty then s else tripCnt n (fun c => { c with nsame := satInc32 c.nsame }) s
        let mine : VoteReg := { voter := v, ti := s.time.dur, region := region, word := w }
        (0x01, setTrip n { o with regs := live.filter (fun r => r.voter != v) ++ [mine] } s)

/-- A release handled (R375). -/
def tripRelease (n : Nat) (s : State) : Nat × State :=
  match tripObj s n with
  | none => (0x03, s)
  | some o =>
    if o.act ∧ o.lmode = 1 ∧ o.since + o.tpulse * tMs ≤ s.time.dur then
      (0x04, tripClear n 0x02 o (tripCnt n (fun c => { c with nrel := satInc32 c.nrel }) s))
    else (0x05, tripCnt n (fun c => { c with nrelref := satInc32 c.nrelref }) s)

/-- The answer of a query (R376). -/
def tripQueryWord (s : State) (n : Nat) : W :=
  match tripObj s n with
  | none => 0x03
  | some o => tripWord s o

/-- The answer of the trip unit to a request. -/
def tripServe (core : Nat) (r : TrpReq) (s : State) : W × State :=
  match r.op with
  | .inv => let z := tripInvoke r.obj r.voter (core / 64 % 4) r.word s; (wd z.1, z.2)
  | .rel => let z := tripRelease r.obj s; (wd z.1, z.2)
  | .query => (tripQueryWord s r.obj, s)

/-- The oldest request of a core that has not been answered, when it is of this kind and its earlier stores
have been performed (R280), reaches the trip unit in its turn, over links that are up (R24). -/
def tripArrive (core : Nat) (op : TrpOp) (s : State) : State :=
  match takeFirst (fun r : TrpReq => r.ans.isNone) (cellOf s core).trp with
  | some (r, _) =>
    if r.op = op ∧ r.ahead = 0 ∧ tripTurn s (core / 64 % 4) = true ∧ pathWaits s (initSite core) ⟨none, none⟩ = false then
      let s := { s with trip := { s.trip with turn := some (s.time.dur, core / 64 % 4) } }
      match tripServe core r s with
      | (w, s) =>
        modCell core (fun c =>
          { c with trp := c.trp.map (fun x => if x.ans.isNone && x == r then { r with ans := some w } else x) }) s
    else s
  | none => s

/-- A pulse has lasted tpulse (R375). -/
def tpulseExpiry (n : Nat) (s : State) : State :=
  match tripObj s n with
  | some o =>
    if o.act ∧ o.lmode = 0 ∧ o.since + o.tpulse * tMs ≤ s.time.dur then tripClear n 0x03 o s else s
  | none => s

/-! Trip outputs (R378 to R380). -/

/-- A write of the trip output block. -/
def toutWrite (off : Nat) (v : W) (s : State) : State :=
  if off = 0 then setReg toutBlock (wd (fld v 15 0)) s
  else if off = 8 ∧ s.dev = 2 then setReg (toutBlock + 8) (wd (fld v 15 0)) s
  else s

/-! Commands (R388). -/

/-- The positions with pen set of an object's bytes (R371). -/
def tripPos (b : List Byte) : List (Nat × Nat × Nat) :=
  ((List.range 4).map (fun i => wd (leNat (slice b (0x10 + 4 * i) 4)))).filterMap (fun w =>
    if bit w 31 then some (fld w 10 0, 2 ^ fld w 12 11, fld w 17 13) else none)

/-- A field of a trip object's bytes out of range, or a reserved bit set (R369, R371, R388). -/
def tripBad (b : List Byte) : Bool :=
  let w0 := wd (leNat (slice b 0 8))
  let w1 := wd (leNat (slice b 8 8))
  let pos := (List.range 4).map (fun i => wd (leNat (slice b (0x10 + 4 * i) 4)))
  let vot := (List.range 3).map (fun v => leNat (slice b (0x40 * (v + 1)) 64))
  fld w0 1 0 == 3 || fld w0 3 2 == 3 || fld w0 15 4 != 0 || fld w0 63 43 != 0 || fld w1 31 14 != 0
    || fld w1 63 48 != 0 || fld w1 47 32 == 0
    || (fld w0 1 0 != 0 && (decide (fld w1 13 0 < 50) || decide (10000 < fld w1 13 0)))
    || pos.any (fun p => fld p 30 18 != 0 || fld p 12 11 == 3) || vot.any (fun v => decide (1 < v))
    || (fld w0 31 16 == 0 && !bit w0 42)

/-- A trip object as an enable copies it. -/
def tripOf (b : List Byte) (now : Nat) : TripObj :=
  let w0 := wd (leNat (slice b 0 8))
  let w1 := wd (leNat (slice b 8 8))
  let ven := (List.range 3).foldl (fun a v => a + leNat (slice b (0x40 * (v + 1)) 1) % 2 * 2 ^ v) 0
  { rule := fld w0 1 0, lmode := fld w0 3 2, omask := fld w0 31 16, pub := fld w0 41 32, pon := bit w0 42,
    win := fld w1 13 0, tpulse := fld w1 47 32, pos := tripPos b, ven := ven, act := false, word := 0, regs := [],
    ntrip := 0, since := now }

/-- Two positions overlap. -/
def posMeet (p q : Nat × Nat × Nat) : Bool := decide (p.1 < q.1 + q.2.1) && decide (q.1 < p.1 + p.2.1)

/-- The checks of an object against the publication it names (R388, 0x04 and 0x05). -/
def tripPubBad (s : State) (o : TripObj) : Option Nat :=
  if !o.pon then none
  else match pubOf s o.pub with
  | none => some 0x04
  | some x =>
    if o.pos.any (fun p => decide (x.dlen < p.1 + p.2.1)) then some 0x05
    else if s.trip.objs.any (fun e => e.2.pon && e.2.pub == o.pub && e.2.pos.any (fun q => o.pos.any (posMeet q))) then
      some 0x05
    else none

/-- An entry's bytes read under the trip unit's ID: the state, and the bytes when the read is let through and meets no
error (R288, R388). -/
def tripRead (a n : Nat) (bad : Bool) (s : State) : Option (List Byte) × State :=
  if rangeWaits s tripInit a n then (none, waitUp s)
  else match rangeCheck s tripInit a n .read with
  | some (d, b) => (none, gateEvent tripInit b .read d s)
  | none => if bad || rangeErr s false a n then (none, s) else (some (physRead s a n), s)

/-- Enable of a trip object: the result and the state. -/
def tripEnable (n : Nat) (bad : Bool) (s : State) : Nat × State :=
  if (tripObj s n).isSome then (0x02, s)
  else match tripRead (tripBase s + 256 * n) 256 bad s with
  | (none, s) => (0x06, s)
  | (some b, s) =>
    if tripBad b then (0x03, s)
    else
      let o := tripOf b s.time.dur
      match tripPubBad s o with
      | some c => (c, s)
      | none => (0x00, setTrip n o s)

/-- A publication record as an enable copies it, stNum 1 and sqNum 0 (R381, R384). -/
def pubRead (b : List Byte) (t : List Byte) (now : Nat) : Pub :=
  let w := fun (i : Nat) => wd (leNat (slice b (8 * i) 8))
  { dmac := fld (w 0) 47 0, vid := fld (w 0) 59 48, pcp := fld (w 0) 62 60, vtag := bit (w 0) 63,
    appid := fld (w 1) 15 0, ed := fld (w 1) 17 16, sim := bit (w 1) 18, ndscom := bit (w 1) 19,
    confrev := fld (w 1) 63 32, lanes := fld (w 2) 15 0, dlen := fld (w 2) 26 16, nent := fld (w 2) 47 32,
    tmin := fld (w 3) 19 0, t0 := fld (w 3) 47 32, gocbref := slice b 0x100 (fld (w 4) 7 0),
    datset := slice b 0x200 (fld (w 4) 15 8), goid := slice b 0x300 (fld (w 4) 23 16), st := 1, sq := 0, t := t,
    due := now, iv := fld (w 3) 19 0 }

/-- A record's field out of range, a reserved value or a reserved bit (R381, R388). -/
def pubBad (b : List Byte) : Bool :=
  let w := fun (i : Nat) => wd (leNat (slice b (8 * i) 8))
  let len := fun (n : Nat) => decide (1 ≤ n) && decide (n ≤ 129)
  fld (w 1) 17 16 == 3 || fld (w 1) 31 20 != 0 || fld (w 2) 31 27 != 0 || fld (w 2) 63 48 != 0
    || fld (w 3) 31 20 != 0 || fld (w 3) 63 48 != 0 || fld (w 4) 63 24 != 0
    || (slice b 0x28 0xD8).any (fun x => x != 0)
    || fld (w 2) 26 16 == 0 || decide (1024 < fld (w 2) 26 16)
    || decide (fld (w 3) 19 0 < 500) || decide (1000000 < fld (w 3) 19 0)
    || fld (w 3) 47 32 == 0 || decide (60000 < fld (w 3) 47 32)
    || decide (fld (w 3) 47 32 * 1000 < fld (w 3) 19 0)
    || !(len (fld (w 4) 7 0) && len (fld (w 4) 15 8) && len (fld (w 4) 23 16))

/-- lanes splits a redundancy pair. -/
def pubSplits (s : State) (x : Pub) : Bool :=
  (List.range 8).any (fun p => pairMode s p != 0 && x.lanes.testBit (2 * p) != x.lanes.testBit (2 * p + 1))

/-- The bytes of a publication's largest frame with its FCS, and tag or trailer on a pair's lanes. -/
def pubLargest (s : State) (x : Pub) : Nat :=
  let b := gooseFrame x 0 (goosePdu x 0xFFFFFFFF 0xFFFFFFFF (2 * x.t0) (List.replicate x.dlen 0))
  let paired := (List.range 16).any (fun n => x.lanes.testBit n && pairMode s (n / 2) != 0)
  b.length + (if paired then 6 else 0) + 4

/-- Enable of a publication. -/
def pubEnable (p : Nat) (bad : Bool) (s : State) : Nat × State :=
  if (pubOf s p).isSome then (0x02, s)
  else match tripRead (pubBase s + 2048 * p) 2048 bad s with
  | (none, s) => (0x06, s)
  | (some b, s) =>
    if pubBad b then (0x03, s)
    else
      let x := pubRead b (utcTime s) s.time.dur
      if pubSplits s x || decide (1528 < pubLargest s x) then (0x08, s)
      else
        let s := setPub p x s
        (0x00, if inService s then pubSend p 0 s else s)

/-- A command on a trip object. -/
def tripCommandObj (n cop : Nat) (bad : Bool) (s : State) : Nat × State :=
  if tripBase s = 0 then (0x01, s)
  else match cop with
  | 1 => tripEnable n bad s
  | 2 =>
    match tripObj s n with
    | none => (0x07, s)
    | some o =>
      let s := if o.act then tripClear n 0x05 o s else s
      (0x00, { s with trip := { s.trip with objs := tblDel n s.trip.objs } })
  | 3 =>
    match tripObj s n with
    | some o => if o.act ∧ o.lmode ≠ 0 then (0x00, tripClear n 0x04 o s) else (0x0A, s)
    | none => (0x0A, s)
  | _ => (0x00, { s with trip := { s.trip with cnts := tblDel n s.trip.cnts } })

/-- A command on a publication. -/
def tripCommandPub (p cop : Nat) (bad : Bool) (s : State) : Nat × State :=
  if pubBase s = 0 then (0x01, s)
  else match cop with
  | 1 => if 1024 ≤ p then (0x03, s) else pubEnable p bad s
  | 2 =>
    if (pubOf s p).isNone then (0x07, s)
    else if s.trip.objs.any (fun e => e.2.pon && e.2.pub == p) then (0x09, s)
    else (0x00, { s with trip := { s.trip with pubs := tblDel p s.trip.pubs } })
  | _ => (0x00, { s with trip := { s.trip with pcnts := tblDel p s.trip.pcnts } })

/-- The command in the command word performed (R388): cres. -/
def tripCommand (bad : Bool) (s : State) : State :=
  let w := reg s (tripBlock + 0x10)
  let n := fld w 11 0
  let cop := fld w 19 16
  let z := if cop = 0 ∨ 4 < cop ∨ (cop = 3 ∧ bit w 12) then (0x03, s)
    else if bit w 12 then tripCommandPub n cop bad s else tripCommandObj n cop bad s
  setReg (tripBlock + 0x18) (wd (z.1 * 2 ^ 8)) z.2

/-- The command word that a command row writes. -/
def tripCommandWord (n cop : Nat) (publication : Bool) : W :=
  wd (n % 2 ^ 12 + b2n publication * 2 ^ 12 + cop * 2 ^ 16 + 2 ^ 31)

/-- A write of the trip unit control block (R367). -/
def tripBlockWrite (bad : Bool) (off : Nat) (v : W) (s : State) : State :=
  match off with
  | 0x000 =>
    if s.trip.objs.isEmpty then
      let cells := s.cells.map (fun e => (e.1, { e.2 with tbaseOk := false }))
      setReg tripBlock (wd (fld v 47 20 * 2 ^ 20)) { s with cells := cells }
    else s
  | 0x008 => if s.trip.pubs.isEmpty then setReg (tripBlock + 8) (wd (fld v 47 21 * 2 ^ 21)) s else s
  | 0x010 =>
    let s := setReg (tripBlock + 0x10) (wd (fld v 12 0 + fld v 19 16 * 2 ^ 16)) s
    if bit v 31 then tripCommand bad s else s
  | 0x020 => setReg (tripBlock + 0x20) (wd (fld v 18 0)) s
  | _ => s

/-- An accepted tbase write has reached a core (R367). -/
def tbaseInForce (core : Nat) (s : State) : State :=
  if tripBase s = 0 then s else modCell core (fun c => { c with tbaseOk := true }) s

end Sys2Proof.Machine
end

