-- ==== Sys2Proof/Machine/Goose.lean ====
section
/-! DEFINITION. GOOSE subscriptions (R390 to R392) and the binary inputs (R393, R394). -/

namespace Sys2Proof.Machine

/-! Subscriptions. -/

def gsubBase (n : Nat) : Nat := 0x62900000 + 256 * n
def gsubF (s : State) (n off hi lo : Nat) : Nat := regF s (gsubBase n + off) hi lo
def gsubEn (s : State) (n : Nat) : Bool := bit (reg s (gsubBase n)) 48
def gsubSim (s : State) (n : Nat) : Bool := bit (reg s (gsubBase n)) 49

/-- GOOSE counter `i`, from 1, of a lane (R396). -/
def gooseLane (n i : Nat) (s : State) : State := bumpObj (0x8550 + n) i s

/-- The subscription's gocbRef octets: the 128 that its words hold, and the 129th, which the entry has no room for and
the dictionary alone writes (R390, R484; DEDUCED, log entry 94). -/
def gsubRef (s : State) (n : Nat) : List Byte :=
  ((List.range 16).flatMap (fun i => leBytes 8 (reg s (gsubBase n + 0x80 + 8 * i)).toNat)
    ++ [BitVec.ofNat 8 (tblGet 0 s.gocbTail n)]).take (gsubF s n 8 55 48)

/-- The numbers of the enabled GOOSE subscriptions. -/
def enabledGsubs (s : State) : List Nat :=
  (s.regs.filter (fun e => decide (0x62900000 ≤ e.1) && decide (e.1 < 0x62980000)
    && e.1 % 256 == 0 && bit e.2 48)).map (fun e => (e.1 - 0x62900000) / 256)

/-- A GOOSE subscription is active (R334, R391). -/
def gsubActive (s : State) (n : Nat) : Bool := gsubEn s n && (!gsubSim s n || simMode s)

/-- A well-formed GOOSE frame (R382, R391). -/
structure GooseFrame where
  appid   : Nat
  simBit  : Bool
  ref     : List Byte
  tal     : Nat
  t       : List Byte
  st      : Nat
  sq      : Nat
  f87     : Bool
  confrev : Nat
  ndscom  : Bool
  nent    : Nat
  data    : List Byte
  deriving DecidableEq, Repr

/-- An INTEGER of 1 to 5 octets. -/
def berNat (b : List Byte) : Option Nat := if 1 ≤ b.length ∧ b.length ≤ 5 then some (beNat b) else none

/-- A BOOLEAN: any nonzero octet is TRUE. -/
def berTrue (b : List Byte) : Option Bool := if b.length = 1 then some (b.any (fun x => x != 0)) else none

/-- The fields of a goosePdu in order. -/
def gooseFields (appid : Nat) (sim : Bool) : List (Nat × List Byte) → Option GooseFrame
  | [(0x80, ref), (0x81, tal), (0x82, _), (0x83, _), (0x84, t), (0x85, st), (0x86, sq), (0x87, f87), (0x88, rev),
     (0x89, nds), (0x8A, nent), (0xAB, data)] =>
    match berNat tal, berNat st, berNat sq, berTrue f87, berNat rev, berTrue nds, berNat nent with
    | some tal, some st, some sq, some f87, some rev, some nds, some nent =>
      if t.length = 8 then
        some { appid := appid, simBit := sim, ref := ref, tal := tal, t := t, st := st % 2 ^ 32, sq := sq % 2 ^ 32,
               f87 := f87, confrev := rev % 2 ^ 32, ndscom := nds, nent := nent, data := data }
      else none
    | _, _, _, _, _, _, _ => none
  | _ => none

/-- A frame's bytes from APPID on. -/
def gooseParse (b : List Byte) : Option GooseFrame :=
  let len := etherAt b 2
  if b.length < 8 ∨ len < 8 ∨ b.length < len then none
  else match berTlv ((b.take len).drop 8) with
  | some (0x61, c, []) =>
    (berList 12 c).bind (gooseFields (etherAt b 0) (decide (0x8000 ≤ etherAt b 4)))
  | _ => none

/-- The entry size of a queue as its manager knows it: from the cached or the stored descriptor (R300). -/
def queueEntry (s : State) (q : Nat) : Nat :=
  match (qCacheOf s (queueRegion q)).find? (fun d => d.q == q) with
  | some d => dE d
  | none => 16 * 2 ^ fld (wd (physNat s (qtab s + 64 * q) 8)) 55 53

/-- A field of a subscription's counters counted up. -/
def gsubCnt (n off lo : Nat) (s : State) : State := bumpReg (gsubBase n + off) lo s

/-- The message of an accepted frame (R392), its data cut to the queue's entries. -/
def gooseMsg (n : Nat) (flags : Nat) (f : GooseFrame) (arr lane e : Nat) : List Byte :=
  let cut := e - 48 < f.data.length
  leBytes 2 n ++ leBytes 2 (flags + (if cut then 32 else 0)) ++ leBytes 4 f.st ++ leBytes 4 f.sq ++ leBytes 4 f.tal
    ++ time96 arr ++ f.t ++ leBytes 4 f.confrev ++ leBytes 2 f.nent ++ leBytes 2 f.data.length ++ leBytes 1 lane
    ++ leBytes 3 0 ++ f.data.take (e - 48)

/-- An accepted frame (R391, R392). -/
def gooseAccept (n lane arr : Nat) (f : GooseFrame) (s : State) : State :=
  let gs := gsubF s n 0x20 1 0
  let lst := gsubF s n 0x20 63 32
  let lsq := gsubF s n 0x28 31 0
  let first := gs = 1 ∨ gs = 3
  let diff := f.confrev ≠ gsubF s n 8 47 16
  let gap := f.st ≠ (lst + 1) % 2 ^ 32 ∧ ¬ (f.st = lst ∧ f.sq = (lsq + 1) % 2 ^ 32)
  let flags := b2n (decide (f.st ≠ lst)) + b2n f.simBit * 2 + b2n f.f87 * 4 + b2n f.ndscom * 8
    + b2n (decide diff) * 16 + b2n (decide gap) * 64 + b2n (decide first) * 128
  let s := setRegF (gsubBase n + 0x20) 63 32 f.st s
  let s := setRegF (gsubBase n + 0x28) 31 0 f.sq s
  let s := { s with gtimer := tblSet n (stampDur s arr + f.tal * tMs) s.gtimer }
  let s := gsubCnt n 0x30 0 s
  let s := if diff then gsubCnt n 0x38 32 s else s
  let s := if gap then gsubCnt n 0x40 32 s else s
  let s := setRegF (gsubBase n + 0x20) 1 0 2 s
  if bit (reg s (gsubBase n)) 50 = true ∨ f.st ≠ lst ∨ first then
    let q := gsubF s n 0x10 17 0
    let e := queueEntry s q
    let s := if 64 ≤ e ∧ e - 48 < f.data.length then gsubCnt n 0x40 0 s else s
    post (0x210 + lane) q (gooseMsg n flags f arr lane e) s
  else s

/-- A frame with EtherType 0x88B8, from its destination MAC and the bytes from APPID on (R391). -/
def gooseReceive (lane arr dmac : Nat) (b : List Byte) (s : State) : State :=
  let s := gooseLane lane 1 s
  match gooseParse b with
  | none => gooseLane lane 2 s
  | some f =>
    match (enabledGsubs s).find? (fun n => gsubActive s n && gsubF s n 0 47 0 == dmac && gsubF s n 8 15 0 == f.appid
        && gsubRef s n == f.ref && gsubSim s n == f.simBit) with
    | none => gooseLane lane 3 s
    | some n =>
      if !bit (reg s (gsubBase n + 0x18)) lane then gooseLane lane 3 s
      else
        let d := (f.sq + 2 ^ 32 - gsubF s n 0x28 31 0) % 2 ^ 32
        if f.st = gsubF s n 0x20 63 32 ∧ ¬ (1 ≤ d ∧ d ≤ 2 ^ 31) then gsubCnt n 0x30 32 s
        else gooseAccept n lane arr f s

/-- The timer of a subscription expires (R391, R392). -/
def gooseTimeout (n : Nat) (s : State) : State :=
  match tblFind s.gtimer n with
  | none => s
  | some t =>
    if gsubEn s n ∧ t ≤ s.time.dur then
      let s := gsubCnt n 0x38 0 { s with gtimer := tblDel n s.gtimer }
      let s := setRegF (gsubBase n + 0x20) 1 0 3 s
      let f := Config.gooseTimeout s.fresh
      let msg := leBytes 2 n ++ leBytes 2 0x100 ++ slice f 0 38 ++ leBytes 2 0 ++ slice f 38 1 ++ leBytes 3 0
      post 0x210 (gsubF s n 0x10 17 0) msg { s with fresh := s.fresh + 1 }
    else s

/-- A GOOSE subscription's words out of range (R337, R390). -/
def gsubBad (s : State) (n : Nat) : Bool :=
  let len := gsubF s n 8 55 48
  let ref := (List.range 16).flatMap (fun i => leBytes 8 (reg s (gsubBase n + 0x80 + 8 * i)).toNat)
  len == 0 || decide (129 < len) || (ref.drop len).any (fun b => b != 0)

/-- The key of a GOOSE subscription (R391). -/
def gsubKey (s : State) (n : Nat) : Nat × Nat × List Byte × Bool :=
  (gsubF s n 0 47 0, gsubF s n 8 15 0, gsubRef s n, gsubSim s n)

/-- A GOOSE subscription disabled. -/
def gsubDisable (n : Nat) (s : State) : State :=
  setRegF (gsubBase n + 0x20) 1 0 0 (setRegF (gsubBase n) 48 48 0 { s with gtimer := tblDel n s.gtimer })

/-- The bits of a GOOSE subscription's word that hold fields (R390). -/
def gsubMask (off : Nat) : W :=
  match off with
  | 0x00 => ones 51
  | 0x08 => ones 56
  | 0x10 => ones 18
  | 0x18 => ones 16
  | _ => ones 64

/-- A write of a GOOSE subscription's word (R336, R337, R390): the state, and whether it was refused. -/
def gsubWrite (n off : Nat) (v : W) (s : State) : State × Bool :=
  let a := gsubBase n + off
  let idx := n
  if 0x20 ≤ off ∧ off < 0x80 then (s, false)
  else if gsubEn s n then
    if off = 0 ∧ bit v 48 = false ∧ reg s a = v ||| (1 <<< 48) then ingAccept (gsubDisable n s)
    else ingRefuse 0x01 idx s
  else if v &&& ~~~ gsubMask off ≠ 0 then ingRefuse 0x02 idx s
  else if off = 0 ∧ bit v 48 = true then
    let t := setReg a v s
    if gsubBad t n then ingRefuse 0x02 idx s
    else if ((enabledGsubs s).filter (fun m => m != n)).any (fun m => gsubKey t m == gsubKey t n) then
      ingRefuse 0x03 idx s
    else ingAccept (setRegF (gsubBase n + 0x20) 1 0 1 t)
  else ingAccept (setReg a v s)

/-! Binary inputs. -/

def binBlock : Nat := 0x6A400000
def binOf (s : State) (k : Nat) : BinSt := tblGet {} s.bins k
def setBin (k : Nat) (x : BinSt) (s : State) : State := { s with bins := tblSet k x s.bins }

/-- Changes per second allowed (R394). -/
def binChat (s : State) (k : Nat) : Nat := regF s (binBlock + 0x100 + 8 * k) 31 16

/-- The changes of the last second. -/
def binRecent (s : State) (x : BinSt) : List Nat := x.changes.filter (fun t => decide (s.time.dur < t + tSec))

/-- An event's bytes, its time truncated to 8 ns (R393, R394). -/
def binMsg (k : Nat) (level : Bool) (flags seq stamp : Nat) : List Byte :=
  leBytes 1 k ++ leBytes 1 (b2n level) ++ leBytes 1 flags ++ leBytes 1 0 ++ leBytes 4 seq
    ++ time96 (stamp / (8 * 2 ^ 16) * (8 * 2 ^ 16)) ++ leBytes 12 0

/-- The filter time of an input (R393). -/
def binFilter (s : State) (k : Nat) : Nat := regF s (binBlock + 0x100 + 8 * k) 15 0 * tUs

/-- An input's last samples are at a level (R394). -/
def binRaw (k : Nat) (level : Bool) (s : State) : State := setRegF (binBlock + 8) k k (b2n level) s

/-- The samples of an input are at a level whose first was taken at `stamp`. A new level that has held for the filter time
is accepted, and its event carries the lock at the instant stamped (R393, R394, R422). -/
def binChange (k : Nat) (level : Bool) (stamp : Nat) (s : State) : State :=
  if 32 ≤ k then s
  else if bit (reg s binBlock) k = level ∨ s.time.dur < stampDur s stamp + binFilter s k then binRaw k level s
  else
    let s := setRegF binBlock k k (b2n level) (binRaw k level s)
    let x := binOf s k
    let l := s.time.dur :: binRecent s x
    let x := { x with changes := l }
    if x.supp.isSome then setBin k { x with nchat := satInc32 x.nchat } s
    else
      let many := binChat s k ≠ 0 ∧ binChat s k < l.length
      let y := { x with supp := if many then some s.time.dur else none }
      let w := reg s (binBlock + 0x10)
      if bit w 18 && bit (reg s (binBlock + 0x18)) (if level then k else 32 + k) then
        let flags := b2n x.ended + b2n (!tlockAt s (stampDur s stamp)) * 2
        let s := post 0x301 (fld w 17 0) (binMsg k level flags s.binSeq stamp)
          { s with binSeq := (s.binSeq + 1) % 2 ^ 32 }
        setBin k { y with ended := false, nevt := satInc32 y.nevt } s
      else setBin k y s

/-- The samples are back at the accepted level after `len`: an excursion shorter than the filter time, counted, with no
event (R393). -/
def binGlitch (k len : Nat) (s : State) : State :=
  let x := binOf s k
  if 32 ≤ k ∨ binFilter s k ≤ len then s
  else setBin k { x with nglitch := satInc32 x.nglitch } (binRaw k (bit (reg s binBlock) k) s)

/-- A full second with at most chat changes ends suppression (R394). -/
def chatterEnd (k : Nat) (s : State) : State :=
  let x := binOf s k
  match x.supp with
  | none => s
  | some t =>
    if t + tSec ≤ s.time.dur ∧ (binRecent s x).length ≤ binChat s k then
      setBin k { x with supp := none, ended := true } s
    else s

/-- A write of the binary input block. -/
def binWrite (off : Nat) (v : W) (s : State) : State :=
  if off = 0x10 then setReg (binBlock + off) (wd (fld v 18 0)) s
  else if off = 0x18 then setReg (binBlock + off) v s
  else if 0x100 ≤ off ∧ off < 0x200 then setReg (binBlock + off) (wd (fld v 31 0)) s
  else s

/-- gclr for the counters of this chapter (R396). -/
def gooseClear (s : State) : State :=
  let s := (List.range 16).foldl (fun s n =>
    { s with objs := tblDel (okey (0x8550 + n) 1) (tblDel (okey (0x8550 + n) 2) (tblDel (okey (0x8550 + n) 3) s.objs)) }) s
  let bins := s.bins.map (fun (e : Nat × BinSt) => (e.1, { e.2 with nevt := 0, nglitch := 0, nchat := 0 }))
  let s := { s with bins := bins }
  ((s.regs.filter (fun e => decide (0x62900000 ≤ e.1) && decide (e.1 < 0x62980000)
    && decide (0x30 ≤ e.1 % 256) && decide (e.1 % 256 < 0x48))).map (fun e => e.1)).foldl (fun s a => setReg a 0 s) s

end Sys2Proof.Machine
end

