-- ==== Sys2Proof/Machine/Servo.lean ====
section
/-! DEFINITION. The timebase (R397 to R405), its sources IRIG-B and 1PPS (R413, R415), its outputs (R414,
R415), and learned leap seconds (R418). -/

namespace Sys2Proof.Machine

/-! State and servo (R399 to R401). -/

/-- The state of the timebase changed, and logged. -/
def setTimeState (k : Nat) (s : State) : State :=
  if s.time.state = k then s
  else keepLock s <| logFree 0x0A 0x01 0 (s.time.state + k * 2 ^ 8) { s with time := { s.time with state := k } }

/-- asrc (R405). -/
def asrc (s : State) : Nat := regF s partTime 7 5

/-- The increment limited to 200 ppm about nominal (R399). -/
def clampInc (i : Nat) : Nat := min (max i 10735270757) 10739565723

/-- A change of increment, remembered while locked (R400). -/
def setInc (i : Nat) (s : State) : State :=
  let i := clampInc i
  let l := if s.time.state = 2 then (s.time.dur, i) :: s.time.incs else s.time.incs
  { s with time := { s.time with inc := i, incs := l } }

/-- Sum of increment times duration, over the segments that end at `till` and lie after `lim`. -/
def incSum (lim : Nat) : Nat → List (Nat × Nat) → Nat × Nat
  | _, [] => (0, 0)
  | till, (t, i) :: l =>
    if till ≤ lim then (0, 0)
    else
      let a := max t lim
      let r := incSum lim (min till t) l
      (r.1 + i * (till - a), r.2 + (till - a))

/-- The mean increment over the last 100 s of the locked state, which ended when lock was lost (R400). -/
def meanInc (s : State) : Nat :=
  let till := if s.time.state = 2 then s.time.dur else s.time.lost
  let r := incSum (till - 100 * tSec) till s.time.incs
  if r.2 = 0 then s.time.inc else r.1 / r.2

/-- The acquiring state entered. -/
def enterAcquiring (s : State) : State :=
  let lost := if s.time.state = 2 then s.time.dur else s.time.lost
  setTimeState 1 { s with time := { s.time with hasOff := false, good := 0, bad := 0, lost := lost } }

/-- The holdover state entered (R400): the increment is frozen at its mean, and holdover is timed from the loss of
lock. -/
def enterHoldover (s : State) : State :=
  let t := { s with time := { s.time with inc := meanInc s,
                                          lost := if s.time.state = 2 then s.time.dur else s.time.lost } }
  keepLock s (holdAgain (setTimeState 3 t))

/-- The locked state entered. -/
def enterLocked (s : State) : State :=
  let l := [(s.time.dur, s.time.inc)]
  setTimeState 2 { s with time := { s.time with incs := l, bad := 0, held := true, expired := false } }

def irigBlock : Nat := 0x6A200000

/-- A signed 32-bit field of the block in units of 2^-16 ns. -/
def irigSigned (s : State) (off hi lo : Nat) : Int := (BitVec.ofNat 32 (regF s (irigBlock + off) hi lo)).toInt * 2 ^ 16

/-- A pulse's second: the last at which the 1PPS output was to rise (R415). -/
def ppsSecond (s : State) : Int := ((time16 s : Int) - irigSigned s 0x28 31 0) / (g16 : Int)

/-- After a step back, the outputs of the seconds that are now ahead again are to come (R414, R415). -/
def outsBack (s : State) : State :=
  let ahead := fun (o : Option Int) (now : Int) => match o with | some n => if now < n then none else some n | none => none
  { s with outs := { s.outs with
      pps := ahead s.outs.pps (ppsSecond s),
      irig := (ahead (s.outs.irig.map (fun (n : Nat) => (n : Int))) ((time16 s / g16 : Nat) : Int)).map Int.toNat } }

/-- The timebase stepped by an offset in units of 2^-16 ns, between two ticks (R401, R353). -/
def timeStep (off : Int) (s : State) : State :=
  let s := gridsFollow s
  let n := ((s.time.now : Int) + off * 2 ^ 16).toNat
  let t := { s with time := { s.time with now := n, steps := (s.time.dur, off) :: s.time.steps } }
  let t := outsBack t
  let t := bumpReg (partTime + 0x48) 0 t
  let t := setReg (partTime + 0x50) (BitVec.ofInt 64 ((reg t (partTime + 0x50)).toInt + off)) t
  gridsStep s (logFree 0x0A 0x02 0 (BitVec.ofInt 64 off).toNat t)

/-- lockthr and stepthr in units of 2^-16 ns. -/
def lockThr (s : State) : Nat := regF s (partTime + 0x20) 47 32 * 2 ^ 16
def stepThr (s : State) : Nat := regF s (partTime + 0x20) 31 0 * 2 ^ 16

/-- A slew: the increment that the servo chooses (R399, R411). -/
def slew (off : Int) (s : State) : State :=
  setInc (Config.servo s.fresh off) { s with fresh := s.fresh + 1 }

/-- A measured offset of the active source: the servo (R400, R401). -/
def measure (off : Int) (s : State) : State :=
  let s := setReg (partTime + 8) (BitVec.ofInt 64 off) { s with time := { s.time with hasOff := true } }
  let near := decide (off.natAbs ≤ lockThr s)
  if s.time.state = 1 then
    if stepThr s < off.natAbs then timeStep off { s with time := { s.time with good := 0 } }
    else
      let s := slew off s
      let g := if near then s.time.good + 1 else 0
      let s := { s with time := { s.time with good := g } }
      if 16 ≤ g then enterLocked s else s
  else if s.time.state = 2 then
    let s := slew off s
    let b := if 8 * lockThr s < off.natAbs then s.time.bad + 1 else 0
    let s := { s with time := { s.time with bad := b } }
    if 4 ≤ b then enterAcquiring (bump16 (partTime + 0x48) 48 s) else s
  else s

/-- An offset measured from a source; only the active one steers, and sets the seconds unless it is 1PPS. -/
def measureFrom (src : Nat) (off : Int) (s : State) : State :=
  let s := { s with time := { s.time with soff := tblSet src off s.time.soff } }
  if asrc s = src then measure off { s with time := { s.time with secSet := s.time.secSet || src != 3 } } else s

/-! Sources (R405). -/

def ptpBase (n : Nat) : Nat := 0x6A100000 + 0x1000 * n
def ptpOf (s : State) (n : Nat) : PtpPort := tblGet {} s.ptp n
def setPtp (n : Nat) (x : PtpPort) (s : State) : State := { s with ptp := tblSet n x s.ptp }
def ptpRole (s : State) (n : Nat) : Nat := regF s (ptpBase n) 2 0
def pstate (s : State) (n : Nat) : Nat := regF s (ptpBase n + 0x10) 3 0

/-- A port in the SLAVE state whose master's Sync has come within three sync intervals. -/
def ptpValid (s : State) : Bool :=
  (List.range 16).any (fun n => pstate s n == 9 &&
    (match (ptpOf s n).syncAt with
     | some t => decide (s.time.dur ≤ t + 3 * tSec)
     | none => false))


/-- Three consecutive good frames, and none missing since. -/
def irigValid (s : State) : Bool :=
  decide (3 ≤ s.irig.good) && bit (reg s irigBlock) 0 && decide (s.time.dur < s.irig.seen + 2 * tSec)

/-- Three consecutive edges a second apart, and none missing since; the seconds have been set. -/
def ppsValid (s : State) : Bool :=
  decide (3 ≤ s.pps.good) && bit (reg s (irigBlock + 0x18)) 0 && s.time.secSet &&
    (match s.pps.last with
     | some t => decide (s.time.dur ≤ t + tSec + 100 * tUs)
     | none => false)

def srcValid (s : State) (k : Nat) : Bool :=
  match k with
  | 1 => ptpValid s
  | 2 => irigValid s
  | 3 => ppsValid s
  | _ => false

/-- The source codes listed in tsrc, in order; a code of 0 ends the list. -/
def srcList (s : State) : List Nat :=
  let w := reg s (partTime + 0x18)
  [fld w 2 0, fld w 5 3, fld w 8 6].takeWhile (fun k => k != 0)

/-- A source becomes active (R405). -/
def activate (k : Nat) (s : State) : State :=
  if asrc s = k then s
  else
    let s := setRegF partTime 7 5 k s
    let s := if s.time.lastSrc = k then s
      else logFree 0x0A 0x03 0 (s.time.lastSrc + k * 2 ^ 8)
        (bump16 (partTime + 0x48) 32 { s with time := { s.time with lastSrc := k } })
    let near : Bool := match tblFind s.time.soff k with
      | some o => decide (o.natAbs ≤ lockThr s)
      | none => false
    if k = 4 ∨ (s.time.state = 2 ∧ near) then s else enterAcquiring s

/-- Since when each source is valid, brought up to date; without an active source the first valid one becomes
active. -/
def sourcesFollow (s : State) : State :=
  let l := [1, 2, 3].foldl (fun t k =>
    if !srcValid s k then tblDel k t else if (tblFind t k).isSome then t else tblSet k s.time.dur t) s.time.since
  let s := { s with time := { s.time with since := l } }
  let b := setRegF (irigBlock + 0x30) 0 0 (b2n (irigValid s)) s
  let s := setRegF (irigBlock + 0x30) 1 1 (b2n (ppsValid s)) b
  if asrc s = 0 ∨ asrc s = 4 then
    match (srcList s).find? (srcValid s) with
    | some k => activate k s
    | none => s
  else s

/-- The active source serves no more: the first valid one follows it, or holdover (R400, R405). -/
def sourceGone (s : State) : State :=
  match (srcList s).find? (srcValid s) with
  | some j => sourcesFollow (activate j s)
  | none =>
    let s := setRegF partTime 7 5 0 s
    sourcesFollow (if s.time.held then enterHoldover s else s)

/-- A source has stopped being valid (R400, R405). -/
def sourceInvalid (k : Nat) (s : State) : State :=
  if asrc s ≠ k ∨ k = 0 ∨ k = 4 ∨ srcValid s k then sourcesFollow s else sourceGone s

/-- A new list of sources: an active source that it does not hold is left, and one above the active one that has been
valid for 10 s takes over (R405). -/
def sourcesJudge (s : State) : State :=
  let k := asrc s
  if k = 0 ∨ k = 4 then sourcesFollow s
  else if !(srcList s).contains k then sourceGone s
  else
    let long := fun (j : Nat) => srcValid s j && (match tblFind s.time.since j with
      | some t => decide (t + 10 * tSec ≤ s.time.dur)
      | none => false)
    match ((srcList s).takeWhile (fun j => j != k)).find? long with
    | some j => sourcesFollow (activate j s)
    | none => sourcesFollow s

/-- A source that ranks above the active one has been valid for 10 s (R405). -/
def sourceTakeover (k : Nat) (s : State) : State :=
  let above := (srcList s).takeWhile (fun j => j != asrc s)
  match tblFind s.time.since k with
  | some t =>
    if above.contains k ∧ srcValid s k ∧ t + 10 * tSec ≤ s.time.dur ∧ asrc s ≠ 0 then sourcesFollow (activate k s)
    else s
  | none => s

/-- Holdover has lasted holdlim (R400). -/
def holdlimExpiry (s : State) : State :=
  if !s.time.expired && holdOver s then
    keepLock s <| logFree 0x0A 0x01 0 (3 + 3 * 2 ^ 8) { s with time := { s.time with expired := true } }
  else s

/-- The host sets the time of a free-running timebase (R404): a TAI second and nanosecond. -/
def hostSet (sec ns frac : Nat) (s : State) : State :=
  let off : Int := ((sec * g16 + ns * 2 ^ 16 + frac : Nat) : Int) - (time16 s : Int)
  let s := timeStep off { s with time := { s.time with secSet := true } }
  activate 4 (setRegF (partTime + 0x40) 1 1 0 { s with time := { s.time with now := s.time.now / 2 ^ 16 * 2 ^ 16 } })

/-- A write of tgo. -/
def tgoWrite (v : W) (s : State) : State :=
  if !bit v 0 then s
  else if s.time.state = 0 then hostSet (regF s (partTime + 0x30) 47 0) (regF s (partTime + 0x38) 31 0) 0 s
  else setRegF (partTime + 0x40) 1 1 1 s

/-- A field of the timebase block outside its range (R405). -/
def timeRefused (off : Nat) (v : W) : Bool :=
  match off with
  | 0x18 => [fld v 2 0, fld v 5 3, fld v 8 6].any (fun k => decide (3 < k))
  | 0x20 => decide (fld v 31 0 < 100) || decide (1000000000 < fld v 31 0) || decide (fld v 47 32 < 10)
      || decide (10000 < fld v 47 32)
  | 0x28 => decide (86400 < fld v 31 0)
  | 0x38 => decide (1000000000 ≤ fld v 31 0)
  | _ => false

/-- A write of the timebase control block: the state, and whether it was refused. -/
def timeWrite (off : Nat) (v : W) (s : State) : State × Bool :=
  let a := partTime + off
  if timeRefused off v then (s, true)
  else match off with
  | 0x18 => (sourcesJudge (setReg a (wd (fld v 8 0)) s), false)
  | 0x20 => (setReg a (wd (fld v 47 0)) s, false)
  | 0x28 =>
    let t := setReg a (wd (fld v 31 0)) s
    (keepLock s { t with time := { t.time with expired := t.time.expired && holdOver t } }, false)
  | 0x30 => (setReg a (wd (fld v 47 0)) s, false)
  | 0x38 => (setReg a (wd (fld v 31 0)) s, false)
  | 0x40 => (tgoWrite v s, false)
  | 0x70 => (setReg a (wd (fld v 31 0)) s, false)
  | _ => (s, false)

/-- The OCXO leaves its band or the root PLL loses lock, or recovers (R405). -/
def referenceFailure (fail : Bool) (s : State) : State := setRegF partTime 4 4 (b2n fail) s

/-! Leap seconds (R416, R418). -/

/-- A leap-second entry written by the host or restored: src stays as given, reserved bits are ignored. -/
def leapWrite (i : Nat) (v : W) (s : State) : State := setReg (leapAt i) (wd (fld v 57 0)) s

/-- A learned entry (R418): the state, and whether it conflicts with a host entry. -/
def leapLearn (src sec off : Nat) (s : State) : State × Bool :=
  let at_ := (List.range 32).filter (fun i => fld (leapWord s i) 57 56 != 0 && fld (leapWord s i) 47 0 == sec)
  if at_.any (fun i => fld (leapWord s i) 57 56 == 1 && fld (leapWord s i) 55 48 != off) then (s, true)
  else if at_.any (fun i => fld (leapWord s i) 55 48 == off) then (s, false)
  else match (List.range 32).find? (fun i => fld (leapWord s i) 57 56 == 0) with
  | some i =>
    (logFree 0x0A 0x04 i (sec + off * 2 ^ 48)
      (setReg (leapAt i) (wd (sec % 2 ^ 48 + off % 2 ^ 8 * 2 ^ 48 + src * 2 ^ 56)) s), false)
  | none => (s, false)

/-- The entry for the end of the current UTC day, one second added or removed. -/
def leapAtDayEnd (src : Nat) (add : Bool) (s : State) : State × Bool :=
  let sec := time16 s / g16
  let off := utcOffset s sec
  let new := if add then off + 1 else off - 1
  leapLearn src ((utcSeconds s sec / 86400 + 1) * 86400 + (new : Int)).toNat new s

/-! IRIG-B (R413). -/

def isLeapYear (y : Nat) : Bool := y % 4 == 0 && (y % 100 != 0 || y % 400 == 0)

/-- Leap days up to the end of a year. -/
def leapsTo (y : Nat) : Nat := y / 4 - y / 100 + y / 400

/-- The year of the epoch of UTC seconds. -/
def epochYear : Nat := 1970

/-- Days from 1970-01-01 to the first of January of a year. -/
def daysToYear (y : Nat) : Nat := 365 * (y - epochYear) + (leapsTo (y - 1) - leapsTo (epochYear - 1))

/-- The year that holds a day since 1970-01-01; `k` bounds the search from year `y`. -/
def yearOfDay (d : Nat) : Nat → Nat → Nat
  | 0, y => y
  | k + 1, y => if d < daysToYear (y + 1) then y else yearOfDay d k (y + 1)

/-- The year of a UTC second, of the first seconds of TAI too. -/
def yearAt (utc : Int) : Nat :=
  if utc < 0 then epochYear - 1
  else
    let d := utc.toNat / 86400
    yearOfDay d (d / 365 + 1) epochYear

/-- The TAI second of a UTC second; with `sixty` it is an inserted second. -/
def taiOfUtc (s : State) (utc : Nat) (sixty : Bool) : Nat :=
  let o := utcOffset s (utc + 255)
  let t := if utcOffset s (utc + o) = o then utc + o else utc + utcOffset s (utc + o)
  if sixty then t - 1 else t

/-- A format that carries the BCD year: B004 to B007. -/
def irigHasYear (code : Nat) : Bool := decide (4 ≤ code)

/-- The year of a frame (R413): from the BCD field, else from the extension, else that of the timebase when its
seconds are known. -/
def irigYear (s : State) (f : IrigFrame) : Option Nat :=
  if irigHasYear f.code then some (2000 + f.year % 100)
  else if bit (reg s irigBlock) 4 then some (2000 + f.xyear % 100)
  else if s.time.state = 0 then none
  else
    some (yearAt (utcSeconds s (time16 s / g16)))

/-- The TAI second that a frame names; without the extension no local offset is decoded (R413; DEDUCED, log entry 95). -/
def irigTai (s : State) (f : IrigFrame) : Option Nat :=
  (irigYear s f).map (fun y =>
    let utc : Int := ((daysToYear y + (f.day - 1)) * 86400 + f.sod : Nat)
    let utc := if bit (reg s irigBlock) 5 && bit (reg s irigBlock) 4 then utc - f.offset * 60 else utc
    taiOfUtc s utc.toNat (decide (86400 ≤ f.sod)))

/-- An IRIG-B frame decoded (R405, R413). -/
def irigReceive (f : IrigFrame) (s : State) : State :=
  let w := reg s irigBlock
  let ext := bit w 4
  if !bit w 0 then s
  else if f.code ≠ fld w 3 1 ∨ (ext ∧ !f.parity) then
    sourcesFollow (bumpReg (irigBlock + 0x38) 32 { s with irig := { s.irig with good := 0 } })
  else
    let s := bumpReg (irigBlock + 0x38) 0 s
    let s := if ext then setRegF (irigBlock + 0x30) 7 4 f.quality s else s
    match irigTai s f with
    | none => sourcesFollow { s with irig := { good := 0, last := none, seen := s.time.dur } }
    | some tai =>
      let ok := !ext || decide (f.quality ≤ fld w 11 8)
      let next := s.irig.last == some ((tai : Int) - 1)
      let g := if !ok then 0 else if next then s.irig.good + 1 else 1
      let s := { s with irig := { good := g, last := some (tai : Int), seen := s.time.dur } }
      let s := sourcesFollow s
      let idly : Int := (BitVec.ofNat 32 (regF s (irigBlock + 8) 31 0)).toInt * 2 ^ 16
      let off : Int := ((tai * g16 : Nat) : Int) - ((f.stamp : Int) - idly)
      let s := if irigValid s then sourcesFollow (measureFrom 2 off s) else s
      match ext, f.leap with
      | true, some add =>
        match leapAtDayEnd 3 add s with
        | (s, true) => bumpReg (irigBlock + 0x38) 32 s
        | (s, false) => s
      | _, _ => s

/-! 1PPS (R415). -/

/-- The distance of a time from the nearest multiple of a second, in the units given. -/
def fromSecond (t : Int) (sec : Nat) : Int := roundDiv t sec * (sec : Int) - t

/-- The last edge used, while the next second has not passed without an edge: then it serves no more (R415; DEDUCED, log
entry 95). -/
def ppsRef (s : State) (at_ : Nat) : Option Nat :=
  match s.pps.last with
  | some l => if at_ ≤ l + tSec + 100 * tUs then some l else none
  | none => none

/-- An edge of the 1PPS input, stamped; one that is rejected is not used at all (R415). -/
def ppsEdge (stamp : Nat) (rising : Bool) (s : State) : State :=
  let w := reg s (irigBlock + 0x18)
  if !bit w 0 || rising == bit w 1 then s
  else
    let t : Int := (stamp : Int) - irigSigned s 0x18 63 32
    let at_ : Nat := stampDur s stamp
    let gap : Option Int := (ppsRef s at_).map (fun l => ((at_ : Int) - (l : Int)))
    let off := fromSecond t g16
    let bad := if tlock s then decide (100000 * 2 ^ 16 < off.natAbs)
      else match gap with
        | some d => decide (100 * tUs < (fromSecond d tSec).natAbs)
        | none => false
    if bad then sourcesFollow (bumpReg (irigBlock + 0x40) 32 s)
    else
      let g := match gap with
        | some d => if (d - (tSec : Int)).natAbs ≤ 100 * tUs then s.pps.good + 1 else 1
        | none => 1
      let s := bumpReg (irigBlock + 0x40) 0 { s with pps := { good := g, last := some at_ } }
      let s := sourcesFollow s
      if ppsValid s then measureFrom 3 off s else s

/-! Outputs (R414, R415). -/

/-- The leap second pending in the last minute before an entry of the table. -/
def leapPending (s : State) (sec : Nat) : Option Bool :=
  let l := (List.range 60).filterMap (fun i =>
    let a := utcOffset s (sec + i)
    let b := utcOffset s (sec + i + 1)
    if (leapAtSec s (sec + i + 1)) == (leapAtSec s (sec + i)) ∨ a = b then none else some (decide (a < b)))
  l.head?

/-- The extension of a second's frame (R414). -/
def irigExt (s : State) (code sec : Nat) : IrigExt :=
  let q := if tlock s then 0 else 0xF
  let leap := leapPending s sec
  { year := yearAt (utcSeconds s sec), leap := leap, offset := 0, quality := q,
    parity := Config.irigParity code (utcSeconds s sec) (match leap with | none => 0 | some a => 1 + b2n a) q }

/-- The IRIG-B output's frame of a second. -/
def irigOutput (s : State) : State :=
  let w := reg s (irigBlock + 0x10)
  let sec := time16 s / g16
  if !bit w 0 || !inService s || s.outs.irig == some sec then s
  else
    let ext := if bit w 4 then some (irigExt s (fld w 3 1) sec) else none
    { s with outs := { s.outs with irig := some sec }, tx := .irig (fld w 3 1) (utcSeconds s sec) ext :: s.tx }

/-- The 1PPS output rises at each second plus pooff, and falls pwid later. -/
def ppsOutput (rise : Bool) (s : State) : State :=
  let w := reg s (irigBlock + 0x20)
  let n := ppsSecond s
  if rise then
    if !bit w 0 || !inService s || s.outs.pps == some n || s.outs.fall.isSome then s
    else
      let fall := s.time.dur + fld w 63 32 * tUs
      { s with outs := { s.outs with pps := some n, fall := some fall }, tx := .pps (!bit w 1) :: s.tx }
  else match s.outs.fall with
  | none => s
  | some t =>
    if t ≤ s.time.dur then { s with outs := { s.outs with fall := none }, tx := .pps (bit w 1) :: s.tx } else s

/-- A field of the IRIG-B and 1PPS block outside its range. -/
def irigRefused (off : Nat) (v : W) : Bool :=
  match off with
  | 0x20 => fld v 63 32 == 0 || decide (500000 < fld v 63 32)
  | 0x28 => decide (500000000 ≤ (BitVec.ofNat 32 (fld v 31 0)).toInt.natAbs)
  | _ => false

/-- A write of the IRIG-B and 1PPS block: the state, and whether it was refused. -/
def irigWrite (off : Nat) (v : W) (s : State) : State × Bool :=
  let a := irigBlock + off
  if irigRefused off v then (s, true)
  else match off with
  | 0x00 => (sourcesFollow (setReg a (wd (fld v 5 0 + fld v 11 8 * 2 ^ 8)) s), false)
  | 0x08 => (setReg a (wd (fld v 31 0)) s, false)
  | 0x10 => (setReg a (wd (fld v 4 0)) s, false)
  | 0x18 => (sourcesFollow (setReg a (wd (fld v 1 0 + fld v 63 32 * 2 ^ 32)) s), false)
  | 0x20 => (setReg a (wd (fld v 1 0 + fld v 63 32 * 2 ^ 32)) s, false)
  | 0x28 => (setReg a (wd (fld v 31 0)) s, false)
  | _ => (s, false)

end Sys2Proof.Machine
end

