-- ==== Sys2Proof/Machine/Ptp.lean ====
section
/-! DEFINITION. PTP (R406 to R411): the messages of IEEE 1588 as the profiles of R406 use them, the ports, the
transparent clock, and what a master sends. The message layouts are those of the standard. -/

namespace Sys2Proof.Machine

/-! Messages. -/

/-- The fields of a message's header (IEEE 1588). `body` is the whole message. -/
structure PtpMsg where
  kind   : Nat
  flags  : Nat
  corr   : Int
  sender : List Byte
  seq    : Nat
  body   : List Byte
  deriving DecidableEq, Repr

/-- The least length of a message of a kind: Sync, Pdelay_Req, Pdelay_Resp, Follow_Up, Pdelay_Resp_Follow_Up,
Announce, Signaling, Management. -/
def ptpLen (kind : Nat) : Option Nat :=
  match kind with
  | 0x0 => some 44 | 0x2 => some 54 | 0x3 => some 54 | 0x8 => some 44 | 0xA => some 54 | 0xB => some 64
  | 0xC => some 44 | 0xD => some 48 | _ => none

/-- A message accepted under R406: version 2 with minor version 0 or 1, domain 0, the peer delay mechanism. -/
def ptpParse (b : List Byte) : Option PtpMsg :=
  let b0 := leNat (slice b 0 1)
  let b1 := leNat (slice b 1 1)
  let n := beNat (slice b 2 2)
  match ptpLen (b0 % 16) with
  | none => none
  | some m =>
    if b1 % 16 = 2 ∧ b1 / 16 ≤ 1 ∧ leNat (slice b 4 1) = 0 ∧ m ≤ n ∧ n ≤ b.length then
      some { kind := b0 % 16, flags := beNat (slice b 6 2), corr := (BitVec.ofNat 64 (beNat (slice b 8 8))).toInt,
             sender := slice b 20 10, seq := beNat (slice b 30 2), body := b.take n }
    else none

/-- A PTP timestamp of 10 octets, in units of 2^-16 ns. -/
def ptpTime (b : List Byte) : Nat := (beNat (slice b 0 6) * 1000000000 + beNat (slice b 6 4)) * 2 ^ 16

/-- The 10 octets of a time. -/
def ptpTimeBytes (t : Nat) : List Byte := beBytes 6 (t / g16) ++ beBytes 4 (t % g16 / 2 ^ 16)

/-- The module's clockIdentity (R407). -/
def clockId : List Byte :=
  let m := leBytes 6 (laneMac 0).toNat
  m.take 3 ++ beBytes 2 0xFFFE ++ m.drop 3

/-- A port's sourcePortIdentity. -/
def portId (n : Nat) : List Byte := clockId ++ beBytes 2 (n + 1)

/-- A header: control field and the interval's logarithm by kind. -/
def ptpHeader (s : State) (n kind len flags : Nat) (corr : Int) (seq : Nat) : List Byte :=
  let minor := b2n (bit (reg s (ptpBase n)) 5)
  let ctl := match kind with | 0x0 => 0 | 0x8 => 2 | _ => 5
  let log := match kind with | 0x0 => 0 | 0x8 => 0 | 0xB => 0 | _ => 0x7F
  beBytes 1 kind ++ beBytes 1 (minor * 16 + 2) ++ beBytes 2 len ++ beBytes 2 0 ++ beBytes 2 flags
    ++ beBytes 8 (BitVec.ofInt 64 corr).toNat ++ beBytes 4 0 ++ portId n ++ beBytes 2 seq ++ beBytes 1 ctl
    ++ beBytes 1 log

/-- A message sent from a port: to the peer-delay address or the general one, with the tag that vtag asks for, and
on an HSR pair with the HSR tag, on both lanes unless it is a peer-delay message (R406, R409, R410). -/
def ptpOut (n : Nat) (m : List Byte) (s : State) : State :=
  let w := reg s (ptpBase n)
  let kind := leNat (slice m 0 1) % 16
  let peer := kind = 0x2 ∨ kind = 0x3 ∨ kind = 0xA
  let dst := if peer then beBytes 6 0x0180C200000E else beBytes 6 0x011B19000000
  let hsr := pairMode s (n / 2) = 2
  let mac := laneMac (if hsr then n / 2 * 2 else n)
  let tag := if bit w 7 then beBytes 2 0x8100 ++ beBytes 2 (fld w 22 20 * 2 ^ 13 + fld w 19 8) else []
  let b := padTo 60 (dst ++ leBytes 6 mac.toNat ++ tag ++ beBytes 2 0x88F7 ++ m)
  if hsr && decide peer then
    let seq := tblGet 0 s.pairSeq (n / 2)
    sendFrame n (pairFrame 2 (n % 2) seq b) { s with pairSeq := tblSet (n / 2) ((seq + 1) % 2 ^ 16) s.pairSeq }
  else if hsr then
    let seq := tblGet 0 s.pairSeq (n / 2)
    let s := { s with pairSeq := tblSet (n / 2) ((seq + 1) % 2 ^ 16) s.pairSeq }
    sendFrame (n / 2 * 2 + 1) (pairFrame 2 1 seq b) (sendFrame (n / 2 * 2) (pairFrame 2 0 seq b) s)
  else sendFrame n b s

/-- The next sequence number of a kind of message on a port. -/
def ptpSeq (n kind : Nat) (s : State) : Nat × State :=
  let x := ptpOf s n
  let q := tblGet 0 x.seqs kind
  (q, setPtp n { x with seqs := tblSet kind ((q + 1) % 2 ^ 16) x.seqs } s)

def ptpErr (n : Nat) (s : State) : State := bumpReg (ptpBase n + 0x20) 32 s

/-! Port states (R407). -/

/-- A port that takes part in the BMCA. -/
def ptpPlain (s : State) (n : Nat) : Bool := decide (1 ≤ ptpRole s n) && decide (ptpRole s n ≤ 3)

/-- The grandmaster attributes of the module: clockClass, clockAccuracy, timeSource (R408). -/
def gmAttr (s : State) : Nat × Nat × Nat :=
  let src := asrc s
  let last := s.time.lastSrc
  let free := fun (_ : Unit) =>
    let v := (Config.gmAttr s.time.state last).toNat
    (v / 2 ^ 16, v / 2 ^ 8 % 2 ^ 8, v % 2 ^ 8)
  match s.time.state with
  | 0 => (248, 0xFE, if src = 4 then 0x60 else 0xA0)
  | 2 => if src = 2 ∨ src = 3 then (6, 0x21, 0x90) else free ()
  | 3 => if s.time.expired then (187, 0xFE, 0xA0)
         else if last = 2 ∨ last = 3 then (7, 0x21, 0x90) else free ()
  | _ => free ()

/-! The best master clock algorithm (R407): one for the clock, over the Announce messages of every port. The spec names
it by IEEE 1588 (PRESUMED, log entry 97). -/

/-- An Announce message as a port received it. -/
structure PtpCand where
  port : Nat
  msg  : List Byte
  deriving DecidableEq, Repr

/-- priority1, class, accuracy, variance, priority2 and identity of the grandmaster, as one number to compare. -/
def candKey (c : PtpCand) : Nat := beNat (slice c.msg 47 14)
def candGm (c : PtpCand) : List Byte := slice c.msg 53 8
def candSteps (c : PtpCand) : Nat := beNat (slice c.msg 61 2)
def candSender (c : PtpCand) : Nat := beNat (slice c.msg 20 8)

/-- `a` is better than `b`, and whether by topology alone. Under one grandmaster fewer steps win; with as many, the lower
sender and then the lower receiving port. -/
def ptpBetter (a b : PtpCand) : Bool × Bool :=
  let me := beNat clockId
  if candGm a ≠ candGm b then (decide (candKey a < candKey b), false)
  else if candSteps a + 1 < candSteps b then (true, false)
  else if candSteps b + 1 < candSteps a then (false, false)
  else if candSteps a < candSteps b then (true, decide (candSender b < me))
  else if candSteps b < candSteps a then (false, false)
  else if candSender a ≠ candSender b then (decide (candSender a < candSender b), true)
  else (decide (a.port < b.port), true)

/-- The best of several. -/
def ptpBest : List PtpCand → Option PtpCand
  | [] => none
  | c :: l => match ptpBest l with
    | some d => if (ptpBetter d c).1 then some d else some c
    | none => some c

/-- The best Announce that a port has received. -/
def portBest (s : State) (n : Nat) : Option PtpCand := ptpBest ((ptpOf s n).anns.map (fun a => ⟨n, a.1⟩))

/-- The best of the clock: a master-only port contributes none. -/
def clockBest (s : State) : Option PtpCand :=
  ptpBest (((List.range 16).filter (fun n => ptpPlain s n && ptpRole s n != 3)).filterMap (portBest s))

/-- The SLAVE port, and the last Announce of its master. -/
def slavePort (s : State) : Option Nat := (List.range 16).find? (fun n => ptpPlain s n && pstate s n == 9)
def masterAnn (s : State) : Option (List Byte) := (slavePort s).bind (fun n => (portBest s n).map (fun c => c.msg))

/-- The module's own attributes as they enter a comparison: priority1, class, accuracy, variance, priority2,
identity. A clock that follows PTP compares with the attributes of a free-running one (PRESUMED, log entry 97). -/
def ownAttr (s : State) (n : Nat) : List Byte :=
  let a := if asrc s = 1 then (248, 0xFE, 0xA0) else gmAttr s
  let cls := if ptpRole s n = 1 then 255 else a.1
  let w := reg s (partTime + 0x70)
  beBytes 1 (fld w 7 0) ++ beBytes 1 cls ++ beBytes 1 a.2.1 ++ beBytes 2 (if tlock s then 0x4E5D else 0xFFFF)
    ++ beBytes 1 (fld w 15 8) ++ clockId

/-- The clock is slave-only: every port that takes part has role 1 (R407; DEDUCED, log entry 97). -/
def slaveOnly (s : State) : Bool := (List.range 16).all (fun n => !ptpPlain s n || ptpRole s n == 1)

/-- The state that the algorithm gives a port: 4 LISTENING, 6 MASTER, 7 PASSIVE, 9 SLAVE. -/
def ptpAdvice (s : State) (ebest : Option PtpCand) (n : Nat) : Nat :=
  let own := ownAttr s n
  let mine := portBest s n
  if mine.isNone ∧ (pstate s n = 1 ∨ pstate s n = 4) ∧ !(ptpOf s n).out then 4
  else if 1 ≤ beNat (slice own 1 1) ∧ beNat (slice own 1 1) ≤ 127 then
    match mine with
    | some c => if candKey c < beNat own then 7 else 6
    | none => 6
  else match ebest with
  | none => 6
  | some e =>
    if beNat own < candKey e then 6
    else if e.port = n then 9
    else match mine with
    | some c => if (ptpBetter e c).1 && (ptpBetter e c).2 then 7 else 6
    | none => 6

/-- A decided state that a port's role allows: a slave-only port is never MASTER, a master-only port always, unless the
clock is slave-only. -/
def roleState (s : State) (role k : Nat) : Nat :=
  if role = 3 then (if slaveOnly s then 4 else 6)
  else if k = 6 ∧ role = 1 then 4
  else k

/-- A sync interval has passed without a Sync of the port's master (R410; DESIGN CHOICE, log entry 97). -/
def syncStale (s : State) (n : Nat) : Bool :=
  match (ptpOf s n).syncAt with
  | some t => decide (t + tSec < s.time.dur)
  | none => false

def syncFresh (s : State) (n : Nat) : Bool := (ptpOf s n).syncAt.isSome && !syncStale s n

/-- The port of a PRP pair that shares its LANs' masters with `n`, when both have role 1 or 2. -/
def prpTwin (s : State) (n : Nat) : Option Nat :=
  let m := if n % 2 = 0 then n + 1 else n - 1
  if pairMode s (n / 2) = 1 ∧ (ptpRole s n = 1 ∨ ptpRole s n = 2) ∧ (ptpRole s m = 1 ∨ ptpRole s m = 2) then some m
  else none

/-- The PASSIVE port of a PRP pair whose SLAVE port has lost Sync takes over (R410). -/
def prpTakes (s : State) (n : Nat) : Bool :=
  pstate s n == 7 && syncFresh s n && (match prpTwin s n with
    | some m => pstate s m == 9 && syncStale s m
    | none => false)

/-- The roles within every PRP pair after a decision: beside a SLAVE port the other is PASSIVE, whatever its LAN's master
(R410). -/
def prpSettle (s : State) : State :=
  let s := (List.range 16).foldl (fun s n =>
    match prpTwin s n with
    | some m => if pstate s m = 9 ∧ (pstate s n = 4 ∨ pstate s n = 6) then setRegF (ptpBase n + 0x10) 3 0 7 s else s
    | none => s) s
  match (List.range 16).find? (prpTakes s) with
  | some n =>
    let m := if n % 2 = 0 then n + 1 else n - 1
    setRegF (ptpBase n + 0x10) 3 0 9 (setRegF (ptpBase m + 0x10) 3 0 7 s)
  | none => s

/-- A new SLAVE port takes over with the offset that it has measured (R410). -/
def slaveTakes (before : Option Nat) (s : State) : State :=
  match slavePort s with
  | some n =>
    (match (ptpOf s n).off with
     | some o => if before = some n then s else { s with time := { s.time with soff := tblSet 1 o s.time.soff } }
     | none => s)
  | none => s

/-- The BMCA decides the state of every port that takes part in it. -/
def ptpDecide (s : State) : State :=
  let e := clockBest s
  let t := (List.range 16).foldl (fun t n =>
    if ptpPlain s n then
      setRegF (ptpBase n + 0x10) 3 0 (roleState s (ptpRole s n) (ptpAdvice s e n)) t
    else t) s
  sourcesFollow (slaveTakes (slavePort s) (prpSettle t))

/-- No Announce for three intervals: the messages of that age are forgotten and the states are decided again (R406). -/
def announceTimeout (n : Nat) (s : State) : State :=
  let x := ptpOf s n
  if n < 16 ∧ ptpPlain s n ∧ pstate s n ≠ 6 ∧ x.annAt + 3 * tSec ≤ s.time.dur then
    ptpDecide (setPtp n { x with
      anns := x.anns.filter (fun a => decide (s.time.dur < a.2 + 3 * tSec)), annAt := s.time.dur, out := true } s)
  else s

/-- A port word's write (R406, R407, R411): the state, and whether it was refused. An accepted write of role or
prof (`again`) returns the port to INITIALIZING. -/
def ptpPut (again : Bool) (n off : Nat) (v : W) (s : State) : State × Bool :=
  let a := ptpBase n
  if off = 0 then
    if 5 ≤ fld v 2 0 ∨ fld v 4 3 = 3 ∨ (fld v 4 3 = 1 ∧ !bit v 7) then (s, true)
    else
      let s := setReg a (wd (fld v 22 0)) s
      if !again then (s, false)
      else
        let s := setPtp n { annAt := s.time.dur, seqs := (ptpOf s n).seqs } s
        (sourcesFollow (setRegF (a + 0x10) 3 0 1 s), false)
  else if off = 8 then (setRegF (a + 8) 31 0 (fld v 31 0) s, false)
  else (s, false)

/-- A write of a whole port word, role and prof among its fields. -/
def ptpWrite (n off : Nat) (v : W) (s : State) : State × Bool := ptpPut true n off v s

/-! Reception. -/

/-- asym of a port in units of 2^-16 ns. -/
def ptpAsym (s : State) (n : Nat) : Int := (BitVec.ofNat 32 (regF s (ptpBase n + 8) 31 0)).toInt * 2 ^ 16

/-- An offset measured at a port (R410, R411): the SLAVE port's is the source's, and the PASSIVE port keeps its own. -/
def ptpOffset (n : Nat) (origin : Nat) (corr : Int) (stamp : Nat) (s : State) : State :=
  let x := ptpOf s n
  let off : Int := (origin : Int) + corr + x.link + ptpAsym s n - (stamp : Int)
  if pstate s n = 9 ∨ pstate s n = 7 then
    let s := setPtp n { x with off := some off } s
    let s := if prpTakes s n then ptpDecide s else s
    if pstate s n = 9 then measureFrom 1 off (sourcesFollow s) else s
  else s

/-- The flags of the selected master's Announce (R418): leap seconds and the offset in force. -/
def ptpLeap (n flags utc : Nat) (s : State) : State :=
  let use := fun (z : State × Bool) => if z.2 then ptpErr n z.1 else z.1
  let sec := time16 s / g16
  if flags.testBit 0 then use (leapAtDayEnd 2 true s)
  else if flags.testBit 1 then use (leapAtDayEnd 2 false s)
  else if flags.testBit 2 && utc != utcOffset s sec then use (leapLearn 2 sec utc s)
  else s

/-- The sender is the port's master: that of its best Announce. -/
def fromMaster (s : State) (n : Nat) (m : PtpMsg) : Bool :=
  match portBest s n with
  | some c => slice c.msg 20 10 == m.sender
  | none => false

/-- An Announce message: kept as its sender's last, and the states decided again. The receipt timer starts anew with one
of the port's master. -/
def ptpAnnounce (n : Nat) (m : PtpMsg) (s : State) : State :=
  let s := bumpReg (ptpBase n + 0x18) 32 s
  let x := ptpOf s n
  let l := (m.body, s.time.dur) :: x.anns.filter (fun a => slice a.1 20 10 != m.sender)
  let s := setPtp n { x with anns := l, out := false } s
  let s := ptpDecide (if fromMaster s n m then setPtp n { ptpOf s n with annAt := s.time.dur } s else s)
  if pstate s n = 9 ∧ fromMaster s n m = true then ptpLeap n m.flags (beNat (slice m.body 44 2)) s else s

/-- A Sync message: one-step, or waiting for its Follow_Up. -/
def ptpSync (n stamp : Nat) (m : PtpMsg) (s : State) : State :=
  let s := bumpReg (ptpBase n + 0x18) 0 s
  if !fromMaster s n m then s
  else
  let s := setPtp n { ptpOf s n with syncAt := some s.time.dur } s
  if m.flags.testBit 9 then
    sourcesFollow
      (setPtp n { ptpOf s n with sync := some { sender := m.sender, seq := m.seq, stamp := stamp, corr := m.corr } } s)
  else ptpOffset n (ptpTime (slice m.body 34 10)) m.corr stamp s

/-- A Follow_Up message. -/
def ptpFollowUp (n : Nat) (m : PtpMsg) (s : State) : State :=
  let x := ptpOf s n
  match x.sync with
  | some y =>
    if y.sender = m.sender ∧ y.seq = m.seq then
      ptpOffset n (ptpTime (slice m.body 34 10)) (y.corr + m.corr) y.stamp (setPtp n { x with sync := none } s)
    else s
  | none => s

/-- A peer's delay request is answered: Pdelay_Resp with the time of reception, then its Follow_Up. -/
def ptpPdelayReq (n stamp : Nat) (m : PtpMsg) (s : State) : State :=
  let resp := ptpHeader s n 0x3 54 0x200 0 m.seq ++ ptpTimeBytes stamp ++ m.sender
  let s := ptpOut n resp s
  let fu := ptpHeader s n 0xA 54 0 m.corr m.seq ++ ptpTimeBytes (time16 s) ++ m.sender
  ptpOut n fu s

/-- An exchange completed: the mean link delay (R407, R411). -/
def ptpLink (n : Nat) (t1 t2 t3 t4 : Nat) (corr : Int) (s : State) : State :=
  let d : Int := (((t4 : Int) - (t1 : Int)) - ((t3 : Int) - (t2 : Int)) - corr) / 2
  let s := setPtp n { ptpOf s n with pd := none, link := d } s
  let s := setRegF (ptpBase n + 8) 63 32 (BitVec.ofInt 32 (d / 2 ^ 16)).toNat s
  bumpReg (ptpBase n + 0x20) 0 s

/-- A response to the port's own request. -/
def ptpPdelayResp (n stamp : Nat) (m : PtpMsg) (s : State) : State :=
  match (ptpOf s n).pd with
  | some p =>
    if p.seq = m.seq ∧ slice m.body 44 10 = portId n then
      let t2 := ptpTime (slice m.body 34 10)
      if m.flags.testBit 9 then
        setPtp n { ptpOf s n with pd := some { p with resp := some (t2, stamp, m.corr) } } s
      else ptpLink n p.t1 t2 t2 stamp m.corr s
    else s
  | none => s

/-- The Follow_Up of a response. -/
def ptpPdelayFu (n : Nat) (m : PtpMsg) (s : State) : State :=
  match (ptpOf s n).pd with
  | some p =>
    match p.resp with
    | some (t2, t4, corr) =>
      if p.seq = m.seq ∧ slice m.body 44 10 = portId n then
        ptpLink n p.t1 t2 (ptpTime (slice m.body 34 10)) t4 (corr + m.corr) s
      else s
    | none => s
  | none => s

/-! The transparent clock (R409). -/

/-- A message with an amount added to its correctionField. -/
def addCorr (b : List Byte) (d : Int) : List Byte :=
  let c := (BitVec.ofNat 64 (beNat (slice b 8 8))).toInt + d
  b.take 8 ++ beBytes 8 (BitVec.ofInt 64 c).toNat ++ b.drop 16

/-- The C37.238 TLVs of an Announce message with 50 ns added to the network or total inaccuracy; `k` bounds the
number of TLVs. -/
def addInaccuracy : Nat → List Byte → List Byte
  | 0, b => b
  | k + 1, b =>
    let n := 4 + beNat (slice b 2 2)
    if b.length < 4 ∨ b.length < n then b
    else
      let t := b.take n
      let t := if beNat (slice t 0 2) = 3 ∧ beNat (slice t 4 3) = 0x1C129D ∧ 20 ≤ n then
          t.take 16 ++ beBytes 4 (beNat (slice t 16 4) + 50) ++ t.drop 20
        else t
      t ++ addInaccuracy k (b.drop n)

/-- A message as a transparent port forwards it, received at `stamp` on port `n`: under C37.238 with its inaccuracy
(R409). -/
def ptpForwarded (s : State) (n stamp : Nat) (m : PtpMsg) : List Byte :=
  if m.kind = 0 ∨ m.kind = 8 then
    addCorr m.body ((time16 s : Int) - (stamp : Int) + (ptpOf s n).link + ptpAsym s n)
  else if m.kind = 0xB ∧ regF s (ptpBase n) 4 3 ≠ 0 then m.body.take 64 ++ addInaccuracy 8 (m.body.drop 64)
  else m.body

/-- A message forwarded to every other transparent port: the frame's header, tag included, as received. -/
def ptpForward (n stamp : Nat) (head : List Byte) (m : PtpMsg) (s : State) : State :=
  if m.kind = 2 ∨ m.kind = 3 ∨ m.kind = 0xA then s
  else
    let b := padTo 60 (head ++ ptpForwarded s n stamp m)
    (List.range 16).foldl (fun s k => if k ≠ n ∧ ptpRole s k = 4 then sendFrame k b s else s) s

/-- Sync and Announce messages received are counted, by a transparent port too (R411). -/
def ptpHeard (n k : Nat) (s : State) : State :=
  if k = 0 then bumpReg (ptpBase n + 0x18) 0 s else if k = 0xB then bumpReg (ptpBase n + 0x18) 32 s else s

/-- What a port does with a message (R406, R407, R409). -/
def ptpHandle (n stamp : Nat) (head : List Byte) (m : PtpMsg) (s : State) : State :=
  let role := ptpRole s n
  if role = 0 then ptpErr n s
  else match m.kind with
  | 0x2 => ptpPdelayReq n stamp m s
  | 0x3 => ptpPdelayResp n stamp m s
  | 0xA => ptpPdelayFu n m s
  | k =>
    if role = 4 then ptpForward n stamp head m (ptpHeard n k s)
    else match k with
    | 0x0 => ptpSync n stamp m s
    | 0x8 => ptpFollowUp n m s
    | 0xB => ptpAnnounce n m s
    | _ => s

/-- A frame of the ring is forwarded with its correction, unless it has been seen or is the module's own; peer-delay
messages are for the lane's own port, and never forwarded (R328, R409, R410). The local port takes the first copy, with the
link delay and asymmetry of the lane it came by (R411). -/
def ptpRing (n stamp : Nat) (raw head : List Byte) (m : PtpMsg) (s : State) : State :=
  let p := n / 2 * 2
  let other := if n % 2 = 0 then n + 1 else n - 1
  let own := (laneMac p).toNat
  let key := m.sender ++ beBytes 1 m.kind ++ beBytes 2 m.seq
  let x := ptpOf s p
  if m.kind = 2 ∨ m.kind = 3 ∨ m.kind = 0xA then ptpHandle n stamp head m s
  else if x.seen.contains key || macAt raw 6 == own then s
  else
    let s := setPtp p { x with seen := (key :: x.seen).take 64 } s
    let s := sendCounted (n / 2) 9 other (padTo 60 (head ++ ptpForwarded s n stamp m)) s
    let link := fun (k : Nat) => (ptpOf s k).link + ptpAsym s k
    ptpHandle p stamp head (if m.kind = 0 then { m with corr := m.corr + (link n - link p) } else m) s

/-- A frame with the PTP EtherType: the whole frame, the part before the message, and the message (R410). -/
def ptpReceive (lane stamp : Nat) (raw head b : List Byte) (s : State) : State :=
  match ptpParse b with
  | none => ptpErr lane s
  | some m =>
    if pairMode s (lane / 2) = 2 ∧ etherAt raw 12 = 0x892F then ptpRing lane stamp raw head m s
    else ptpHandle lane stamp head m s

/-! Transmission (R406, R408). -/

/-- The C37.238 TLV among the TLVs of an Announce message; `k` bounds their number. -/
def findTlv : Nat → List Byte → Option (List Byte)
  | 0, _ => none
  | k + 1, b =>
    let n := 4 + beNat (slice b 2 2)
    if b.length < 4 ∨ b.length < n then none
    else if beNat (slice b 0 2) = 3 ∧ beNat (slice b 4 3) = 0x1C129D ∧ 20 ≤ n then some (b.take n)
    else findTlv k (b.drop n)

/-- What a TLV of profile `prof` carries: the grandmaster ID and two words of inaccuracy, the module's own while it is
grandmaster, and those of its master otherwise; what its master does not send is a free value (R408; log entry 97). -/
def tlvFields (s : State) (n prof : Nat) : List Byte × List Byte × List Byte :=
  let free := Config.noTlv n
  if asrc s ≠ 1 then (beBytes 2 (regF s (partTime + 0x70) 31 16), beBytes 4 50, beBytes 4 50)
  else match findTlv 8 (((masterAnn s).getD []).drop 64) with
  | some t =>
    if beNat (slice t 7 3) = prof then (slice t 10 2, slice t 12 4, slice t 16 4)
    else (slice t 10 2, slice free 2 4, slice free 6 4)
  | none => (slice free 0 2, slice free 2 4, slice free 6 4)

/-- The C37.238 TLVs of a port's profile. -/
def ptpTlvs (s : State) (n : Nat) : List Byte :=
  let prof := regF s (ptpBase n) 4 3
  let f := tlvFields s n prof
  match prof with
  | 1 => beBytes 2 3 ++ beBytes 2 18 ++ beBytes 3 0x1C129D ++ beBytes 3 1 ++ f.1 ++ f.2.1 ++ f.2.2 ++ beBytes 2 0
  | 2 => beBytes 2 3 ++ beBytes 2 18 ++ beBytes 3 0x1C129D ++ beBytes 3 2 ++ f.1 ++ beBytes 4 0 ++ f.2.2
      ++ beBytes 2 0 ++ Config.altOffset n
  | _ => []

/-- leap61 and leap59 from the start of the UTC day that ends at an entry, and the other flags of an Announce
(R419). -/
def ptpFlags (s : State) : Nat :=
  let sec := time16 s / g16
  let end_ := (utcSeconds s sec / 86400 + 1) * 86400
  let add := (List.range 32).any (fun i =>
    let w := leapWord s i
    fld w 57 56 != 0 && decide (sec < fld w 47 0) && (fld w 47 0 : Int) == end_ + (fld w 55 48 : Nat)
      && fld w 55 48 == utcOffset s sec + 1)
  let del := (List.range 32).any (fun i =>
    let w := leapWord s i
    fld w 57 56 != 0 && decide (sec < fld w 47 0) && (fld w 47 0 : Int) == end_ + (fld w 55 48 : Nat)
      && fld w 55 48 + 1 == utcOffset s sec)
  b2n add + b2n del * 2 + 4 + 8

/-- An Announce message of a port in the MASTER state: under PTP the class, accuracy and time source, and the
grandmaster, are those received from the master; the priorities are the control block's (R408). -/
def announceMsg (s : State) (n seq : Nat) : List Byte :=
  let a := gmAttr s
  let w := reg s (partTime + 0x70)
  let tlv := ptpTlvs s n
  let var := beBytes 2 (if tlock s then 0x4E5D else 0xFFFF)
  let data := match asrc s, masterAnn s with
    | 1, some m => beBytes 1 (fld w 7 0) ++ slice m 48 2 ++ var ++ beBytes 1 (fld w 15 8) ++ slice m 53 8
        ++ beBytes 2 (beNat (slice m 61 2) + 1) ++ slice m 63 1
    | _, _ => beBytes 1 (fld w 7 0) ++ beBytes 1 a.1 ++ beBytes 1 a.2.1 ++ var ++ beBytes 1 (fld w 15 8) ++ clockId
        ++ beBytes 2 0 ++ beBytes 1 a.2.2
  ptpHeader s n 0xB (64 + tlv.length) (ptpFlags s) 0 seq ++ beBytes 10 0
    ++ beBytes 2 (utcOffset s (time16 s / g16)) ++ beBytes 1 0 ++ data ++ tlv

/-- A port sends a message when its interval of 1 s has passed. -/
def ptpTransmit (n : Nat) (kind : PtpSend) (s : State) : State :=
  let code := match kind with | .announce => 0xB | .sync => 0x0 | .pdelayReq => 0x2
  let x := ptpOf s n
  let due := match tblFind x.sent code with
    | some t => decide (t + tSec ≤ s.time.dur)
    | none => true
  let may := match kind with
    | .pdelayReq => ptpRole s n != 0
    | _ => ptpPlain s n && pstate s n == 6
  if 16 ≤ n ∨ !due ∨ !may then s
  else
    let s := setPtp n { x with sent := tblSet code s.time.dur x.sent } s
    match ptpSeq n code s with
    | (q, s) =>
      match kind with
      | .announce => ptpOut n (announceMsg s n q) s
      | .sync =>
        if bit (reg s (ptpBase n)) 6 then
          ptpOut n (ptpHeader s n 0x0 44 0 0 q ++ ptpTimeBytes (time16 s)) s
        else
          let s := ptpOut n (ptpHeader s n 0x0 44 0x200 0 q ++ beBytes 10 0) s
          ptpOut n (ptpHeader s n 0x8 44 0 0 q ++ ptpTimeBytes (time16 s)) s
      | .pdelayReq =>
        let s := setPtp n { ptpOf s n with pd := some { seq := q, t1 := time16 s } } s
        ptpOut n (ptpHeader s n 0x2 54 0 0 q ++ beBytes 20 0) s

end Sys2Proof.Machine
end

