-- ==== Sys2Proof/Machine/Sha.lean ====
section
/-! DEFINITION. The SHA-256 engines of the region hubs (R567). -/

namespace Sys2Proof.Machine

/-- The words of a lane of an engine. -/
def shaLane (e l : Nat) : Nat := 0x60100000 + 0x1000 * e + 0x100 * l

/-- The engines of the hubs, 4 to 15, three to a region; engines 0 to 3 are unmapped. -/
def isEngine (e l : Nat) : Bool := decide (4 ≤ e) && decide (e < 16) && decide (l < 8)

/-- The region whose hub an engine lies in. -/
def engineRegion (e : Nat) : Nat := (e - 4) / 3

def shaBusy (s : State) (e l : Nat) : Bool := bit (reg s (shaLane e l + 0x20)) 0

/-- The state or digest that a lane holds, the first octet in [7:0] of the first word. -/
def shaDig (s : State) (e l : Nat) : List Byte :=
  (List.range 4).flatMap (fun i => leBytes 8 (reg s (shaLane e l + 0x40 + 8 * i)).toNat)

/-- A job starts on the words that stand when go is written (DEDUCED, log 73). -/
def shaStart (e l : Nat) (s : State) : State :=
  let a := shaLane e l
  let j : ShaJob := { src := regF s a 47 0, len := regF s (a + 8) 31 0, mode := regF s (a + 0x10) 2 1,
                      tot := (reg s (a + 0x18)).toNat, dig := shaDig s e l }
  setRegF (a + 0x20) 0 0 1 { s with sha := tblSet (8 * e + l) j s.sha }

/-- A write of a lane's word: go starts a job, and is ignored while one is in progress; every other field is taken. -/
def shaWrite (e l off : Nat) (v : W) (s : State) : State :=
  let a := shaLane e l
  match off with
  | 0x00 => setReg a (wd (fld v 47 0)) s
  | 0x08 => setReg (a + 8) (wd (fld v 31 0)) s
  | 0x10 =>
    let s := setReg (a + 0x10) (wd (fld v 2 1 * 2)) s
    if bit v 0 && !shaBusy s e l then shaStart e l s else s
  | 0x18 => setReg (a + 0x18) v s
  | 0x40 => setReg (a + 0x40) v s
  | 0x48 => setReg (a + 0x48) v s
  | 0x50 => setReg (a + 0x50) v s
  | 0x58 => setReg (a + 0x58) v s
  | _ => s

def setShaDig (e l : Nat) (d : List Byte) (s : State) : State :=
  (List.range 4).foldl (fun s i => setReg (shaLane e l + 0x40 + 8 * i) (wd (leNat (slice d (8 * i) 8))) s) s

/-- The value that a job's data gives, in its mode. -/
def shaJob (mode tot : Nat) (dig data : List Byte) : List Byte :=
  let part := fun (h : List (BitVec 32)) => shaBytes (shaBlocks (data.length / 64) h data)
  match mode with
  | 0 => sha256 data
  | 1 => part shaH0
  | 2 => part (shaOfBytes dig)
  | _ => shaBytes (shaLast (shaOfBytes dig) data tot)

/-- A job ends: 3 for a length that is no multiple of 64 in mode 1 or 2, 1 for a gate denial, 2 for an
uncorrectable error, else 0 with the digest; the engine reads under the ID of its region's hub core. -/
def shaDone (e l : Nat) (r : Ret) (s : State) : State :=
  match tblFind s.sha (8 * e + l) with
  | none => s
  | some j =>
    let init := 0x100 + engineRegion e
    let src := j.src
    let len := j.len
    let fin := fun (res : Nat) (s : State) =>
      setReg (shaLane e l + 0x20) (wd (res * 2)) { s with sha := tblDel (8 * e + l) s.sha }
    if (j.mode = 1 ∨ j.mode = 2) ∧ len % 64 ≠ 0 then fin 3 s
    else if rangeWaits s init src len then s
    else match rangeCheck s init src len .read with
    | some (d, at_) => fin 1 (gateEvent init at_ .read d s)
    | none =>
      let bad := s.caches.poison.any (lineIn src len) && r != .pathFail
      match (if bad then .uncorrectable else r) with
      | .uncorrectable => fin 2 (uncorrectableAt init src s)
      | .pathFail => fin 1 s
      | _ =>
        let s := if r = .corrected then correctedAt init src s else s
        let t := if drawsHost [(src, len)] then bumpFresh s else s
        fin 0 (setShaDig e l (shaJob j.mode j.tot j.dig (physRead s src len)) t)

end Sys2Proof.Machine
end

