-- ==== Sys2Proof/Machine/CtlBase.lean ====
section
/-! DEFINITION. Writes to the control space (R37): what a word does when a write reaches it, but for the words that
act on the whole chip; writes to memory; and how a refused or denied write comes back to its sender. -/

namespace Sys2Proof.Machine

/-- A word of the port part written. -/
def portWrite (bad : Bool) (a : Nat) (v : W) (s : State) : State × Bool :=
  if a < 0x62100000 then (s, false)
  else if a < 0x62200000 then subWrite ((a - 0x62100000) / 128) (a % 128) v s
  else if a < 0x62300000 then (s, false)
  else if a < 0x62310000 then gridCfgWrite ((a - 0x62300000) / 0x1000) (a % 0x1000) v s
  else if a < 0x62400000 then (s, false)
  else if a < 0x62401000 then
    let r := ingWrite (a - ingBase) v s
    if a = ingBase + 0x28 ∧ bit v 0 then (gooseClear r.1, r.2) else r
  else if tripBlock ≤ a ∧ a < tripBlock + 0x1000 then (tripBlockWrite bad (a - tripBlock) v s, false)
  else if 0x62900000 ≤ a ∧ a < 0x62980000 then gsubWrite ((a - 0x62900000) / 256) (a % 256) v s
  else (s, false)

/-- A word of a region hub's part written. -/
def hubWrite (a : Nat) (v : W) (s : State) : State :=
  let r := (a - partRegion) / 0x1000000
  let o := (a - partRegion) % 0x1000000
  if 0xE00000 ≤ o ∧ o < 0xE01000 then qBlockWrite r (o - 0xE00000) v s
  else if 0xF10000 ≤ o ∧ o < 0xF10040 then recWrite (.region r) (o - 0xF10000) v s
  else if o = 0xF11000 then setReg a (wd (fld v 15 0)) s
  else s

/-- A word of the timebase part written. -/
def timePartWrite (a : Nat) (v : W) (s : State) : State × Bool :=
  if a < 0x6A100000 then timeWrite (a - partTime) v s
  else if a < 0x6A110000 then ptpWrite ((a - 0x6A100000) / 0x1000) (a % 0x1000) v s
  else if a < 0x6A200000 then (s, false)
  else if a < 0x6A300000 then irigWrite (a - 0x6A200000) v s
  else if a < 0x6A300100 then (leapWrite ((a - 0x6A300000) / 8) v s, false)
  else if a < 0x6A400000 then (s, false)
  else if a < 0x6A500000 then (binWrite (a - binBlock) v s, false)
  else if a < 0x6A501000 then (toutWrite (a - toutBlock) v s, false)
  else (s, false)

/-- A word of the island's part written: the wake settings (R543, R545) and the chip record. -/
def islandWrite (a : Nat) (v : W) (s : State) : State :=
  if a = pcBase + 0x10 then setReg a (wd (1 + fld v 3 1 * 2)) s
  else if a = pcBase + 0x18 then setReg a (wd (fld v 47 0)) s
  else if recAddr .chip ≤ a ∧ a < recAddr .chip + 0x40 then recWrite .chip (a - recAddr .chip) v s
  else s

/-- A write of a word that has reached it: the state, and whether it was refused. -/
def wordWrite (bad : Bool) (a : Nat) (v : W) (s : State) : State × Bool :=
  match gateAt a with
  | some g => gateWrite g (a - gateBlock g) v s
  | none =>
    match controlPart a with
    | some 0 =>
      if 0x60104000 ≤ a ∧ a < 0x60110000 ∧ a % 0x1000 < 0x800 then
        (shaWrite ((a - 0x60100000) / 0x1000) (a % 0x1000 / 0x100) (a % 0x100) v s, false)
      else (s, false)
    | some 1 => (islandWrite a v s, false)
    | some 2 => portWrite bad a v s
    | some 3 => (hubWrite a v s, false)
    | some 4 =>
      let b := (a - partBlock) / 0x100000
      let o := (a - partBlock) % 0x100000
      if o < 0x1000 then (blockWrite b o v s, false) else regWrite b o v s
    | some 5 => (cellBlockWrite ((a - partCell) / 0x10000) (a % 0x10000) v s, false)
    | some 6 => timePartWrite a v s
    | some 7 =>
      if a = partPcie + 0x10 then (setReg a (wd (fld v 63 38 * 2 ^ 38)) s, false)
      else if a = partPcie + 0x5020 then (setReg a (wd (fld v 0 0)) s, false)
      else (s, false)
    | _ => (s, false)

/-- The answer to a write that was denied or refused goes back to its sender (R264, R270): to a core as a late
store error. -/
def writeAnswer (init reason va : Nat) (s : State) : State :=
  if isCore init then
    let c := cellOf s init
    lseRecord init reason c.run (c.cur.getD 0) false (wd va) s
  else s

/-- A command that reaches the trip unit over a region's port-hub link takes its turn (R372). -/
def tripTakes (init a : Nat) (v : W) (s : State) : State :=
  if a = tripBlock + 0x10 ∧ bit v 31 = true then
    match (initSite init).region with
    | some r => { s with trip := { s.trip with turn := some (s.time.dur, r) } }
    | none => s
  else s

/-- A control-space word written by an initiator: checked at its gate, then written. 0, or the reason of R268. -/
def ctlWriteBy (put : Nat → W → State → State × Bool) (init a : Nat) (v : W) (s : State) : State × Nat :=
  match gateCheck s init a 8 .write with
  | .error d => (writeAnswer init d.reason a (gateEvent init a .write d s), d.reason)
  | .ok _ =>
    match put a v (tripTakes init a v s) with
    | (s, true) => (writeAnswer init 0x0A a s, 0x0A)
    | (s, false) => (s, 0)

/-- An 8-byte write that the instance of a region makes with the hub core's authority (R423), to memory or to the
control space. A hub core out of service makes none (R43). -/
def hubPoke (r a : Nat) (v : W) (s : State) : State :=
  if !initLive s (0x100 + r) then s
  else if reqWaits s (0x100 + r) a then waitUp s
  else if inControl a && !anyWidth a then (ctlWriteBy (wordWrite false) (0x100 + r) a v s).1
  else match gateCheck s (0x100 + r) a 8 .write with
  | .error d => gateEvent (0x100 + r) a .write d s
  | .ok _ => physStore a (leBytes 8 v.toNat) s

end Sys2Proof.Machine
end

