-- ==== Sys2Proof/Machine/Manifest.lean ====
section
/-! DEFINITION. Compartment manifests (R427): their fields, and the checks that a load makes (R429). -/

namespace Sys2Proof.Machine

/-- Bits `[hi:lo]` of the 32-bit word at an offset of a manifest. -/
def mF (m : List Byte) (o hi lo : Nat) : Nat := fld (wd (leNat (slice m o 4))) hi lo

def mCid (m : List Byte) : Nat := mF m 4 9 0
def mTenant (m : List Byte) : Nat := mF m 4 14 10
def mTwin (m : List Byte) : Nat := mF m 4 17 16
def mFpol (m : List Byte) : Nat := mF m 4 19 18
def mCrit (m : List Byte) : Nat := mF m 4 22 20
def mRpin (m : List Byte) : Nat := mF m 4 27 24
def mNthr (m : List Byte) : Nat := mF m 8 6 0
def mNobj (m : List Byte) : Nat := mF m 8 24 16
def mNgr (m : List Byte) : Nat := mF m 0xC 10 0
def mGobj (m : List Byte) : Nat := mF m 0xC 23 16

/-- Offsets of thread record `i`, object record `j` and grant record `k`. -/
def thrAt (i : Nat) : Nat := 0x40 + 32 * i
def objAt (m : List Byte) (j : Nat) : Nat := 0x40 + 32 * mNthr m + 32 * j
def grantAt (m : List Byte) (k : Nat) : Nat := 0x40 + 32 * (mNthr m + mNobj m) + 16 * k

/-- A thread's record. -/
def tPeriod (m : List Byte) (i : Nat) : Nat := mF m (thrAt i) 31 0
def tDline (m : List Byte) (i : Nat) : Nat := mF m (thrAt i + 4) 31 0
def tBudget (m : List Byte) (i : Nat) : Nat := mF m (thrAt i + 8) 31 0
def tGrid (m : List Byte) (i : Nat) : Nat := mF m (thrAt i + 0xC) 3 0
def tGon (m : List Byte) (i : Nat) : Bool := mF m (thrAt i + 0xC) 4 4 == 1
def tPrio (m : List Byte) (i : Nat) : Nat := mF m (thrAt i + 0xC) 11 8
def tDgrp (m : List Byte) (i : Nat) : Nat := mF m (thrAt i + 0xC) 23 12
def tEobj (m : List Byte) (i : Nat) : Nat := mF m (thrAt i + 0x10) 7 0
def tSobj (m : List Byte) (i : Nat) : Nat := mF m (thrAt i + 0x10) 15 8
def tEoff (m : List Byte) (i : Nat) : Nat := mF m (thrAt i + 0x14) 31 0
def tQuant (m : List Byte) (i : Nat) : Nat := leNat (slice m (thrAt i + 0x18) 8)

/-- An object's record. -/
def oPages (m : List Byte) (j : Nat) : Nat := mF m (objAt m j) 31 0
def oBytes (m : List Byte) (j : Nat) : Nat := oPages m j * 0x1000
def oClass (m : List Byte) (j : Nat) : Nat := mF m (objAt m j + 4) 1 0
def oRights (m : List Byte) (j : Nat) : Nat := mF m (objAt m j + 4) 5 2
def oKey (m : List Byte) (j : Nat) : Nat := mF m (objAt m j + 4) 11 6
def oMir (m : List Byte) (j : Nat) : Bool := mF m (objAt m j + 4) 12 12 == 1
def oOwner (m : List Byte) (j : Nat) : Nat := mF m (objAt m j + 4) 21 16
def oIoff (m : List Byte) (j : Nat) : Nat := mF m (objAt m j + 8) 31 0
def oIlen (m : List Byte) (j : Nat) : Nat := mF m (objAt m j + 0xC) 31 0

/-- A grant's record. -/
def gKind (m : List Byte) (k : Nat) : Nat := mF m (grantAt m k) 3 0
def gPerms (m : List Byte) (k : Nat) : Nat := mF m (grantAt m k) 15 4
def gGoff (m : List Byte) (k : Nat) : Nat := mF m (grantAt m k) 31 16
def gRef (m : List Byte) (k : Nat) : Nat := mF m (grantAt m k + 4) 31 0
def gN (m : List Byte) (k : Nat) : Nat := mF m (grantAt m k + 8) 31 0

/-- Bytes of a range are zero. -/
def zeroAt (m : List Byte) (o n : Nat) : Bool := (slice m o n).all (fun b => b == 0)

def thrBad (m : List Byte) (i : Nat) : Bool :=
  let p := tPeriod m i
  let most := if p = 0 then 1000000 else p
  tDline m i == 0 || decide (most < tDline m i) || tBudget m i == 0 || decide (mNobj m ≤ tEobj m i)
    || decide (mNobj m ≤ tSobj m i) || tEoff m i % 8 != 0 || mF m (thrAt i + 0xC) 7 5 != 0
    || mF m (thrAt i + 0xC) 31 24 != 0 || mF m (thrAt i + 0x10) 31 16 != 0
    || decide (oBytes m (tEobj m i) ≤ tEoff m i)

def objBad (m : List Byte) (j : Nat) : Bool :=
  oPages m j == 0 || decide (262144 < oPages m j) || oClass m j == 3
    || (oClass m j == 0 && decide (mNthr m ≤ oOwner m j)) || decide (oBytes m j < oIlen m j)
    || decide (m.length < oIoff m j + oIlen m j) || mF m (objAt m j + 4) 15 13 != 0
    || mF m (objAt m j + 4) 31 22 != 0 || !zeroAt m (objAt m j + 0x10) 16

def grantBad (m : List Byte) (k : Nat) : Bool :=
  let r := gRef m k
  let lim := match gKind m k with
    | 1 => mNobj m
    | 2 => 2 ^ 18
    | 3 => 4096 * 4
    | 4 => 16 * 65536
    | 5 => 4096
    | _ => 0
  decide (lim ≤ r) || (gKind m k == 3 && r % 4 == 3) || (gKind m k != 4 && gN m k != 0)
    || (gKind m k == 4 && (gN m k == 0 || decide (65536 < r % 65536 + gN m k)))
    || decide (oBytes m (mGobj m) < 16 * gGoff m k + 16) || !zeroAt m (grantAt m k + 0xC) 4

/-- A manifest is malformed (R427, R429 code 0x01). -/
def manifestBad (m : List Byte) : Bool :=
  mF m 0 15 0 != 0x4D51 || mF m 0 31 16 != 1 || mF m 0x10 31 0 != m.length || mTwin m == 3
    || mF m 4 15 15 != 0 || mF m 4 23 23 != 0 || mF m 4 31 28 != 0 || mF m 8 15 7 != 0 || mF m 8 31 25 != 0
    || mF m 0xC 15 11 != 0 || mF m 0xC 31 24 != 0 || !zeroAt m 0x14 0x2C
    || mNthr m == 0 || decide (64 < mNthr m) || mNobj m == 0 || decide (256 < mNobj m) || decide (1024 < mNgr m)
    || decide (mNobj m ≤ mGobj m) || decide (m.length < grantAt m (mNgr m)) || mFpol m == 3
    || (List.range (mNthr m)).any (thrBad m) || (List.range (mNobj m)).any (objBad m)
    || (List.range (mNgr m)).any (grantBad m)

/-- Bytes of a compartment's mirrored objects (R446). -/
def mirBytes (m : List Byte) : Nat :=
  (List.range (mNobj m)).foldl (fun n j => if oMir m j then n + oBytes m j else n) 0

/-- The result object 0x6010:03 (R429). -/
def setResult (code cid : Nat) (s : State) : State := setObjNat 0x6010 3 4 (code + cid % 1024 * 2 ^ 16) s

/-- A manifest whose load has a result: refused with its code, or queued for placement (R426). -/
def loadTake (m : List Byte) (s : State) : Option Nat → State
  | some c => setResult c (mCid m) s
  | none => { s with mon := { s.mon with wait := s.mon.wait ++ [(mCid m, m)] } }

/-! The capabilities that a compartment starts with (R428). -/

/-- A capability over exact or rounded bounds (R56). -/
def mkCap (perms otype : BitVec 12) (base len addr : Nat) : Cap :=
  let r := bndOf base len
  { addr := wd addr, hi := capHi perms otype r.1 (r.2.2 / 2 ^ r.1) (r.2.1 / 2 ^ r.1)
                            (decide (r.2.2 - r.2.1 = 2 ^ (r.1 + 14))), tag := true }

def dataPerms : BitVec 12 := permLD ||| permST ||| permLDC ||| permSTC
def contextPerms : BitVec 12 := permINVOKE ||| permLD ||| permST ||| permLDC ||| permSTC ||| permSTL

/-- What the rights of an object allow a grant of it. -/
def objPerms (m : List Byte) (j : Nat) : BitVec 12 :=
  let r := oRights m j
  let c := r.testBit 3
  permGL ||| (if r.testBit 0 then (if c then permLD ||| permLDC else permLD) else 0)
    ||| (if r.testBit 1 then (if c then permST ||| permSTC ||| permSTL else permST) else 0)
    ||| (if r.testBit 2 then permEX else 0)

/-- The capability of a grant, with the objects and rings at their virtual addresses (R428). -/
def grantCap (s : State) (m : List Byte) (objs rings : List (Nat × Nat)) (k : Nat) : Cap :=
  let p := BitVec.ofNat 12 (gPerms m k)
  let r := gRef m k
  let sealedPerms := (p &&& (permGL ||| dataPerms ||| permSTL ||| permINVOKE)) ||| permINVOKE
  match gKind m k with
  | 1 =>
    let va := (objs.getD r (0, 0)).1
    mkCap (p &&& objPerms m r) 0 va (oBytes m r) va
  | 2 => mkCap sealedPerms otypeQueue (qtab s + 64 * r) 64 (qtab s + 64 * r)
  | 3 =>
    let a := tripBase s + 256 * (r / 4) + 64 * (r % 4 + 1)
    mkCap sealedPerms otypeTrip a 64 a
  | 4 =>
    let va := (tblGet 0 rings (r / 65536)) + 512 * (r % 65536)
    mkCap (p &&& (permGL ||| permLD)) 0 va (512 * gN m k) va
  | _ => mkCap sealedPerms otypeTrip (tripBase s + 256 * r) 256 (tripBase s + 256 * r)

/-- A thread's CONTEXT capability. -/
def threadCtx (cva : Nat) : Cap := mkCap contextPerms otypeContext cva 1024 cva

/-- A thread's initial bank (R428). The stack capability's address is moved to the top as R54 has it: at a length of
2^(E+14) bytes the top is not representable, and the tag is clear. -/
def threadBank (m : List Byte) (asid : Nat) (objs : List (Nat × Nat)) (i cva : Nat) : Bank :=
  let va := fun j => (objs.getD j (0, 0)).1
  let e := tEobj m i
  let g := mGobj m
  let k := tSobj m i
  let b : Bank := { asid := asid, pcc := mkCap permEX 0 (va e) (oBytes m e) (va e + tEoff m i) }
  setC 0x2E (capSetAddr (mkCap stackPerms 0 (va k) (oBytes m k) (va k)) (wd (va k + oBytes m k)))
    (setC 0x2D (threadCtx cva) (setC 0x2C (mkCap dataPerms 0 (va g) (oBytes m g) (va g)) b))

end Sys2Proof.Machine
end

