-- ==== Sys2Proof/Machine/Domain.lean ====
section
/-! DEFINITION. The instances of Monarch and what they write (R423 to R425). Tenants (R432, R433): the domain of cells that a tenant's threads may run on, the gate regions that
Monarch keeps for it and for near objects, and the diversity group of a trip object's voters. -/

namespace Sys2Proof.Machine

def compOf (s : State) (cid : Nat) : Option Comp := tblFind s.mon.comps cid
def setComp (cid : Nat) (c : Comp) (s : State) : State :=
  { s with mon := { s.mon with comps := tblSet cid c s.mon.comps } }

def tenantOf (s : State) (n : Nat) : Tenant := tblGet {} s.mon.tenants n
def setTenant (n : Nat) (x : Tenant) (s : State) : State :=
  { s with mon := { s.mon with tenants := tblSet n x s.mon.tenants } }

/-! Instances (R423 to R425). -/

/-- The region whose instance of Monarch writes a gate (R423). -/
def gateRegion (g : Nat) : Nat :=
  if g < 0x100 then g / 64 else if g < 0x110 then (g - 0x100) / 4 else if g < 0x114 then g - 0x110 else g - 0x114

/-- The region in which an address lies: that of its store, its channel, its gate or its part of the control space. -/
def placeRegion (s : State) (a : Nat) : Option Nat :=
  match gateAt a with
  | some g => if g < 0x118 then some (gateRegion g) else none
  | none => (addrSite s a).region

/-- The coordinator: the instance of the lowest region neither fenced nor failed. -/
def coordinator (s : State) : Nat :=
  ((List.range 4).find? (fun r => !regionOut s r && !s.hubLost.contains r)).getD 0

/-- The instance of a region acts: stage 1 has given it its authority, and its hub core answers. -/
def instLive (s : State) (r : Nat) : Bool :=
  s.mon.auth && decide (r < 4) && !s.hubLost.contains r && initLive s (0x100 + r)

/-- The instance that acts at an address: its region's, or the coordinator at what belongs to no region. -/
def instanceAt (s : State) (a : Nat) : Nat := (placeRegion s a).getD (coordinator s)

/-- What the instance of a region does at a word, under its hub core's ID as the gate admits it; with `wait` it waits for the
links and gates that hold it (R24, R46, R265). -/
def instDo (wait : Bool) (r a : Nat) (f : State → State) (s : State) : State :=
  if !instLive s r then s
  else if wait && reqWaits s (0x100 + r) a then waitUp s
  else match gateCheck s (0x100 + r) a 8 .write with
    | .error d => gateEvent (0x100 + r) a .write d s
    | .ok _ => f s

/-- Bytes read under the ID of the instance at an address: none where a gate denies them (R46). -/
def instRead (s : State) (a n : Nat) : Option (List Byte) :=
  let id := 0x100 + instanceAt s a
  if (pagePieces (n / 4096 + 2) a n).all (fun p => match gateCheck s id p.1 p.2 .read with | .ok _ => true | .error _ => false)
  then some (memRead s.mem a n) else none

/-- A word written by the instance of a region. -/
def instPoke (r a : Nat) (v : W) (s : State) : State := if instLive s r then hubPoke r a v s else s

/-- Bytes written under an initiator's ID, page by page, each page as its gate admits it (R46, R268): whether all were
written. -/
def gatedStore (id a : Nat) (bs : List Byte) (s : State) : Bool × State :=
  if rangeWaits s id a bs.length then (false, waitUp s)
  else (pagePieces (bs.length / 4096 + 2) a bs.length).foldl (fun z p =>
    match gateCheck z.2 id p.1 p.2 .write with
    | .error d => (false, gateEvent id p.1 .write d z.2)
    | .ok _ => (z.1, physStore p.1 (slice bs (p.1 - a) p.2) z.2)) (true, s)

/-- Bytes, zeros or a granule written by the instance at an address. -/
def instStore (a : Nat) (bs : List Byte) (s : State) : State :=
  if instLive s (instanceAt s a) then (gatedStore (0x100 + instanceAt s a) a bs s).2 else s
def instZero (a n : Nat) (s : State) : State :=
  let id := 0x100 + instanceAt s a
  if !instLive s (instanceAt s a) then s
  else if rangeWaits s id a n then waitUp s
  else (pagePieces (n / 4096 + 2) a n).foldl (fun s p =>
    match gateCheck s id p.1 p.2 .write with
    | .error d => gateEvent id p.1 .write d s
    | .ok _ => memZero p.1 p.2 s) s
def instStoreCap (a : Nat) (bs : List Byte) (tag : Bool) (s : State) : State :=
  let id := 0x100 + instanceAt s a
  if !instLive s (instanceAt s a) then s
  else if reqWaits s id a then waitUp s
  else match gateCheck s id a 16 .write with
    | .error d => gateEvent id a .write d s
    | .ok _ => physStoreCap a bs tag s

/-- The address of a thread slot's words. -/
def slotAt (core n : Nat) : Nat := ctlBase core + 0x1000 + 64 * n

/-- A thread slot's state, by the instance of its cell's region (R201). Where that instance is lost, the coordinator has a
frozen thread go on (DESIGN CHOICE, log entry 107). -/
def instSlot (core n st : Nat) (s : State) : State :=
  instDo true (if st = 1 ∧ !instLive s (core / 64) then coordinator s else core / 64) (slotAt core n) (slotState core n st) s

/-- The pieces of a copy, none of which crosses a page at either end. -/
def copyPieces : Nat → Nat → Nat → Nat → List (Nat × Nat × Nat)
  | 0, _, _, _ => []
  | k + 1, src, dst, n =>
    if n = 0 then []
    else
      let m := min n (min (4096 - src % 4096) (4096 - dst % 4096))
      (src, dst, m) :: copyPieces k (src + m) (dst + m) (n - m)

/-- Bytes and tags of a range moved elsewhere, as a capability-preserving copy does (R78). -/
def memCopy (src dst n : Nat) (s : State) : State :=
  let cells := s.mem.filter (fun e => decide (src ≤ e.1) && decide (e.1 < src + n))
  let tags := s.tags.filter (fun g => decide (src / 16 ≤ g) && decide (g < (src + n) / 16))
  let s := memZero dst n s
  { s with mem := cells.foldl (fun m e => memPut (dst + (e.1 - src)) e.2 m) s.mem,
           tags := tags.foldl (fun t g => tagPut (dst / 16 + (g - src / 16)) true t) s.tags }

/-- A copy under an initiator's ID, page by page, each as the gates at both ends admit it (R46, R268): whether all of it was
made. It stops at an uncorrectable error, so that no such data and no tag with it reaches the destination (R74), and it
waits for the links and gates that hold it (R24, R265). -/
def gatedCopy (id src dst n : Nat) (s : State) : Bool × State :=
  if src = dst then (true, s)
  else if !instLive s (instanceAt s dst) then (false, s)
  else (copyPieces (2 * (n / 4096) + 3) src dst n).foldl (fun z p =>
    match gateCheck z.2 id p.1 p.2.2 .read, gateCheck z.2 id p.2.1 p.2.2 .write with
    | .error d, _ => (false, gateEvent id p.1 .read d z.2)
    | .ok _, .error d => (false, gateEvent id p.2.1 .write d z.2)
    | .ok _, .ok _ =>
      if !z.1 then z
      else if reqWaits z.2 id p.1 || reqWaits z.2 id p.2.1 then (false, waitUp z.2)
      else if rangeErr z.2 false p.1 p.2.2 then (false, uncorrectableAt id p.1 z.2)
      else if rangeErr z.2 true p.2.1 p.2.2 then (false, uncorrectableAt id p.2.1 z.2)
      else (true, memCopy p.1 p.2.1 p.2.2 z.2)) (true, s)

/-- A copy by the first DMA engine of the destination's region (R423, R440). -/
def engineCopy (src dst n : Nat) (s : State) : Bool × State := gatedCopy (0x130 + 2 * instanceAt s dst) src dst n s

/-- A copy by the hub core of the destination's region: the gate regions of rings admit no DMA engine (R433). -/
def hubCopy (src dst n : Nat) (s : State) : Bool × State := gatedCopy (0x100 + instanceAt s dst) src dst n s

/-! Voters (R432). -/

/-- The trip objects whose voter grants a manifest holds. -/
def voterObjs (m : List Byte) : List Nat :=
  ((List.range (mNgr m)).filterMap (fun k => if gKind m k = 3 then some (gRef m k / 4) else none)).eraseDups

/-- The voting rule of a trip object: of the trip unit when it is enabled, else as its entry in memory has it (R369;
DESIGN CHOICE, log entry 68). -/
def voteRule (s : State) (o : Nat) : Nat :=
  match tblFind s.trip.objs o with
  | some x => x.rule
  | none =>
    if tripBase s = 0 then 0
    else match instRead s (tripBase s + 256 * o) 8 with
      | some b => leNat b % 4
      | none => 0

/-- Tenant and diversity group of every thread that holds a voter grant of a trip object: the threads of a compartment
share its globals (DESIGN CHOICE, log entry 68). -/
def voterGroups (m : List Byte) (o : Nat) : List (Nat × Nat) :=
  if (voterObjs m).contains o then (List.range (mNthr m)).map (fun i => (mTenant m, tDgrp m i)) else []

/-- The voters of a 2-of-2 or 2-of-3 object do not share one diversity group. -/
def votersSplit (s : State) (m : List Byte) : Bool :=
  (voterObjs m).any (fun o =>
    (voteRule s o == 1 || voteRule s o == 2) &&
      (let l := voterGroups m o ++ s.mon.comps.flatMap (fun e => if e.1 = mCid m then [] else voterGroups e.2.man o)
       l.any (fun x => x.2 == 0 || some x != l.head?)))

/-- A diversity group would have more than three threads, so that no placement can keep it in distinct regions (R430). -/
def groupTooBig (s : State) (m : List Byte) : Bool :=
  (List.range (mNthr m)).any (fun i => tDgrp m i != 0 &&
    decide (3 < ((List.range (mNthr m)).filter (fun j => tDgrp m j == tDgrp m i)).length
      + (s.mon.comps.flatMap (fun e => if e.1 = mCid m ∨ mTenant e.2.man ≠ mTenant m then []
          else (List.range (mNthr e.2.man)).filter (fun j => tDgrp e.2.man j == tDgrp m i))).length))

/-- The result that a load has at once (R429): none while placement is still to come. -/
def loadResult (s : State) (m : List Byte) : Option Nat :=
  if manifestBad m then some 0x01
  else if (tblFind s.mon.comps (mCid m)).isSome ∨ s.mon.wait.any (fun w => w.1 == mCid m) then some 0x02
  else if votersSplit s m || groupTooBig s m then some 0x04
  else if mTwin m = 2 ∧ s.twin.state ≠ 1 then some 0x08
  else if 0x100000 < mirBytes m then some 0x09
  else none

/-- A manifest arrives (R426): refused at once, or queued for placement. -/
def manifestLoad (m : List Byte) (s : State) : State := loadTake m s (loadResult s m)

/-! Gate regions (R433). -/

/-- The gates of an object's memory; under striping every DDR4 gate needs the rule (R259). -/
def objGates (s : State) (a : Nat) : List Nat :=
  match targetOf s a with
  | .gate g => if s.striped && decide (0x114 ≤ g) && decide (g < 0x118) then [0x114, 0x115, 0x116, 0x117] else [g]
  | _ => []

/-- Word `w` of an initiator set. -/
def isetOf (p : Nat → Bool) (w : Nat) : W :=
  wd (((List.range 64).filter (fun j => p (64 * w + j))).foldl (fun a j => a + 2 ^ j) 0)

/-- The initiators that a tenant's or near object's region admits: cells, the four hub cores and the eight DMA engines. -/
def tenantIds (cells : List Nat) (i : Nat) : Bool :=
  cells.contains i || (decide (0x100 ≤ i) && decide (i < 0x104)) || (decide (0x130 ≤ i) && decide (i < 0x138))

/-- Those that a ring's region admits: all 256 cells, the hub cores and the sixteen ingress engines. -/
def ringIds (i : Nat) : Bool := decide (i < 0x104) || (decide (0x110 ≤ i) && decide (i < 0x120))

/-- A gate region guards a ring or header array of an enabled grid: Monarch never rewrites it. -/
def ringSpan (s : State) (g i : Nat) : Bool :=
  let lo := (gateReg s (regionAt g i)).toNat
  let hi := (gateReg s (regionAt g i + 8)).toNat + 0x1000
  bit (regionAttr s g i) 0 && (List.range 16).any (fun n =>
    let at_ := fun (off : Nat) (bits : W) => (reg s (0x62300000 + 0x1000 * n + off) &&& bits).toNat
    let meets := fun (a len : Nat) => decide (lo < a + len) && decide (a < hi)
    bit (reg s (0x62300000 + 0x1000 * n)) 0 &&
      (meets (at_ 8 (ones 48)) (at_ 0x18 (ones 17) * 512) || meets (at_ 0x10 (ones 48)) 0x1000))

/-- A gate region is a tenant's or a near object's. -/
def ownSpan (s : State) (g i : Nat) : Bool :=
  s.mon.tenants.any (fun t => t.2.spans.any (fun x => x.gate == g && x.region == i))
    || s.mon.comps.any (fun c => c.2.near.any (fun x => x.gate == g && x.region == i))

/-- The lowest gate region of a gate that is not enabled, but for one. -/
def spareRegion (s : State) (g but : Nat) : Option Nat :=
  (List.range 64).find? (fun i => i != but && !bit (regionAttr s g i) 0)

/-- A region that the boot left, cut around the pages from `lo` to `hi`: no two enabled regions may overlap (R264). What lies
above is given to a free region, with the same initiators and attributes (DESIGN CHOICE, log entry 106). -/
def cutRegion (x : GateSpan) (s : State) (i : Nat) : State :=
  let a := regionAt x.gate i
  let b := (gateReg s a).toNat
  let l := (gateReg s (a + 8)).toNat
  let w := regionAttr s x.gate i
  let r := gateRegion x.gate
  if i = x.region ∨ !bit w 0 ∨ bit w 5 ∨ ownSpan s x.gate i ∨ ringSpan s x.gate i ∨ l < x.lo ∨ x.hi < b then s
  else
    let sets := (List.range 16).map (fun k => gateReg s (a + 0x80 + 8 * k))
    let s := instPoke r (a + 0x10) 0 s
    let above := fun (j : Nat) (s : State) =>
      let c := regionAt x.gate j
      let s := instPoke r (c + 8) (wd l) (instPoke r c (wd (x.hi + 0x1000)) s)
      let s := (sets.zip (List.range 16)).foldl (fun s e => instPoke r (c + 0x80 + 8 * e.2) e.1 s) s
      instPoke r (c + 0x10) w s
    if b < x.lo then
      let s := instPoke r (a + 0x10) w (instPoke r (a + 8) (wd (x.lo - 0x1000)) s)
      if x.hi < l then (match spareRegion s x.gate x.region with | some j => above j s | none => s) else s
    else if x.hi < l then above i s else s

/-- An instance goes on once its writes of a gate are in force, which waits for the requests that the gate accepted before
them (R265; DEDUCED, log entry 98). -/
def spanInForce (g : Nat) (s : State) : State :=
  if s.gatePend.any (fun e => e.1 == g) then (if gateBusy s g then waitUp s else gateApply g s) else s

/-- A gate region disabled, written and committed by its region's instance, the boot's regions cut around it (R264, R423). -/
def writeSpan (x : GateSpan) (ids : Nat → Bool) (s : State) : State :=
  let a := regionAt x.gate x.region
  let r := gateRegion x.gate
  let s := (List.range 64).foldl (cutRegion x) s
  let s := instPoke r (a + 8) (wd x.hi) (instPoke r a (wd x.lo) (instPoke r (a + 0x10) 0 s))
  let s := (List.range 16).foldl (fun s w => instPoke r (a + 0x80 + 8 * w) (isetOf ids w) s) s
  spanInForce x.gate (instPoke r (a + 0x10) x.attr s)

/-- A gate region released. -/
def releaseSpan (s : State) (x : GateSpan) : State :=
  spanInForce x.gate (instPoke (gateRegion x.gate) (regionAt x.gate x.region + 0x10) 0 s)

/-- A gate region stands as it was to be written: no write of it was refused. -/
def spanStands (s : State) (x : GateSpan) : Bool :=
  bit (regionAttr s x.gate x.region) 0 && (gateReg s (regionAt x.gate x.region)).toNat == x.lo
    && (gateReg s (regionAt x.gate x.region + 8)).toNat == x.hi

/-- The lowest gate region of a gate that is not enabled. -/
def freeRegion (s : State) (g : Nat) : Option Nat := (List.range 64).find? (fun i => !bit (regionAttr s g i) 0)

/-- The gate regions that guard a page admit all that a ring's must, to its last page. -/
def ringGuarded (s : State) (g lo hi : Nat) : Bool :=
  match regionHits s g lo with
  | [i] => decide (hi ≤ (gateReg s (regionAt g i + 8)).toNat)
      && (List.range 16).all (fun w => gateReg s (regionAt g i + 0x80 + 8 * w) &&& isetOf ringIds w == isetOf ringIds w)
  | _ => false

/-- The gate region for a range that no gate region of its gate guards as a ring's must, for a grid's ring, header array or
doorbell list: in each gate of the range the lowest one free, with reads and writes (R433; DESIGN CHOICE, log entry 87). -/
def ringGate (a n : Nat) (s : State) : State :=
  let lo := a / 0x1000 * 0x1000
  let hi := (a + (n - 1)) / 0x1000 * 0x1000
  (objGates s a).foldl (fun s g =>
    match freeRegion s g with
    | some i => if ringGuarded s g lo hi then s else writeSpan ⟨g, i, lo, hi, 7⟩ ringIds s
    | none => s) s

/-- The gate regions of a grid's ring and header array. -/
def ringGates (n : Nat) (s : State) : State :=
  let at_ := fun (off : Nat) (bits : W) => (reg s (0x62300000 + 0x1000 * n + off) &&& bits).toNat
  ringGate (at_ 0x10 (ones 48)) 0x1000 (ringGate (at_ 8 (ones 48)) (at_ 0x18 (ones 17) * 512) s)

/-- An object that lies near: of class 0, in a cell store. -/
def nearObj (m : List Byte) (p : Placement) (j : Nat) : Bool :=
  oClass m j == 0 && decide ((p.objs.getD j (0, 0)).2 < 0x42000000)

def nearSpans (p : Placement) : List GateSpan := p.gates.filter (fun x => decide (x.gate < 0x100))
def wideSpans (p : Placement) : List GateSpan := p.gates.filter (fun x => decide (0x100 ≤ x.gate))

/-- The tenant's gate regions with those of a placement. -/
def spansWith (t : Tenant) (p : Placement) : List GateSpan :=
  t.spans.filter (fun x => !(wideSpans p).any (fun y => y.gate == x.gate)) ++ wideSpans p

def seatCells (p : Placement) : List Nat := p.seats.map (fun x => x.cell)

/-- A placement widens its tenant's domain, or changes a gate region that the tenant has: the tenant is frozen for it
(R433, R440; DESIGN CHOICE, log entry 67). -/
def needsFreeze (t : Tenant) (p : Placement) : Bool :=
  (seatCells p).any (fun c => !t.domain.contains c)
    || (wideSpans p).any (fun y => t.spans.any (fun x => x.gate == y.gate && x != y))

/-- The other running compartments of a tenant. -/
def tenantOthers (s : State) (n cid : Nat) : List (Nat × Comp) :=
  s.mon.comps.filter (fun e => e.1 != cid && mTenant e.2.man == n && e.2.state == 1)

/-- The cells on which a tenant's threads are placed, but for one compartment's. -/
def tenantCells (s : State) (n cid : Nat) : List Nat :=
  s.mon.comps.flatMap (fun e => if e.1 = cid ∨ mTenant e.2.man ≠ n then [] else e.2.thr.map (fun t => t.seat.cell))

/-- The domain after a placement: at a freeze it takes the placement's cells in, and loses those on which no thread of
the tenant has been seated for 1,000 epochs (DESIGN CHOICE, log entry 67). -/
def domainWith (s : State) (n cid : Nat) (p : Placement) : List Nat :=
  let t := tenantOf s n
  if !needsFreeze t p then t.domain
  else (List.range 256).filter (fun c => (seatCells p).contains c
    || (t.domain.contains c
        && ((tenantCells s n cid).contains c || decide (s.mon.epoch < tblGet 0 t.used c + 1000))))

/-- The gate regions of a placement are ones that Monarch may write and that do what R433 asks: each near object has
its own, over its bytes alone (but in the store of cell 3.3.15, whose gate no address reaches, log entry 39); each other object lies in the tenant's, at most one in each gate; none is a ring's. `own`
are the near regions that the compartment has. -/
def spansOk (s : State) (m : List Byte) (own : List GateSpan) (p : Placement) : Bool :=
  let t := tenantOf s (mTenant m)
  let js := List.range (mNobj m)
  let place := fun (j : Nat) => (p.objs.getD j (0, 0)).2
  let spans := spansWith t p
  let same := fun (x y : GateSpan) => x.gate == y.gate && x.region == y.region
  p.gates.all (fun x => decide (x.gate < 0x118) && x.gate != 0xFF && x.region != 0 && decide (x.region < 64) && bit x.attr 0
      && !bit x.attr 5 && !ringSpan s x.gate x.region
      && (!bit (regionAttr s x.gate x.region) 0 || (own ++ t.spans).any (same x)))
    && decide (p.gates.map (fun x => (x.gate, x.region))).Nodup && decide ((wideSpans p).map (fun x => x.gate)).Nodup
    && (wideSpans p).all (fun x => t.spans.all (fun y => y.gate != x.gate || y.region == x.region))
    && (nearSpans p).length == (js.filter (nearObj m p)).length
    && js.all (fun j =>
        if nearObj m p j then
          (nearSpans p).any (fun x => (objGates s (place j)).contains x.gate && x.lo == place j
            && x.hi + 0x1000 == place j + oBytes m j)
        else (objGates s (place j)).all (fun g => spans.any (fun x => x.gate == g && decide (x.lo ≤ place j)
            && decide (place j + oBytes m j ≤ x.hi + 0x1000))))

/-- The gates written for a placement: near regions admit their cell, the tenant's regions its domain; both admit the
hub cores and DMA engines (R48, R433). -/
def placeGates (m : List Byte) (cid : Nat) (p : Placement) (s : State) : State :=
  let n := mTenant m
  let t := tenantOf s n
  let dom := domainWith s n cid p
  let spans := spansWith t p
  let s := (nearSpans p).foldl (fun s x => writeSpan x (tenantIds [x.gate]) s) s
  let s := (if dom = t.domain then wideSpans p else spans).foldl (fun s x => writeSpan x (tenantIds dom) s) s
  setTenant n { t with domain := dom, spans := spans } s

/-- A placement's gate regions as they stood before it, when it is not taken after all. -/
def gatesBack (n : Nat) (old : Tenant) (p : Placement) (s : State) : State :=
  let s := (wideSpans p).foldl releaseSpan s
  setTenant n old (old.spans.foldl (fun s x => writeSpan x (tenantIds old.domain) s) s)

/-- Every gate region of a placement stands after it. -/
def gatesStand (t : State) (m : List Byte) (p : Placement) : Bool :=
  (nearSpans p ++ (tenantOf t (mTenant m)).spans).all (spanStands t)

/-- The epoch's note of the cells on which each tenant's threads run. -/
def noteCells (s : State) : State :=
  s.mon.comps.foldl (fun s e =>
    if e.2.state ≠ 1 then s
    else
      let n := mTenant e.2.man
      let t := tenantOf s n
      setTenant n { t with used := e.2.thr.foldl (fun u x => tblSet x.seat.cell s.mon.epoch u) t.used } s) s

/-- A tenant without a compartment gives its gate regions back. -/
def tenantEnd (n : Nat) (s : State) : State :=
  if s.mon.comps.any (fun e => mTenant e.2.man == n) then s
  else
    let s := (tenantOf s n).spans.foldl releaseSpan s
    { s with mon := { s.mon with tenants := tblDel n s.mon.tenants } }

end Sys2Proof.Machine
end

