-- ==== Sys2Proof/Machine/Place.lean ====
section
/-! DEFINITION. Placement (R428 to R433, R440, R441): the hard constraints, and what placing, moving, restarting and
unloading a compartment does to slots, cocoons, objects and doorbells. -/

namespace Sys2Proof.Machine

/-! Hard constraints (R430). -/

/-- The cell clock of a level, in MHz (R522). -/
def levelMhz (k : Nat) : Nat := match k with | 0 => 1600 | 1 => 1200 | 2 => 960 | _ => 600

/-- The loads of the placed threads of a cell, and of those on their way to it: budget and period, or deadline when the period is 0. -/
def cellLoads (s : State) (cell but : Nat) : List (Nat × Nat) :=
  s.mon.comps.flatMap (fun e =>
    if e.1 = but then []
    else
      let here := (e.2.thr.zip (List.range 64)).filter (fun t => t.1.seat.cell == cell)
      let soon := match e.2.move with
        | some p => (p.seats.zip (List.range 64)).filter (fun (t : Seat × Nat) =>
            t.1.cell == cell && !here.any (fun x => x.2 == t.2))
        | none => []
      (here.map (fun t => t.2) ++ soon.map (fun t => t.2)).map (fun i =>
        (tBudget e.2.man i, if tPeriod e.2.man i = 0 then tDline e.2.man i else tPeriod e.2.man i)))

/-- The loads that a manifest's own threads bring to a cell. -/
def ownLoads (m : List Byte) (seats : List Seat) (cell : Nat) : List (Nat × Nat) :=
  ((seats.zip (List.range 64)).filter (fun t => t.1.cell == cell)).map (fun t =>
    (tBudget m t.2, if tPeriod m t.2 = 0 then tDline m t.2 else tPeriod m t.2))

/-- Admission: the sum of budget over clock times period, exactly, is at most ucap. -/
def admits (ucap mhz : Nat) (l : List (Nat × Nat)) : Bool :=
  let r := l.foldl (fun (a : Nat × Nat) (x : Nat × Nat) => (a.1 * (mhz * x.2) + x.1 * a.2, a.2 * (mhz * x.2))) (0, 1)
  decide (1000 * r.1 ≤ ucap * r.2)

/-- A cell may hold threads: not in a fenced region or one whose hub core is lost, its block neither offline nor
off, the cell powered and not stopped. -/
def cellServes (s : State) (n : Nat) : Bool :=
  decide (n < 256) && !regionOut s (n / 64) && !s.hubLost.contains (n / 64) && !s.offline.contains (n / 16)
    && astOf s (n / 16) != 3 && (cellOf s n).powered && !(cellOf s n).stopped

/-- Bytes of a range lie in a cell's own store, or in its block's store. -/
def inCellStore (n a len : Nat) : Bool :=
  decide (0x40000000 + n * 0x20000 ≤ a) && decide (a + len ≤ 0x40000000 + (n + 1) * 0x20000)
def inBlockStore (b a len : Nat) : Bool :=
  decide (0x44000000 + b * 0x400000 ≤ a) && decide (a + len ≤ 0x44000000 + (b + 1) * 0x400000)
def inDdr (a len : Nat) : Bool := decide (0x1000000000 ≤ a) && decide (a + len ≤ 0x5000000000)
def inSram (a len : Nat) : Bool := decide (0x40000000 ≤ a) && decide (a + len ≤ 0x4A000000)

/-- The tags of placed threads, but for one compartment's (R441). -/
def usedTags (s : State) (but : Nat) : List Nat :=
  s.mon.comps.flatMap (fun e => if e.1 = but then [] else e.2.thr.map (fun t => t.seat.tag))

/-- The regions of the other members of a thread's diversity group. -/
def groupRegions (s : State) (m : List Byte) (but i : Nat) : List Nat :=
  s.mon.comps.flatMap (fun e =>
    if e.1 = but ∨ mTenant e.2.man ≠ mTenant m then []
    else ((e.2.thr.zip (List.range 64)).filter (fun t => tDgrp e.2.man t.2 == tDgrp m i)).map
      (fun t => t.1.seat.cell / 64))

/-- Diversity: pairwise different regions, at most three threads in a group. -/
def diverse (s : State) (m : List Byte) (but : Nat) (seats : List Seat) : Bool :=
  (List.range (mNthr m)).all (fun i =>
    tDgrp m i == 0 ||
      (let own := ((seats.zip (List.range 64)).filter (fun t => tDgrp m t.2 == tDgrp m i)).map (fun t => t.1.cell / 64)
       let all := own ++ groupRegions s m but i
       decide (all.length ≤ 3) && decide all.Nodup))

/-- Every page of a range is served: its region neither fenced nor without its instance, its block neither offline nor
off (Service). -/
def rangeServes (s : State) (a n : Nat) : Bool :=
  (pagePieces (n / 4096 + 2) a n).all (fun p =>
    (match targetOf s p.1 with | .gate _ => true | _ => false) && instLive s (instanceAt s p.1))

/-- An object's place is one that its class allows (Near, Bulk). -/
def objPlaced (m : List Byte) (seats : List Seat) (objs : List (Nat × Nat)) (j : Nat) : Bool :=
  let o := objs.getD j (0, 0)
  let n := oBytes m j
  o.1 % 0x1000 == 0 && o.2 % 0x1000 == 0 &&
    (match oClass m j with
     | 0 =>
       let c := match seats[oOwner m j]? with | some x => x.cell | none => 256
       inCellStore c o.2 n || inBlockStore (c / 16) o.2 n
     | 2 => inDdr o.2 n
     | _ => inDdr o.2 n || inSram o.2 n)

/-- Bytes of each object, of each cocoon: the ranges that a placement occupies. -/
def occupied (m : List Byte) (seats : List Seat) (objs : List (Nat × Nat)) : List (Nat × Nat) :=
  (objs.zip (List.range 256)).map (fun o => (o.1.2, oBytes m o.2)) ++ seats.map (fun x => (x.cpa, 1024))

/-- No range of a list meets a later one. -/
def disjoint : List (Nat × Nat) → Bool
  | [] => true
  | x :: l => l.all (fun y => decide (x.1 + x.2 ≤ y.1) || decide (y.1 + y.2 ≤ x.1)) && disjoint l

/-- A placement's objects and cocoons lie apart from one another and from those of the other compartments. -/
def apart (s : State) (m : List Byte) (cid : Nat) (p : Placement) : Bool :=
  let mine := occupied m p.seats p.objs
  let theirs := s.mon.comps.flatMap (fun e =>
    if e.1 = cid then [] else occupied e.2.man (e.2.thr.map (fun t => t.seat)) e.2.objs)
  disjoint mine && mine.all (fun x => theirs.all (fun y => decide (x.1 + x.2 ≤ y.1) || decide (y.1 + y.2 ≤ x.1)))

/-- A trip object is one of the 4,096 that the trip unit's table holds, and is enabled, but for a mirrored compartment, whose
objects its takeover enables (R448). -/
def tripThere (s : State) (m : List Byte) (n : Nat) : Bool :=
  tripBase s != 0 && decide (n < 4096) && (mTwin m != 0 || (tblFind s.trip.objs n).isSome)

/-- The items that a manifest's grants name are there (R429, code 0x07): a queue is enabled, a trip object is there, and the
channels are those of an enabled grid. Which tenant an item is granted to the spec does not say (DESIGN
CHOICE, log entry 88). -/
def grantPresent (s : State) (m : List Byte) (k : Nat) : Bool :=
  let r := gRef m k
  match gKind m k with
  | 2 => dEn (qFind (queueRegion r) r s).1
  | 3 => tripThere s m (r / 4)
  | 4 => gridEn s (r / 65536) && decide (r % 65536 + gN m k ≤ gridNch s (r / 65536))
  | 5 => tripThere s m r
  | _ => true

def grantsPresent (s : State) (m : List Byte) : Bool := (List.range (mNgr m)).all (grantPresent s m)

/-! The address space (R228 to R238, R428). -/

/-- The leaf that the tables from a level down hold for an address. -/
def leafDown (s : State) (va root : Nat) : Nat → Nat → Option W
  | 0, table =>
    let e := wd (physNat s (table + 8 * (va / 4096 % 512)) 8)
    if bit e 0 && !malformed e 0 && !badLeaf e 0 root then some e else none
  | l + 1, table =>
    let e := wd (physNat s (table + 8 * (va / 2 ^ (12 + 9 * (l + 1)) % 512)) 8)
    if !bit e 0 || malformed e (l + 1) then none
    else if bit e 1 then (if badLeaf e (l + 1) root then none else some e)
    else leafDown s va root l (entryPa e)

/-- The leaf of an address in a region's copy of an address space. -/
def leafOf (s : State) (r asid va : Nat) : Option W :=
  let e := wd (physNat s (0x48000000 + r * 0x800000 + 8 * asid) 8)
  if asValid e && canonical (wd va) (treeLevels e) then leafDown s va (treeLevels e - 1) (treeLevels e - 1) (entryPa e)
  else none

/-- In all four copies, a leaf maps `va` to `pa` and is as asked, and is not global. -/
def mapped (s : State) (asid va pa : Nat) (want : W → Bool) : Bool :=
  (List.range 4).all (fun r => match leafOf s r asid va with
    | some e => leafPa e (wd va) == pa && want e && !bit e 7
    | none => false)

/-- The objects are mapped page by page with their rights and keys. -/
def objsMapped (s : State) (m : List Byte) (asid : Nat) (objs : List (Nat × Nat)) : Bool :=
  (List.range (mNobj m)).all (fun j =>
    let o := objs.getD j (0, 0)
    (List.range (oPages m j)).all (fun k => mapped s asid (o.1 + 4096 * k) (o.2 + 4096 * k) (fun e =>
      fld e 4 2 == oRights m j % 8 && bit e 8 == (oRights m j).testBit 3 && fld e 20 15 == oKey m j)))

/-- The cocoons are mapped for loads and stores of capabilities. -/
def cocoonsMapped (s : State) (asid : Nat) (seats : List Seat) : Bool :=
  seats.all (fun x => [0, 1023].all (fun i => mapped s asid (x.cva + i) (x.cpa + i) (fun e =>
    bit e 2 && bit e 3 && bit e 8)))

/-- Every ring of a granted grid is mapped, for loads alone. -/
def ringsMapped (s : State) (m : List Byte) (asid : Nat) (rings : List (Nat × Nat)) : Bool :=
  (List.range (mNgr m)).all (fun k =>
    gKind m k != 4 ||
      (let g := gRef m k / 65536
       let va := tblGet 0 rings g
       let pa := gridF s g 0x08 47 9 * 512
       (List.range (gridNch s g)).all (fun c => mapped s asid (va + 512 * c) (pa + 512 * c) (fun e => fld e 4 2 == 1))))

/-- A value that would be a leaf over a page of the control space, which no compartment's address space maps (R424). -/
def controlLeaf (v : W) : Bool :=
  bit v 0 && bit v 1 && decide (entryPa v < 0x70000000) && decide (0x60000000 < entryPa v + 2 ^ leafSize v)

/-- The near gate regions that a compartment has. -/
def nearOf (s : State) (cid : Nat) : List GateSpan := match compOf s cid with | some c => c.near | none => []

/-- A block is above tthr (R437). -/
def blockHot (s : State) (b : Nat) : Bool := decide ((s.mon.par.tthr * 10 : Int) < hottest (temps s b))

/-- The seats that a compartment has now. -/
def seatsOf (s : State) (cid : Nat) : List Seat :=
  match compOf s cid with | some c => c.thr.map (fun t => t.seat) | none => []

/-- A block above tthr receives no thread that does not run in it already (R437). -/
def coolFor (s : State) (cid i cell : Nat) : Bool :=
  !blockHot s (cell / 16) || (match (seatsOf s cid)[i]? with | some x => x.cell / 16 == cell / 16 | none => false)

/-- What is asked of a seating: admission; diversity; as if no block were hot or lowered for its heat; and room for the
near objects and cocoons. -/
structure SeatAsk where
  adm  : Bool := true
  div  : Bool := true
  cold : Bool := false
  room : Bool := false
  deriving DecidableEq, Repr

/-- A cell on which a thread of a compartment may be seated at all. -/
def cellAllowed (s : State) (m : List Byte) (i c : Nat) (cold : Bool) : Bool :=
  cellServes s c && instLive s (c / 64) && (mRpin m == 0 || (mRpin m).testBit (c / 64))
    && (cold || coolFor s (mCid m) i c)

/-- The clock of a block, or as it could be if the block were not hot. -/
def coldMhz (s : State) (cold : Bool) (b : Nat) : Nat :=
  if cold && (blockHot s b || (tblGet {} s.mon.blks b).low) then levelMhz 0 else levelMhz (alvl s b)

/-- The first place in a store at which `n` bytes lie apart from what is taken. -/
def fitIn (s : State) (taken : List (Nat × Nat)) (lo len step n : Nat) : Option Nat :=
  (lo :: taken.map (fun x => (x.1 + x.2 + step - 1) / step * step)).find? (fun a =>
    decide (lo ≤ a) && decide (a + n ≤ lo + len) && rangeServes s a n
      && taken.all (fun y => decide (a + n ≤ y.1) || decide (y.1 + y.2 ≤ a)))

/-- The near objects and the cocoons of a manifest fit the stores with its threads on the cells `on`, filled in the order
of the records (R429, code 0x05; DESIGN CHOICE, log entry 30). -/
def nearRoom (s : State) (m : List Byte) (on : List Nat) : Bool :=
  let theirs := s.mon.comps.flatMap (fun e =>
    if e.1 = mCid m then [] else occupied e.2.man (e.2.thr.map (fun t => t.seat)) e.2.objs)
  let near := (List.range (mNobj m)).foldl (fun (z : Option (List (Nat × Nat))) j => z.bind (fun t =>
    if oClass m j ≠ 0 then some t
    else
      let c := on.getD (oOwner m j) 256
      let n := oBytes m j
      match fitIn s t (0x40000000 + c * 0x20000) 0x20000 0x1000 n with
      | some a => some ((a, n) :: t)
      | none => (fitIn s t (0x44000000 + c / 16 * 0x400000) 0x400000 0x1000 n).map (fun a => (a, n) :: t))) (some theirs)
  (on.foldl (fun (z : Option (List (Nat × Nat))) c => z.bind (fun t =>
    (fitIn s t (0x40000000 + c * 0x20000) 0x20000 16 1024).map (fun a => (a, 1024) :: t))) near).isSome

/-- The threads still to be seated can be, with all that is asked: `on` are the cells of the threads before them (R430). -/
def seatable (s : State) (m : List Byte) (q : SeatAsk) : List Nat → List Nat → Bool
  | [], on => !q.room || nearRoom s m on
  | i :: is, on => (List.range 256).any (fun c =>
      cellAllowed s m i c q.cold
        && (!q.div || tDgrp m i == 0 || !((((on.zip (List.range 64)).filter (fun (x : Nat × Nat) => tDgrp m x.2 == tDgrp m i)).map (fun (x : Nat × Nat) => x.1 / 64)
              ++ groupRegions s m (mCid m) i).contains (c / 64)))
        && decide ((on.filter (fun x => x == c)).length < 64)
        && (!q.adm || admits s.mon.par.ucap (coldMhz s q.cold (c / 16))
              (cellLoads s c (mCid m) ++ ownLoads m ((on ++ [c]).map (fun x => ⟨x, 0, 0, 0, 0⟩)) c))
        && seatable s m q is (on ++ [c]))

/-- The threads of a manifest can be seated (R429, R453). -/
def canSeat (s : State) (m : List Byte) (q : SeatAsk) : Bool := seatable s m q (List.range (mNthr m)) []

/-- A thermal limit leaves no seating that passes admission, where there would be one without it (R437). -/
def heatBars (s : State) (m : List Byte) : Bool := !canSeat s m {} && canSeat s m { cold := true }

/-- The manifest has a place, as far as seats and stores go: with admission, unless temperature overrides it. -/
def hasPlace (s : State) (m : List Byte) : Bool := canSeat s m { adm := !heatBars s m, room := true }

/-- The writes of tables that go with a placement, each by the instance of its region (R423, R424); gates are written
under R433 alone. -/
def tableWrites (l : List (Nat × Nat × W)) (s : State) : State :=
  (l.filter (fun w => !inControl w.2.1 && !controlLeaf w.2.2)).foldl (fun (s : State) (w : Nat × Nat × W) =>
    if placeRegion s w.2.1 = some w.1 then
      let s := { s with mon := { s.mon with
        tabs := if s.mon.tabs.contains (w.2.1 / 4096) then s.mon.tabs else w.2.1 / 4096 :: s.mon.tabs } }
      instPoke w.1 w.2.1 w.2.2 s
    else s) s
def placeWrites (p : Placement) (s : State) : State := tableWrites p.writes s

/-- The pages that hold address-space entries and tables, to which no compartment has access (R424). -/
def tablePages (s : State) : List Nat := (List.range 4).map (fun r => 0x48000 + r * 0x800) ++ s.mon.tabs

/-- A placement gives no access to tables, overwrites nothing that a compartment has, and its leaves map its own objects,
cocoons and granted rings alone (R424). -/
def tablesApart (s : State) (m : List Byte) (cid : Nat) (p : Placement) : Bool :=
  let mine := occupied m p.seats p.objs
  let theirs := s.mon.comps.flatMap (fun e =>
    if e.1 = cid then [] else occupied e.2.man (e.2.thr.map (fun t => t.seat)) e.2.objs)
  let rings := (List.range (mNgr m)).flatMap (fun k =>
    if gKind m k = 4 then
      let g := gRef m k / 65536
      [(gridF s g 0x08 47 9 * 512, (512 * gridNch s g + 4095) / 4096 * 4096)]
    else [])
  let entry := fun (a : Nat) => decide (0x48000000 ≤ a) && decide (a < 0x4A000000) && decide (a % 0x800000 < 0x800)
  mine.all (fun x => (tablePages s ++ p.writes.map (fun (w : Nat × Nat × W) => w.2.1 / 4096)).all (fun t =>
      decide (4096 * t + 4096 ≤ x.1) || decide (x.1 + x.2 ≤ 4096 * t)))
    && p.writes.all (fun w =>
      theirs.all (fun x => decide (w.2.1 + 8 ≤ x.1) || decide (x.1 + x.2 ≤ w.2.1))
        && (entry w.2.1 || !(bit w.2.2 0 && bit w.2.2 1) || (mine ++ rings).any (fun x =>
            decide (x.1 / 4096 * 4096 ≤ entryPa w.2.2)
              && decide (entryPa w.2.2 + 2 ^ leafSize w.2.2 ≤ (x.1 + x.2 + 4095) / 4096 * 4096))))

/-- The gates admit the instances to the objects and cocoons of a placement (R428). -/
def gatesAdmit (t : State) (m : List Byte) (p : Placement) : Bool :=
  (occupied m p.seats p.objs).all (fun x => (pagePieces (x.2 / 4096 + 2) x.1 x.2).all (fun p =>
    match gateCheck t (0x100 + instanceAt t x.1) p.1 p.2 .write with | .ok _ => true | .error _ => false))

/-- The hard constraints on a placement of manifest `m`; temperature may override admission (R437). The gates written
for it make every cell of it one of its tenant's domain. -/
def placeOk (s : State) (m : List Byte) (hot : Bool) (p : Placement) : Bool :=
  let cid := mCid m
  decide (p.seats.length = mNthr m) && decide (p.objs.length = mNobj m) && p.asid != 0 && decide (p.asid < 256)
    && s.mon.comps.all (fun e => e.1 == cid || e.2.asid != p.asid)
    && (p.seats.zip (List.range 64)).all (fun x => cellAllowed s m x.2 x.1.cell false)
    && p.seats.all (fun x => decide (x.slot < 64) && x.tag != 0 && decide (x.tag < 65536)
        && ((slotOf (cellOf s x.cell) x.slot).state == 0
              || (seatsOf s cid).any (fun y => y.cell == x.cell && y.slot == x.slot))
        && !(usedTags s cid).contains x.tag && x.cpa % 16 == 0 && inCellStore x.cell x.cpa 1024
        && (hot || admits s.mon.par.ucap (levelMhz (alvl s (x.cell / 16)))
              (cellLoads s x.cell cid ++ ownLoads m p.seats x.cell)))
    && decide (p.seats.map (fun x => (x.cell, x.slot))).Nodup && decide (p.seats.map (fun x => x.tag)).Nodup
    && diverse s m cid p.seats && (List.range (mNobj m)).all (objPlaced m p.seats p.objs)
    && (occupied m p.seats p.objs).all (fun x => rangeServes s x.1 x.2) && apart s m cid p && grantsPresent s m
    && tablesApart s m cid p && spansOk s m (nearOf s cid) p
    && (let t := placeGates m cid p s
        gatesStand t m p && gatesAdmit t m p)
    && (let t := placeWrites p s
        objsMapped t m p.asid p.objs && cocoonsMapped t p.asid p.seats && ringsMapped t m p.asid p.rings)

/-! Effects. -/

/-- A compartment's objects as its manifest gives them: image, zeros beyond it, and the granted capabilities in
the globals (R427, R428). Objects to be kept hold what they held. -/
def loadObjects (keep : Nat → Bool) (m : List Byte) (p : Placement) (s : State) : State :=
  let one := fun (s : State) (j : Nat) =>
    let a := (p.objs.getD j (0, 0)).2
    if keep j then s else instStore a (slice m (oIoff m j) (oIlen m j)) (instZero a (oBytes m j) s)
  let s := (List.range (mNobj m)).foldl one s
  let g := (p.objs.getD (mGobj m) (0, 0)).2
  (List.range (mNgr m)).foldl (fun s k =>
    let c := grantCap s m p.objs p.rings k
    instStoreCap (g + 16 * gGoff m k) (capBytes c) c.tag s) s

/-- A cocoon written from a bank, granule by granule, by the instance of its region (R192, R193, R201). -/
def cocoonWrite (cpa : Nat) (k : Bank) (s : State) : State :=
  (List.range 8).foldl (fun s g =>
    let im := groupImage {} 0 k g
    let a := cpa + groupOff g
    (im.2.zip (List.range 64)).foldl (fun s t => instStoreCap (a + 16 * t.2) (slice im.1 (16 * t.2) 16) t.1 s) s)
    (instZero cpa 1024 s)

/-- A thread installed in its slot, ready or suspended, by the instance of its region (R201, R423, R440, R441). -/
def seatThread (m : List Byte) (i : Nat) (x : Seat) (st : Nat) (s : State) : State :=
  instDo true (x.cell / 64) (slotAt x.cell x.slot) (modCell x.cell (fun c => setSlot x.slot
    { state := st, prio := tPrio m i, quantum := tQuant m i, ctx := threadCtx x.cva, wmask := 0xFF, tid := x.tag } c)) s

/-- The threads' cocoons and slots from the manifest (R428). -/
def startThreads (m : List Byte) (p : Placement) (st : Nat) (s : State) : State :=
  (p.seats.zip (List.range 64)).foldl (fun s t =>
    seatThread m t.2 t.1 st (cocoonWrite t.1.cpa (threadBank m p.asid p.objs t.2 t.1.cva) s)) s

/-- The threads of a placement as Monarch keeps them. -/
def thrOf (m : List Byte) (p : Placement) (s : State) : List Thr :=
  (p.seats.zip (List.range 64)).map (fun t =>
    { seat := t.1, due := if tPeriod m t.2 = 0 then 0 else s.time.dur + tPeriod m t.2 * tUs })

/-- A compartment's slots set to a state (R201). -/
def compSlots (c : Comp) (st : Nat) (s : State) : State :=
  c.thr.foldl (fun s t => instSlot t.seat.cell t.seat.slot st s) s

/-- The gates written for a placement, its tenant's other compartments frozen meanwhile when the domain is widened or a
region of the tenant changes (R433, R440). -/
def tenantGates (m : List Byte) (cid : Nat) (p : Placement) (s : State) : State :=
  if needsFreeze (tenantOf s (mTenant m)) p then
    let l := tenantOthers s (mTenant m) cid
    let s := placeGates m cid p (l.foldl (fun s e => compSlots e.2 4 s) s)
    l.foldl (fun s e => compSlots e.2 1 s) s
  else placeGates m cid p s

/-- Near gate regions that a placement no longer uses are released. -/
def releaseOld (old : List GateSpan) (p : Placement) (s : State) : State :=
  (old.filter (fun x => !(nearSpans p).any (fun y => y.gate == x.gate && y.region == x.region))).foldl releaseSpan s

/-- The cycle estimate of a thread: the largest of its last 1,024 activations, times 1.25. -/
def estimate (l : List Nat) : Nat := l.foldl max 0 * 5 / 4

/-- The cost of a migration, by the typical times of R442: 35 us for one thread and 64 KiB, 2 us for each further thread,
and each further byte at 3.3 GB/s (DEDUCED, log entry 89). -/
def moveCost (m : List Byte) : Nat :=
  let n := (List.range (mNobj m)).foldl (fun a j => a + oBytes m j) 0
  (35 + 2 * (mNthr m - 1)) * tUs + (n - 65536) * 10 * 2 ^ 32 / 33

/-- A grid's window: the plane before has posted its doorbells, and the next instant is later than a time ahead (R440). -/
def gridWindow (s : State) (g need : Nat) : Bool :=
  let x := gridSt s g
  !gridEn s g || (x.planes.isEmpty && decide (((s.time.now + need : Nat) : Int) < instant s g x.next * 2 ^ 16))

/-- A compartment's window: every thread blocked with nothing of its bank still out (R89), and its next release, of its
period or of its grid, later than the cost and 10 us. -/
def windowOpen (s : State) (c : Comp) : Bool :=
  let need := moveCost c.man + 10 * tUs
  (c.thr.zip (List.range 64)).all (fun x =>
    let t := x.1
    let w := slotOf (cellOf s t.seat.cell) t.seat.slot
    w.state == 3 && !(match w.bank with | some b => bankOut (cellOf s t.seat.cell) b | none => false)
      && (t.due == 0 || decide (s.time.dur + need < t.due))
      && (!tGon c.man x.2 || gridWindow s (tGrid c.man x.2) need))

/-- The tenant-wide freeze that a placement needs may be made: every other compartment is in its window. -/
def freezeOpen (s : State) (m : List Byte) (cid : Nat) (p : Placement) : Bool :=
  !needsFreeze (tenantOf s (mTenant m)) p || (tenantOthers s (mTenant m) cid).all (fun e => windowOpen s e.2)

/-- A compartment started from its manifest at a placement: running, or on standby with its threads suspended
(R428, R447). -/
def startComp (keep : Nat → Bool) (m : List Byte) (p : Placement) (standby : Bool) (s : State) : State :=
  let cid := mCid m
  let s := tenantGates m cid p (placeWrites p s)
  let s := releaseOld (nearOf s cid) p s
  let s := loadObjects keep m p s
  let s := startThreads m p (if standby then 4 else 1) s
  let old := compOf s cid
  let c : Comp :=
    { man := m, asid := p.asid, state := if standby then 4 else 1, thr := thrOf m p s, objs := p.objs,
      rings := p.rings, near := nearSpans p, placed := s.time.dur }
  setComp cid (match old with
    | some o => { c with miss := o.miss, mig := o.mig, last := o.last, faults := o.faults, took := o.took, flt := o.flt }
    | none => c) s

/-- A compartment stopped: its slots suspended. -/
def stopComp (cid : Nat) (s : State) : State :=
  match compOf s cid with
  | some c => setComp cid { c with state := 3, move := none } (compSlots c 4 s)
  | none => s

/-- A compartment's slots freed (R429, R440). -/
def freeSlots (c : Comp) (s : State) : State :=
  c.thr.foldl (fun s t => instSlot t.seat.cell t.seat.slot 0 s) s

/-- Armed doorbells of the compartment's queues move with it, and the map entries with them (R440, step 7). -/
def moveDoorbells (m : List Byte) (src dst : Nat) (s : State) : State :=
  if src = dst then s
  else (List.range (mNgr m)).foldl (fun s k =>
    if gKind m k ≠ 2 then s
    else
      let q := gRef m k
      let r := queueRegion q
      match qFind r q s with
      | (d, s) =>
        if dEn d && bit (dW d 2) 7 && dFld d 2 21 12 == src then
          let n := dFld d 2 6 0
          let s := if instLive s r then qSave r (dPut 2 21 12 dst d) s else s
          instPoke (dst / 64) (ctlBase dst + 0x400 + 8 * n) (wd (regF s (ctlBase src + 0x400 + 8 * n) 2 0)) s
        else s) s

/-- Every translation of an address space that a cell holds is removed, as sys.t.invwalk with chip scope does (R251,
R440 step 5). -/
def dropAsid (asid : Nat) (s : State) : State :=
  { s with cells := s.cells.map (fun (e : Nat × Cell) =>
      (e.1, { e.2 with tlb := e.2.tlb.filter (fun t => t.asid != asid), wc := e.2.wc.filter (fun t => t.asid != asid) })) }

/-- A placement at which a compartment's ASID, virtual addresses and thread tags are what they were (R440, R441). -/
def sameView (c : Comp) (p : Placement) : Bool :=
  p.asid == c.asid && p.objs.map (fun o => o.1) == c.objs.map (fun o => o.1) && p.rings == c.rings
    && p.seats.map (fun x => (x.tag, x.cva)) == c.thr.map (fun t => (t.seat.tag, t.seat.cva))

/-- The threads whose seats change. -/
def movedSeats (c : Comp) (p : Placement) : List ((Thr × Seat) × Nat) :=
  ((c.thr.zip p.seats).zip (List.range 64)).filter (fun x => x.1.1.seat != x.1.2)

/-- The moving objects and cocoons copied by the DMA engines (R440, step 4): whether all of it was. The gate regions of the
destination stand already, for without them its gates admit no engine (R268, R433; DEDUCED, log entry 98). -/
def copyComp (c : Comp) (p : Placement) (s : State) : Bool × State :=
  let l := ((c.objs.zip p.objs).zip (List.range 256)).map (fun o => (o.1.1.2, o.1.2.2, oBytes c.man o.2))
    ++ (c.thr.zip p.seats).map (fun t => (t.1.seat.cpa, t.2.cpa, 1024))
  l.foldl (fun z x => let y := engineCopy x.1 x.2.1 x.2.2 z.2; (z.1 && y.1, y.2)) (true, s)

/-- The near gate regions of a placement that was not taken are released, but for those that the compartment has. -/
def releaseNew (c : Comp) (p : Placement) (s : State) : State :=
  ((nearSpans p).filter (fun x => !c.near.any (fun y => y.gate == x.gate && y.region == x.region))).foldl releaseSpan s

/-- A compartment moved to another placement, its gates written and its contents copied already (R440, steps 5 to 8; R451):
the threads whose seats change are taken from their slots, with what a cancelled or completed wait left there (R311), and
installed, and their activations released (R435); the others go on. -/
def moveComp (cid : Nat) (c : Comp) (p : Placement) (s : State) : State :=
  let m := c.man
  let l := movedSeats c p
  let s := dropAsid c.asid (placeWrites p s)
  let s := l.foldl (fun s x => moveDoorbells m x.1.1.seat.cell x.1.2.cell s) s
  let was := l.map (fun x => slotOf (cellOf s x.1.1.seat.cell) x.1.1.seat.slot)
  let s := l.foldl (fun s x => instSlot x.1.1.seat.cell x.1.1.seat.slot 0 s) s
  let s := l.foldl (fun s x => seatThread m x.2 x.1.2 1 s) s
  let s := (l.zip was).foldl (fun s x =>
    let y := x.1.1.2
    instDo true (y.cell / 64) (slotAt y.cell y.slot) (modCell y.cell (fun c =>
      setSlot y.slot { slotOf c y.slot with resume := x.2.resume, fin := x.2.fin, seq := x.2.seq } c)) s) s
  let s := (c.thr.zip p.seats).foldl (fun s x =>
    if x.1.seat = x.2 ∧ (slotOf (cellOf s x.2.cell) x.2.slot).state = 4 then instSlot x.2.cell x.2.slot 1 s else s) s
  let thr := (c.thr.zip p.seats).map (fun t =>
    if t.1.seat = t.2 then t.1
    else { t.1 with seat := t.2, rel := some (t.1.rel.getD s.time.dur), cyc := 0 })
  let s := releaseOld c.near p s
  let s := c.held.foldl (fun s n => match compOf s n with | some x => compSlots x 1 s | none => s) s
  setComp cid { c with state := 1, thr := thr, objs := p.objs, rings := p.rings, asid := p.asid, move := none,
                       near := nearSpans p, held := [], gain := none } s

/-- A Monarch event (R456); each concerns a compartment or a block. -/
def monEvent (code unit about : Nat) (s : State) : State := logFree 0x07 code unit about s

/-- A placed manifest recorded for the settings journal, unless it stands there already (R426, R473, R485). -/
def journalManifest (cid : Nat) (m : List Byte) (s : State) : State :=
  match manRec s cid with
  | some r => if r.data = m then s else manPut cid (some { gen := r.gen + 1, data := m }) s
  | none => manPut cid (some { gen := 1, data := m }) s

/-- An ASID released: its entry is invalid in every region, and no cell holds a translation of it. -/
def releaseAsid (asid : Nat) (s : State) : State :=
  let s := (List.range 4).foldl (fun s r => instPoke r (0x48000000 + r * 0x800000 + 8 * asid) 0 s) s
  dropAsid asid s

/-- A compartment unloaded (R429): threads freed, objects, gate regions and ASID released. -/
def unload (cid : Nat) (s : State) : State :=
  match compOf s cid with
  | none => { s with mon := { s.mon with wait := s.mon.wait.filter (fun w => w.1 != cid) } }
  | some c =>
    let s := releaseAsid c.asid (c.near.foldl releaseSpan (freeSlots c s))
    tenantEnd (mTenant c.man) (manPut cid none { s with mon := { s.mon with comps := tblDel cid s.mon.comps } })

end Sys2Proof.Machine
end

