-- ==== Sys2Proof/Machine/Goals.lean ====
section
/-! DEFINITION. The soft goals of placement (R431): what each is measured by, their ranking, and the gain that a move
must have kept for eight epochs. -/

namespace Sys2Proof.Machine

/-- The level at which a block runs (R30, R438). -/
def blockMhz (s : State) (b : Nat) : Nat := levelMhz (alvl s b)

/-- The compartments with one of them at another placement. -/
def compsAt (s : State) (cid : Nat) (p : Placement) : Tbl Comp :=
  s.mon.comps.map (fun e =>
    if e.1 = cid then
      (e.1, { e.2 with thr := (e.2.thr.zip p.seats).map (fun x => { x.1 with seat := x.2 }), objs := p.objs })
    else e)

/-- A thread as the goals see it: its compartment, its number, and what Monarch keeps of it. -/
def placedThreads (l : Tbl Comp) : List (Nat × Comp × Nat × Thr) :=
  l.flatMap (fun e => (e.2.thr.zip (List.range 64)).map (fun t => (e.1, e.2, t.2, t.1)))

/-- A thread's cycle estimate; its budget until an activation has been measured (R435). -/
def cycleNeed (c : Comp) (i : Nat) (t : Thr) : Nat := if t.est.isEmpty then tBudget c.man i else estimate t.est

/-- The projected slack of a thread at a clock of `mhz`, in ns times `mhz`: its deadline less the estimates of the
threads of its cell that do not yield to it, its own among them. The spec gives no formula (DESIGN CHOICE, log entry
66). -/
def slackTimes (l : Tbl Comp) (mhz : Nat) (c : Comp) (i : Nat) (t : Thr) : Int :=
  let near := (placedThreads l).filter (fun x =>
    x.2.2.2.seat.cell == t.seat.cell && decide (tPrio c.man i ≤ tPrio x.2.1.man x.2.2.1))
  let cyc := near.foldl (fun a x => a + cycleNeed x.2.1 x.2.2.1 x.2.2.2) 0
  ((tDline c.man i * 1000 * mhz : Nat) : Int) - (cyc * 1000 : Nat)

/-- Goal 1 for a thread: its projected slack is at least slackmin per cent of its deadline. -/
def slackMet (s : State) (l : Tbl Comp) (mhz : Nat) (c : Comp) (i : Nat) (t : Thr) : Bool :=
  decide (((s.mon.par.slackmin * tDline c.man i * 1000 * mhz : Nat) : Int) ≤ 100 * slackTimes l mhz c i t)

/-- Threads that miss goal 1. -/
def slackShort (s : State) (l : Tbl Comp) : Nat :=
  ((placedThreads l).filter (fun x =>
    !slackMet s l (blockMhz s (x.2.2.2.seat.cell / 16)) x.2.1 x.2.2.1 x.2.2.2)).length

/-- Ready, running or blocked threads of priority 8 or above beyond the five thread banks of their cell (goal 2). -/
def bankShort (l : Tbl Comp) : Nat :=
  ((List.range 256).map (fun n =>
    ((placedThreads l).filter (fun x => x.2.2.2.seat.cell == n && decide (8 ≤ tPrio x.2.1.man x.2.2.1)
      && (x.2.1.state == 1 || x.2.1.state == 2))).length - 5)).foldl (· + ·) 0

/-- The links that the sampled traffic of threads to their compartments' objects crosses (goal 3, R434). -/
def linkLoad (s : State) (l : Tbl Comp) : Nat :=
  (placedThreads l).foldl (fun a x =>
    (x.2.1.objs.zip (List.range 256)).foldl (fun a o =>
      a + Config.traffic s.mon.epoch x.1 x.2.2.1 o.2
        * (pathLinks (initSite x.2.2.2.seat.cell) (addrSite s o.1.2)).length) a) 0

/-- Grid-affine threads outside the region whose channel holds the ring under local mapping (goal 3). -/
def gridsFar (s : State) (l : Tbl Comp) : Nat :=
  if s.striped then 0
  else ((placedThreads l).filter (fun x => tGon x.2.1.man x.2.2.1
    && ddrChannel s (reg s (0x62300008 + 0x1000 * tGrid x.2.1.man x.2.2.1)).toNat != x.2.2.2.seat.cell / 64)).length

/-- The loads of a cell's threads by their cycle estimates. -/
def estLoads (l : Tbl Comp) (cell : Nat) : List (Nat × Nat) :=
  ((placedThreads l).filter (fun x => x.2.2.2.seat.cell == cell)).map (fun x =>
    (cycleNeed x.2.1 x.2.2.1 x.2.2.2,
      if tPeriod x.2.1.man x.2.2.1 = 0 then tDline x.2.1.man x.2.2.1 else tPeriod x.2.1.man x.2.2.1))

/-- A block qualifies at a level (R438): every cell passes admission with the cycle estimates, and every thread meets
goal 1. -/
def levelQualifies (s : State) (l : Tbl Comp) (b k : Nat) : Bool :=
  (List.range 16).all (fun c => admits s.mon.par.ucap (levelMhz k) (estLoads l (16 * b + c)))
    && (placedThreads l).all (fun x =>
      x.2.2.2.seat.cell / 16 != b || slackMet s l (levelMhz k) x.2.1 x.2.2.1 x.2.2.2)

/-- The lowest level at which a block qualifies; P0 when none does. -/
def lowestLevel (s : State) (l : Tbl Comp) (b : Nat) : Nat :=
  ((([3, 2, 1, 0] : List Nat)).find? (fun k => levelQualifies s l b k)).getD 0

/-- Block power, as the clocks of the blocks that hold threads (goal 4): Monarch has the regulators' telemetry for the
placement it has, and the spec gives no projection (DESIGN CHOICE, log entry 66). -/
def powerOf (s : State) (l : Tbl Comp) : Nat :=
  ((List.range 16).map (fun b =>
    if (placedThreads l).any (fun x => x.2.2.2.seat.cell / 16 == b) then levelMhz (lowestLevel s l b) else 0)).foldl
      (· + ·) 0

/-- Threads in blocks above tthr, which the goals move away (R437): they rank first (DESIGN CHOICE, log entry 66). -/
def hotThreads (s : State) (l : Tbl Comp) : Nat :=
  ((placedThreads l).filter (fun x => blockHot s (x.2.2.2.seat.cell / 16))).length

/-- The measures of a placement of everything, in the order of the goals. -/
def goalScore (s : State) (l : Tbl Comp) : List Nat :=
  [hotThreads s l, slackShort s l, bankShort l, gridsFar s l, linkLoad s l, powerOf s l]

/-- A goal ranks above every goal after it. -/
def scoreLt : List Nat → List Nat → Bool
  | a :: l, b :: r => decide (a < b) || (a == b && scoreLt l r)
  | _, _ => false

/-- A compartment would be better at a placement: some goal gains and none above it loses; goal 5 keeps it where it is
otherwise. -/
def moveGains (s : State) (cid : Nat) (p : Placement) : Bool :=
  scoreLt (goalScore s (compsAt s cid p)) (goalScore s s.mon.comps)

/-- The consecutive epochs, this one included, for which a move has been proposed and has gained (DESIGN CHOICE, log entry
66). -/
def gainEpochs (s : State) (c : Comp) (cid : Nat) (p : Placement) : Nat :=
  if !moveGains s cid p then 0
  else match c.gain with
    | some (q, n, e) => if q = p ∧ e + 1 = s.mon.epoch then n + 1 else 1
    | none => 1

end Sys2Proof.Machine
end

