-- ==== Sys2Proof/Machine/Monarch.lean ====
section
/-! DEFINITION. Monarch at work (R425, R429, R434 to R443, R451 to R454): manifests placed, activations, thermal limits,
migration, stops and faults. What Monarch chooses comes with the commands; whether it may is checked here. -/

namespace Sys2Proof.Machine

/-! Activations (R435). -/

/-- One thread of a compartment changed. -/
def modThr (cid i : Nat) (f : Thr → Thr) (s : State) : State :=
  match compOf s cid with
  | some c =>
    match c.thr[i]? with
    | some t => setComp cid { c with thr := c.thr.set i (f t) } s
    | none => s
  | none => s

/-- A deadline miss counted and recorded; none is while the chip is in standby (R535). -/
def deadlineMiss (cid : Nat) (s : State) : State :=
  match compOf s cid with
  | some c => monEvent 0x01 cid cid (setComp cid { c with miss := satInc32 c.miss } s)
  | none => s

/-- An activation released. -/
def release (cid i : Nat) (s : State) : State :=
  match compOf s cid with
  | none => s
  | some c =>
    match c.thr[i]? with
    | none => s
    | some t =>
      let run := (slotOf (cellOf s t.seat.cell) t.seat.slot).runcyc
      modThr cid i (fun t => { t with rel := some s.time.dur, cyc := run }) s

/-- An activation completed: its slack, and the cycles that it took. -/
def complete (cid i : Nat) (s : State) : State :=
  match compOf s cid with
  | none => s
  | some c =>
    match c.thr[i]? with
    | none => s
    | some t =>
      match t.rel with
      | none => s
      | some r =>
        let run := (slotOf (cellOf s t.seat.cell) t.seat.slot).runcyc
        let slack : Int := (tDline c.man i * 1000 : Nat) - (((s.time.dur - r) / 2 ^ 32 : Nat) : Int)
        let est := ((run - t.cyc) :: t.est).take 1024
        let least := match c.slack with | some x => min x slack | none => slack
        let s := setComp cid { c with slack := some least, thr := c.thr.set i { t with rel := none, est := est, ran := true } } s
        let s := if slack < 0 then deadlineMiss cid s else s
        if tBudget c.man i < estimate est ∧ estimate t.est ≤ tBudget c.man i then monEvent 0x02 cid i s else s

/-- Placed threads of a core, as compartment and thread numbers with their slots. -/
def coreThreads (s : State) (core : Nat) : List (Nat × Nat × Nat) :=
  s.mon.comps.flatMap (fun e =>
    ((e.2.thr.zip (List.range 64)).filter (fun t => t.1.seat.cell == core)).map (fun t => (e.1, t.2, t.1.seat.slot)))

/-- A Monarch event (R456) about a compartment with a fault's cause, faddr and finfo (R454). -/
def faultEvent (code cid : Nat) (f : W × W × W) (s : State) : State :=
  logWords 0x07 code cid [wd cid, f.1, f.2.1, f.2.2] s

/-- Faults of a compartment within the last second. -/
def recentFaults (s : State) (c : Comp) : List Nat := c.faults.filter (fun t => decide (s.time.dur < t + tSec))

/-- A compartment stopped for a fault: its slots suspended, by their regions' instances and at once. -/
def stopNow (cid : Nat) (s : State) : State :=
  match compOf s cid with
  | some c => setComp cid { c with state := 3, move := none } (c.thr.foldl (fun s t =>
      instDo false (t.seat.cell / 64) (slotAt t.seat.cell t.seat.slot) (slotState t.seat.cell t.seat.slot 4) s) s)
  | none => s

/-- A fault stops its compartment (R454): fpol 0 leaves it stopped, fpol 2 after three faults within 1 s. A stop for good is
recorded as event 0x0E; a stop that a restart follows is recorded with it, as event 0x0A (DESIGN CHOICE, log entry 90). -/
def compFault (cid : Nat) (f : W × W × W) (s : State) : State :=
  match compOf s cid with
  | none => s
  | some c =>
    let l := s.time.dur :: recentFaults s c
    let halt := c.halt || mFpol c.man == 0 || (mFpol c.man == 2 && decide (3 ≤ l.length))
    let t := stopNow cid (setComp cid { c with faults := l, halt := halt, flt := some f } s)
    if halt then faultEvent 0x0E cid f t else t

/-- The running compartment whose thread has just faulted: a synchronous fault of a thread has entered level 1 (R203, R205,
R454). -/
def faulted (core : Nat) (before s : State) : Option (Nat × W × W × W) :=
  let b := cellOf before core
  let c := cellOf s core
  let k := runBank c
  if b.run < 5 ∧ c.run = 5 ∧ 0 < fld k.cause 7 0 ∧ fld k.cause 7 0 < 0x40 then
    c.cur.bind (fun n => ((coreThreads s core).find? (fun t => t.2.2 == n)).bind (fun t =>
      match compOf s t.1 with
      | some x => if x.state = 1 then some (t.1, k.cause, k.faddr, k.finfo) else none
      | none => none))
  else none

/-- A fault of a compartment's thread that reaches the level-1 handler has its compartment stopped. -/
def noteFault (core : Nat) (before s : State) : State :=
  match faulted core before s with
  | some (cid, f) => compFault cid f s
  | none => s

/-- A thread has no activation in progress. -/
def idleThr (s : State) (cid i : Nat) : Bool :=
  match compOf s cid with
  | some c => (match c.thr[i]? with | some t => t.rel.isNone | none => false)
  | none => false

/-- What a command on a core means for the activations of its threads: a slot that leaves the blocked state releases
one, at once or when the thread goes on after a freeze, a slot that enters it completes one; `yielded` names a slot whose thread has yielded. -/
def watch (core : Nat) (before : State) (yielded : Option Nat) (s : State) : State :=
  (coreThreads before core).foldl (fun s t =>
    let was := (slotOf (cellOf before core) t.2.2).state
    let is := (slotOf (cellOf s core) t.2.2).state
    if was ≠ 3 ∧ is = 3 then complete t.1 t.2.1 s
    else if (was = 3 ∧ is ≠ 3 ∧ is ≠ 0 ∧ is ≠ 4) ∨ (was = 4 ∧ (is = 1 ∨ is = 2) ∧ idleThr s t.1 t.2.1) then release t.1 t.2.1 s
    else if yielded = some t.2.2 then complete t.1 t.2.1 s
    else s) (noteFault core before s)

/-- The activations of the threads of every core that an event may wake. -/
def watchAll (before : State) (s : State) : State :=
  s.cells.foldl (fun s e => watch e.1 before none s) s

/-- A period boundary of a thread (R435): an activation not completed is missed, and a thread that is not blocked is
released anew. -/
def activationRelease (cid i : Nat) (s : State) : State :=
  match compOf s cid with
  | none => s
  | some c =>
    match c.thr[i]? with
    | none => s
    | some t =>
      let p := tPeriod c.man i
      if p = 0 ∨ s.time.dur < t.due ∨ c.state ≠ 1 ∨ pstateOf s ≠ 0 then s
      else
        let s := if t.rel.isSome then deadlineMiss cid s else s
        let s := modThr cid i (fun t => { t with due := t.due + p * tUs }) s
        let st := (slotOf (cellOf s t.seat.cell) t.seat.slot).state
        if st = 1 ∨ st = 2 then release cid i s else s

/-! Temperature (R434, R437). -/

/-- A block's sensors read, while the block is supplied; at 110 C the hardware forces it (R434, R526). -/
def temperatureSample (b : Nat) (l : List (BitVec 16)) (s : State) : State :=
  if 16 ≤ b ∨ !blocksSupplied s then s
  else if 1100 ≤ hottest l ∧ pstateOf s ≠ 1 then thermalForce b l s
  else setTemps b l s

def monBlk (s : State) (b : Nat) : MonBlk := tblGet {} s.mon.blks b
def setMonBlk (b : Nat) (x : MonBlk) (s : State) : State :=
  { s with mon := { s.mon with blks := tblSet b x s.mon.blks } }

/-- Monarch writes a block's request word through its regional instance. -/
def blockRequest (b : Nat) (f : W → W) (s : State) : State := instPoke (b / 4) (regAddr b) (f (reg s (regAddr b))) s

/-- The thermal limits at the end of an epoch: a hot block is lowered one level, down to P3, unless its region's instance is
lost (R425). -/
def thermalStep (s : State) (b : Nat) : State :=
  let x := monBlk s b
  if blockHot s b then
    let s := setMonBlk b { x with cool := 0, low := x.low || decide (lvlOf s b < 3), at_ := s.mon.epoch + 1 } s
    if lvlOf s b < 3 ∧ instLive s (b / 4) then
      monEvent 0x05 b b (blockRequest b (fun w => setFld w 1 0 (lvlOf s b + 1)) s)
    else s
  else if hottest (temps s b) < s.mon.par.tthr * 10 - 50 then setMonBlk b { x with cool := min 10 (x.cool + 1) } s
  else setMonBlk b { x with cool := 0 } s

/-- Threads placed in a block. -/
def blockThreads (s : State) (b : Nat) : Nat :=
  s.mon.comps.foldl (fun n e => n + (e.2.thr.filter (fun t => t.seat.cell / 16 == b)).length) 0

/-- Epochs for which a block has been idle or below without a thread (R439), and for which each level has qualified (R438). -/
def idleStep (s : State) (b : Nat) : State :=
  let x := monBlk s b
  let q := (List.range 4).map (fun k =>
    if levelQualifies s s.mon.comps b k then min 10 (x.qual.getD k 0 + 1) else 0)
  setMonBlk b { x with idle := if blockThreads s b = 0 ∧ 1 ≤ astOf s b then x.idle + 1 else 0, qual := q } s

/-- A block keeps near objects, or contents of its scratch ways (R439). -/
def blockKeeps (s : State) (b : Nat) : Bool :=
  s.mon.comps.any (fun e => ((e.2.objs.zip (List.range 256)).any (fun o =>
    inBlockStore b o.1.2 (oBytes e.2.man o.2)
      || (List.range 16).any (fun c => inCellStore (16 * b + c) o.1.2 (oBytes e.2.man o.2)))))
  || s.mem.any (fun x => decide (0x44000000 + b * 0x400000 ≤ x.1) && decide (x.1 < 0x44000000 + (b + 1) * 0x400000)
      && wayScratch s b ((x.1 - 0x44000000) % 0x400000 / 0x80000))

/-- Blocks of a region out of nap and off, and not on their way there, that hold no thread. -/
def spares (s : State) (r : Nat) : Nat :=
  ((List.range 4).filter (fun i => blockThreads s (4 * r + i) == 0 && decide (astOf s (4 * r + i) < 2)
    && decide (bstOf s (4 * r + i) < 2) && !s.offline.contains (4 * r + i))).length

/-! Migration (R440, R443). -/

/-- A soft action is allowed: in automatic mode, or when the confirmed proposal is this one (R444, R445); in frozen mode
nap and off, kind 3, alone. -/
def allowed (s : State) (kind target arg : Nat) (place : Option Placement := none) : Bool :=
  match s.mon.par.mode with
  | 0 => true
  | 1 => (match s.mon.prop with
          | some p => p.ok && p.kind == kind && p.target == target && p.arg == arg && p.place == place
          | none => false)
  | _ => kind == 3

/-- A confirmed proposal has been carried out. -/
def proposalUsed (kind target : Nat) (s : State) : State :=
  match s.mon.prop with
  | some p => if p.ok ∧ p.kind = kind ∧ p.target = target then { s with mon := { s.mon with prop := none } } else s
  | none => s

/-- Compartments in migration. -/
def migrating (s : State) : Nat := (s.mon.comps.filter (fun e => e.2.move.isSome)).length

/-- A thread's dirty groups written to its cocoon, with what units still had to write to its bank (R89): whether they were. -/
def flushSeat (t : Thr) (s : State) : Bool × State :=
  match (slotOf (cellOf s t.seat.cell) t.seat.slot).bank with
  | some b =>
    if (cellOf s t.seat.cell).stopped then (true, s)
    else
      (match spillBank t.seat.cell t.seat.slot b .ok 8 (modCell t.seat.cell (bankSettle b) s) with
       | (u, none) => (true, u)
       | (u, some _) => (false, modCell t.seat.cell (fun c => { c with heldUp := false }) u))
  | none => (true, s)

/-- The threads of a compartment suspended, their waits cancelled (R311), and flushed: whether all were. -/
def freezeComp (c : Comp) (s : State) : Bool × State :=
  c.thr.foldl (fun z t => let y := flushSeat t z.2; (z.1 && y.1, y.2)) (true, compSlots c 4 s)

/-- Compartments that a migration holds frozen go on. -/
def thawHeld (l : List Nat) (s : State) : State :=
  l.foldl (fun s n => match compOf s n with | some x => compSlots x 1 s | none => s) s

/-- A migration starts (steps 1 to 3): slots suspended, waits cancelled, dirty groups spilled; those of the whole tenant
when its domain is widened. When a group cannot be spilled the threads go on where they are. -/
def migrationStart (cid : Nat) (c : Comp) (p : Placement) (s : State) : State :=
  let l := if needsFreeze (tenantOf s (mTenant c.man)) p then tenantOthers s (mTenant c.man) cid else []
  match l.foldl (fun z e => let y := freezeComp e.2 z.2; (z.1 && y.1, y.2)) (freezeComp c s) with
  | (true, s) => setComp cid { c with state := 2, move := some p, held := l.map (fun e => e.1) } s
  | (false, s) => setComp cid c (thawHeld (l.map (fun e => e.1)) (compSlots c 1 s))

/-- A thread's cell, or the memory of what it holds there, is lost: it stands in a fenced region, in a block offline or off,
or on a stopped cell. -/
def seatLost (s : State) (x : Seat) : Bool :=
  regionOut s (x.cell / 64) || s.offline.contains (x.cell / 16) || astOf s (x.cell / 16) == 3
    || (cellOf s x.cell).stopped || !(cellOf s x.cell).powered

/-- A compartment has lost a seat. -/
def compLost (s : State) (c : Comp) : Bool := c.thr.any (fun t => seatLost s t.seat)

/-- The source of a move has been lost: its cells are out of service, or its memory (R443). -/
def sourceLost (s : State) (c : Comp) : Bool :=
  c.thr.any (fun t => match targetOf s t.seat.cpa with | .gate _ => false | _ => true)
    || c.objs.any (fun o => match targetOf s o.2 with | .gate _ => false | _ => true)

/-- A migration abandoned: the source is intact, and the compartment resumes where it was. When the source is lost, it is
stopped, to be restarted under R453. -/
def migrationAbandon (cid : Nat) (s : State) : State :=
  match compOf s cid with
  | some c =>
    if c.move.isSome then
      let s := thawHeld c.held s
      monEvent 0x04 cid cid
        (if sourceLost s c then stopComp cid (setComp cid { c with held := [] } s)
         else setComp cid { c with state := 1, move := none, held := [] } (compSlots c 1 s))
    else s
  | none => s

/-- The gates are written, the copy ends and the slots are installed (steps 4 to 8), unless the destination has been lost, a
hard constraint would be broken (R430) or the copy fails: the gates are then as they were. A compartment of the tenant that
was placed since is frozen with the others in its own window. -/
def migrationInstall (cid : Nat) (s : State) : State :=
  match compOf s cid with
  | none => s
  | some c =>
    match c.move with
    | none => s
    | some p =>
      let n := mTenant c.man
      let old := tenantOf s n
      let hot := !placeOk s c.man false p
      if needsFreeze old p ∧ !(tenantOthers s n cid).all (fun e => c.held.contains e.1 || windowOpen s e.2) then s
      else if (!hot ∨ (heatBars s c.man ∧ placeOk s c.man true p)) ∧ !sourceLost s c then
        (match copyComp c p (tenantGates c.man cid p s) with
         | (true, s) =>
           let t := monEvent 0x03 cid cid (moveComp cid { c with mig := satInc32 c.mig } p s)
           if hot then monEvent 0x0B cid cid t else t
         | (false, s) => migrationAbandon cid (gatesBack n old p (releaseNew c p s)))
      else migrationAbandon cid s

/-- Migrations whose destination or source has been lost, or the instance of its region, are abandoned (R425, R443). -/
def migrationsCheck (s : State) : State :=
  s.mon.comps.foldl (fun s e =>
    match e.2.move with
    | some p =>
      if p.seats.all (fun x => cellServes s x.cell) ∧ !sourceLost s e.2 ∧ !e.2.thr.any (fun t => s.hubLost.contains (t.seat.cell / 64))
      then s else migrationAbandon e.1 s
    | none => s) s

/-! Placement of manifests (R426, R429, R437). -/

/-- Everything placed, with a compartment's threads at given seats. -/
def withSeats (s : State) (m : List Byte) (p : Placement) (seats : List Seat) : Tbl Comp :=
  s.mon.comps.filter (fun e => e.1 != mCid m) ++
    [(mCid m, { man := m, asid := p.asid, state := 1, thr := seats.map (fun x => { seat := x }), objs := p.objs, rings := p.rings })]

/-- The projected slack of a thread at a seat, as a fraction: ns times the clock, and the clock. -/
def seatSlack (s : State) (m : List Byte) (p : Placement) (i cell : Nat) : Int × Nat :=
  let seats := (p.seats.zip (List.range 64)).map (fun x => if x.2 = i then { x.1 with cell := cell } else x.1)
  let l := withSeats s m p seats
  let mhz := blockMhz s (cell / 16)
  match tblFind l (mCid m) with
  | some c => (slackTimes l mhz c i (c.thr.getD i { seat := ⟨cell, 0, 0, 0, 0⟩ }), mhz)
  | none => (0, mhz)

/-- Each thread stands where its projected slack is greatest (R437). -/
def slackGreatest (s : State) (m : List Byte) (p : Placement) : Bool :=
  (p.seats.zip (List.range 64)).all (fun x =>
    let a := seatSlack s m p x.2 x.1.cell
    (List.range 256).all (fun c => !cellAllowed s m x.2 c false ||
      (let b := seatSlack s m p x.2 c
       decide (b.1 * (a.2 : Int) ≤ a.1 * (b.2 : Int)))))

/-- A thermal limit leaves no placement that passes admission, and this one does what R437 then asks. -/
def overridden (s : State) (m : List Byte) (p : Placement) : Bool :=
  heatBars s m && placeOk s m true p && slackGreatest s m p

/-- No other cell for one of the threads `js` alone, on which the hard constraints hold, serves the soft goals better; a
thread with near objects stays with them (R431; DESIGN CHOICE, log entry 66). -/
def pursues (s : State) (m : List Byte) (p : Placement) (js : List Nat) : Bool :=
  let cid := mCid m
  let here := goalScore s (withSeats s m p p.seats)
  js.all (fun i => (List.range (mNobj m)).any (fun j => oClass m j == 0 && oOwner m j == i)
    || (List.range 256).all (fun c =>
      let seats := (p.seats.zip (List.range 64)).map (fun x => if x.2 = i then { x.1 with cell := c } else x.1)
      !(cellAllowed s m i c false && diverse s m cid seats
          && admits s.mon.par.ucap (levelMhz (alvl s (c / 16))) (cellLoads s c cid ++ ownLoads m seats c))
        || !scoreLt (goalScore s (withSeats s m p seats)) here))

/-- A placement is within the hard constraints and serves the goals, or is made against a thermal limit (R430, R431,
R437). -/
def placeGood (s : State) (m : List Byte) (p : Placement) (js : List Nat) : Bool :=
  (placeOk s m false p && pursues s m p js) || overridden s m p

/-- The result that placing a waiting manifest has (R429): 0x04 and 0x07 are seen from the manifest itself; the others come with
the choice, 0x03 only where admission fails on every permitted cell, 0x04 only where diversity alone bars the seats, 0x05
only where the near objects and cocoons do not fit as the model fills the stores (log entry 30), and 0x06 only where no ASID
or no gate region is free. -/
def placeResult (s : State) (m : List Byte) (p : Placement) : Option Nat :=
  if votersSplit s m then some 0x04
  else if !grantsPresent s m then some 0x07
  else match p.code with
    | 0 => if placeGood s m p (List.range (mNthr m)) && freezeOpen s m (mCid m) p then some 0 else none
    | 3 => if !canSeat s m {} && !heatBars s m && (canSeat s m { adm := false } || !canSeat s m { adm := false, div := false })
        then some 3 else none
    | 4 => if !canSeat s m { adm := false } && canSeat s m { adm := false, div := false } then some 4 else none
    | 5 => if canSeat s m { adm := !heatBars s m } && !hasPlace s m then some 5 else none
    | 6 => if (List.range 256).all (fun a => a == 0 || s.mon.comps.any (fun e => e.2.asid == a))
              || (List.range 0x118).any (fun g => (freeRegion s g).isNone) then some 6 else none
    | _ => none

/-- A waiting manifest is in its turn: a journalled one while the device is configuring (R426). -/
def inTurn (s : State) (w : Nat × List Byte) : Bool :=
  s.dev == 0 || !(match manRec s w.1 with | some r => r.data == w.2 | none => false)

/-- The oldest waiting manifest in its turn placed, or refused after placement was tried (R429), once an epoch has taken it up
(R436). At a start the journalled ones are placed while the device is configuring (R426). A mirrored compartment starts on
standby (R447). -/
def manifestPlaced (cid : Nat) (p : Placement) (s : State) : State :=
  match s.mon.wait.find? (inTurn s) with
  | none => s
  | some (n, m) =>
    if n ≠ cid ∨ !s.mon.taken.contains cid then s
    else match placeResult s m p with
      | none => s
      | some r =>
        let s := { s with mon := { s.mon with wait := s.mon.wait.filter (fun w => w.1 != cid),
                                              taken := s.mon.taken.filter (fun x => x != cid) } }
        if r = 0 then
          let hot := !placeOk s m false p
          let s := setResult 0 cid (journalManifest cid m (startComp (fun _ => false) m p (mTwin m != 0) s))
          if hot then monEvent 0x0B cid cid s else s
        else
          let s := setResult r cid s
          { s with mon := { s.mon with failed := true } }

/-! Faults and stops (R451 to R454). -/

/-- A slot of the compartment stands in its cell's lost mask (R217, R451). -/
def slotLost (s : State) (c : Comp) : Bool :=
  c.thr.any (fun t => (cellOf s t.seat.cell).stopped && bit (reg s (ctlBase t.seat.cell + 0x58)) t.seat.slot)

/-- A running compartment with a lost slot is stopped, and its fault policy is applied (R451). -/
def lostStep (s : State) : State :=
  s.mon.comps.foldl (fun s e =>
    if e.2.state = 1 ∧ slotLost s e.2 then compFault e.1 (e.2.flt.getD (0, 0, 0)) s else s) s

/-- The partner, and not this module, takes a lost compartment on: a hot one that ran here (R452, R453). -/
def partnerTakes (s : State) (c : Comp) : Bool :=
  mTwin c.man == 2 && s.twin.state == 1 && c.state != 4
    && c.thr.any (fun t => regionOut s (t.seat.cell / 64) || s.offline.contains (t.seat.cell / 16))

/-- A compartment has a thread that waits on a queue of a fenced region, on a cell in service (R322). -/
def waitsOut (s : State) (t : Thr) : Bool :=
  let w := slotOf (cellOf s t.seat.cell) t.seat.slot
  w.state == 3 && regionOut s (queueRegion w.waitq) && !seatLost s t.seat

/-- A compartment whose place is lost, or which its fault policy has restarted, is to be decided on: it is not in a region
whose instance is lost, where forced re-placements are refused (R425), nor left stopped for good. -/
def mustDecide (s : State) (c : Comp) : Bool :=
  !c.halt && (c.state == 3 || (c.state == 1 && compLost s c)) && !c.thr.any (fun t => s.hubLost.contains (t.seat.cell / 64))

/-- A compartment stopped, or lost with what it had there, may be restarted from its manifest at a placement, with new tags
(R441, R451 to R454), once every migration has ended (R443). -/
def mayRestart (s : State) (c : Comp) (p : Placement) : Bool :=
  !c.halt && (c.state == 3 || (compLost s c && (slotLost s c || sourceLost s c || c.state == 4))) && !partnerTakes s c
    && migrating s == 0 && !c.thr.any (fun t => s.hubLost.contains (t.seat.cell / 64))
    && placeGood s c.man p (List.range (mNthr c.man)) && p.seats.all (fun x => !c.thr.any (fun t => t.seat.tag == x.tag))

/-- The restart; a standby copy keeps the mirror state that it holds, moved to the new place (R453). Under the fault policy it
is recorded (R454, R456). -/
def compRestart (cid : Nat) (p : Placement) (s : State) : State :=
  match compOf s cid with
  | none => s
  | some c =>
    if !mayRestart s c p then s
    else
      let hot := !placeOk s c.man false p
      let held := if c.state = 4 ∧ mTwin c.man = 2 then
          ((c.objs.zip p.objs).zip (List.range 256)).filterMap (fun o =>
            if oMir c.man o.2 then (instRead s o.1.1.2 (oBytes c.man o.2)).map (fun b => (o.1.2.2, b)) else none) else []
      let t := startComp (fun _ => false) c.man p (c.state == 4) (freeSlots c s)
      let t := held.foldl (fun t x => instStore x.1 x.2 t) t
      let t := if c.state = 3 ∨ slotLost s c then faultEvent 0x0A cid (c.flt.getD (0, 0, 0)) t else t
      if hot then monEvent 0x0B cid cid t else t

/-- A forced re-placement of the threads of lost cells may be made at a placement (R451, R452): their cocoons are intact, the
others stay where they are, and every migration has ended (R443). -/
def mayReplace (s : State) (c : Comp) (p : Placement) : Bool :=
  c.state == 1 && compLost s c && !slotLost s c && !sourceLost s c && migrating s == 0
    && !c.thr.any (fun t => s.hubLost.contains (t.seat.cell / 64)) && sameView c p
    && placeGood s c.man p ((movedSeats c p).map (fun x => x.2))
    && (c.thr.zip p.seats).all (fun x => seatLost s x.1.seat || x.1.seat == x.2)

/-- The re-placement; a compartment whose contents cannot be copied is stopped, to be restarted. -/
def compReplace (cid : Nat) (p : Placement) (s : State) : State :=
  match compOf s cid with
  | none => s
  | some c =>
    if !mayReplace s c p then s
    else
      let hot := !placeOk s c.man false p
      let s := (movedSeats c p).foldl (fun s x => instSlot x.1.1.seat.cell x.1.1.seat.slot 4 s) s
      (match copyComp c p (tenantGates c.man cid p s) with
       | (true, s) =>
         let t := moveComp cid c p s
         if hot then monEvent 0x0B cid cid t else t
       | (false, s) => stopComp cid (releaseNew c p s))

/-- Threads that wait on queues of a fenced region have their waits cancelled and go on where they stand, their cells being in
service (R322, R311; DEDUCED, log entry 108). -/
def queueLostStep (s : State) : State :=
  s.mon.comps.foldl (fun s e =>
    if e.2.state ≠ 1 then s
    else e.2.thr.foldl (fun s t => if waitsOut s t then instSlot t.seat.cell t.seat.slot 1 s else s) s) s

/-- A stopped cell started again by the instance of its region. -/
def cellRun (n : Nat) (s : State) : State :=
  instPoke (n / 64) (ctlBase n + 8) (wd (1 + b2n (cellOf s n).vtm * 2)) s

/-- A stopped cell restarted; one that has stopped three times within 10 s is left stopped for good (R451). A cell that
Monarch itself has stopped in an empty block is no such stop (R439). -/
def cellRestart (s : State) (n : Nat) : State :=
  let c := cellOf s n
  if !c.stopped ∨ c.flush ∨ !c.powered ∨ s.mon.left.contains n ∨ s.mon.parked.contains n ∨ !instLive s (n / 64)
      ∨ s.offline.contains (n / 16) ∨ !bit (reg s (recAddr (.cell n) + 0x30)) 0 then s
  else
    let l := s.time.dur :: (tblGet [] s.mon.stops n).filter (fun t => decide (s.time.dur < t + 10 * tSec))
    let s := { s with mon := { s.mon with stops := tblSet n l s.mon.stops } }
    if 3 ≤ l.length then monEvent 0x0D (n / 16) n { s with mon := { s.mon with left := n :: s.mon.left } }
    else cellRun n s

/-- A cell that Monarch has stopped runs again. -/
def cellUnpark (n : Nat) (s : State) : State :=
  if s.mon.parked.contains n ∧ (cellOf s n).stopped ∧ !(cellOf s n).flush then
    cellRun n { s with mon := { s.mon with parked := s.mon.parked.filter (fun x => x != n) } }
  else s

/-! Mirroring (R446). -/

/-- The contents of a compartment's mirrored objects, as its instances read them (R46). -/
def mirContents (s : State) (c : Comp) : Option (List (List Byte)) :=
  ((c.objs.zip (List.range 256)).filter (fun o => oMir c.man o.2)).mapM (fun o => instRead s o.1.2 (oBytes c.man o.2))

/-- A mirror copy sent to the partner, once every request for it can go (R24, R265). -/
def mirrorSend (cid : Nat) (s : State) : State :=
  match compOf s cid with
  | some c =>
    if ((c.objs.zip (List.range 256)).filter (fun o => oMir c.man o.2)).any (fun o =>
        rangeWaits s (0x100 + instanceAt s o.1.2) o.1.2 (oBytes c.man o.2)) then waitUp s
    else (match mirContents s c with
     | some l =>
       if mTwin c.man = 2 ∧ c.state = 1 ∧ s.twin.state = 1 then
         { s with tx := .twin 1 cid l :: s.tx, twin := { s.twin with mir := some s.time.dur } }
       else s
     | none => s)
  | none => s

/-- Every thread of the compartment has completed an activation in this epoch and is blocked. -/
def allBlocked (s : State) (c : Comp) : Bool :=
  c.thr.all (fun t => (slotOf (cellOf s t.seat.cell) t.seat.slot).state == 3 && t.rel.isNone && t.ran)

/-! Proposals and lost hub cores (R425, R445). -/

/-- A write of a proposal's number confirms it; any other number is refused. -/
def proposalConfirm (n : Nat) (s : State) : State × Bool :=
  match s.mon.prop with
  | some p =>
    if p.seq = n then ({ s with mon := { s.mon with prop := some { p with ok := true } } }, true) else (s, false)
  | none => (s, false)

/-- A proposal not confirmed within advto lapses. -/
def proposalLapse (s : State) : State :=
  match s.mon.prop with
  | some p =>
    if !p.ok ∧ p.posted + s.mon.par.advto * tMs ≤ s.time.dur then
      monEvent 0x08 p.target p.seq { s with mon := { s.mon with prop := none } }
    else s
  | none => s

/-- A hub core silent for 10 ms: its region's placement is frozen and the device degraded. -/
def hubCoreLost (r : Nat) (s : State) : State :=
  if 4 ≤ r ∨ s.hubLost.contains r then s
  else degrade (recOut .chip true (monEvent 0x0C r r { s with hubLost := s.hubLost ++ [r] }))

/-- The settings that take effect at the next epoch (R444, R455). -/
def monParams (s : State) : MonPar :=
  { mode := objNat s 0x6000 1 0, ucap := objNat s 0x6001 1 700, slackmin := objNat s 0x6001 2 10,
    migmax := objNat s 0x6001 3 8, tthr := objNat s 0x6001 4 100, advto := objNat s 0x6001 5 100,
    sparebl := objNat s 0x6001 6 1 }

end Sys2Proof.Machine
end

