-- ==== Sys2Proof/Machine/Twin.lean ====
section
/-! DEFINITION. The twin link (R446 to R450) and planned removal (R450, R578). -/

namespace Sys2Proof.Machine

/-! What a compartment's manifest names. -/

/-- The trip objects that a manifest's grants name. -/
def compTrips (m : List Byte) : List Nat :=
  ((List.range (mNgr m)).filterMap (fun k =>
    match gKind m k with
    | 3 => some (gRef m k / 4)
    | 5 => some (gRef m k)
    | _ => none)).eraseDups

/-- The publication that a trip object in memory names, when pon is set. -/
def tripPubOf (s : State) (n : Nat) : Option Nat :=
  let w := wd (leNat ((instRead s (tripBase s + 256 * n) 8).getD []))
  if bit w 42 then some (fld w 41 32) else none

/-- The coordinator's command to the trip unit, as the control gate admits it (R36, R46). -/
def tripAct (f : State → State) (s : State) : State := instDo true (coordinator s) (tripBlock + 0x10) f s

/-- A compartment's publications and then its trip objects enabled; one that is enabled stays as it is. -/
def tripsOn (m : List Byte) : State → State := tripAct (fun s =>
  (compTrips m).foldl (fun s n =>
    let s := match tripPubOf s n with
      | some p => if pubBase s = 0 then s else (pubEnable p false s).2
      | none => s
    if tripBase s = 0 then s else (tripEnable n false s).2) s)

/-- A compartment's trip objects, and the publications that no other object uses, taken out of service. -/
def tripsOff (m : List Byte) : State → State := tripAct (fun s =>
  (compTrips m).foldl (fun s n =>
    match tripObj s n with
    | some o =>
      let s := (tripCommandObj n 2 false s).2
      if o.pon then (tripCommandPub o.pub 2 false s).2 else s
    | none => s) s)

/-! Standby and active. -/

/-- The placement at which a compartment stands. -/
def compPlacement (c : Comp) : Placement :=
  { code := 0, asid := c.asid, seats := c.thr.map (fun t => t.seat), objs := c.objs, rings := c.rings, writes := [] }

/-- A standby compartment made active: the standby state, or the initial state of a cold one, installed; its trip
objects and publications enabled; its threads ready (R448). With `rec` it is a takeover, which is recorded (R447, R448). -/
def goActive (cid : Nat) (took rec : Bool) (s : State) : State :=
  match compOf s cid with
  | some c =>
    if c.state = 4 then
      let m := c.man
      let p := compPlacement c
      let s := loadObjects (fun j => oMir m j && mTwin m == 2) m p (freeSlots c s)
      let g := (p.objs.getD (mGobj m) (0, 0)).2
      let s := (List.range (mNgr m)).foldl (fun s k =>
        let x := grantCap s m p.objs p.rings k
        instStoreCap (g + 16 * gGoff m k) (capBytes x) x.tag s) s
      let s := startThreads m p 1 (tripsOn m s)
      let s := setComp cid { c with state := 1, thr := thrOf m p s, took := took } s
      if rec then monEvent 0x06 cid cid s else s
    else s
  | none => s

/-- A running copy stopped, and on standby again (R447, R449, R450). -/
def goStandby (cid : Nat) (s : State) : State :=
  match compOf s cid with
  | some c =>
    if c.state = 1 ∨ c.state = 2 ∨ c.state = 3 then
      setComp cid { c with state := 4, move := none, took := false } (tripsOff c.man (compSlots c 4 s))
    else s
  | none => s

/-- The mirrored compartments in a state. -/
def mirrored (s : State) (st : Nat) : List Nat :=
  (s.mon.comps.filter (fun e => mTwin e.2.man != 0 && e.2.state == st)).map (fun e => e.1)

/-! Pairing (R446, R447, R449). -/

/-- Byte order of two serials. -/
def bytesLt : List Byte → List Byte → Bool
  | [], [] => false
  | [], _ :: _ => true
  | _ :: _, [] => false
  | a :: l, b :: r => decide (a < b) || (a == b && bytesLt l r)

/-- The module's node number (R581). -/
def nodeNumber (s : State) : Nat := s.hw.node

/-- The serial (R480, R553). -/
def serial (s : State) : List Byte := otpBytes s 0x10 16

/-- This module has the lower node number, or at equal numbers the lower serial. -/
def rankFirst (s : State) (p : Partner) : Bool :=
  decide (nodeNumber s < p.node) || (decide (nodeNumber s = p.node) && bytesLt (serial s) p.serial)

/-- Which module is active for a compartment when the pair forms: this one? -/
def pairWins (s : State) (p : Partner) (cid : Nat) (c : Comp) : Bool :=
  let mine := anchorRole s cid == 1
  let theirs := p.active.contains cid
  if c.state = 1 ∧ p.runs.contains cid then rankFirst s p
  else if mine ≠ theirs then mine
  else rankFirst s p

/-- The pair forms. -/
def pairForm (p : Partner) (s : State) : State :=
  if s.twin.state ≠ 0 ∨ s.twin.hb.isNone ∨ pstateOf s ≠ 0 then s
  else
    let s := { s with twin := { s.twin with state := 1, partner := some p } }
    s.mon.comps.foldl (fun s e =>
      if mTwin e.2.man = 0 then s
      else if pairWins s p e.1 e.2 then goActive e.1 false false s
      else goStandby e.1 s) s

/-- A mirrored compartment placed while the pair stands is resolved with the partner's record as it was (R447, 1 and 2;
DEDUCED, log entry 91). -/
def pairPlaced (cid : Nat) (before s : State) : State :=
  match compOf before cid, compOf s cid, s.twin.partner with
  | none, some c, some p =>
    if mTwin c.man ≠ 0 ∧ s.twin.state = 1 ∧ pairWins s p cid c then goActive cid false false s else s
  | _, _, _ => s

/-- No pair 2 s after the lanes began training, or, when the link does not train, after the compartment was placed (R447, 3). A
heartbeat that has arrived shows that it trains (DEDUCED, log entry 91). -/
def pairTimeout (s : State) : State :=
  if s.twin.state ≠ 0 ∨ pstateOf s ≠ 0 then s
  else
    (mirrored s 4).foldl (fun s cid =>
      let placed := match compOf s cid with | some c => c.placed | none => 0
      if s.time.dur < (if s.twin.hb.isSome then s.twin.since else placed) + 2 * tSec then s else goActive cid false true s) s

/-! Heartbeats and takeover (R448 to R450). -/

/-- A heartbeat on each of the four lanes, every 100 us. -/
def heartbeatSend (s : State) : State :=
  let due : Bool := match s.twin.sent with | some t => decide (t + 100 * tUs ≤ s.time.dur) | none => true
  if due ∧ pstateOf s = 0 then
    { s with tx := (List.range 4).map (fun l => Out.twin 0 l []) ++ s.tx,
             twin := { s.twin with sent := some s.time.dur } }
  else s

/-- A heartbeat arrives. -/
def heartbeatReceive (lane : Nat) (s : State) : State :=
  if lane < 4 ∧ pstateOf s = 0 then { s with twin := { s.twin with hb := some s.time.dur } } else s

/-- A compartment taken over. -/
def takeOver (cid : Nat) (lost : Bool) (s : State) : State :=
  match compOf s cid with
  | some c =>
    if c.state = 4 then
      let s := goActive cid lost true s
      { s with twin := { s.twin with ntake := satInc32 s.twin.ntake } }
    else s
  | none => s

/-- No heartbeat for 0.8 ms: every standby compartment is taken over. This module cannot tell a lost partner from lost
lanes, so the pair is split (R448, R449; log entry 34). -/
def heartbeatLoss (s : State) : State :=
  match s.twin.hb with
  | some t =>
    if s.twin.state = 1 ∧ t + 800 * tUs ≤ s.time.dur then
      let l := mirrored s 4
      let s := { s with twin := { s.twin with hb := none, nmiss := satInc32 s.twin.nmiss } }
      let s := l.foldl (fun s cid => takeOver cid true s) s
      monEvent 0x09 0 l.length { s with twin := { s.twin with state := 2, nsplit := satInc32 s.twin.nsplit } }
    else s
  | none => s

/-- The link returns (R449): what was taken over is kept only where the partner has stopped it. -/
def linkRestored (stopped : List Nat) (s : State) : State :=
  if s.twin.state ≠ 2 then s
  else
    let s := { s with twin := { s.twin with state := 1, hb := some s.time.dur } }
    s.mon.comps.foldl (fun s e =>
      if e.2.took ∧ !stopped.contains e.1 then goStandby e.1 s
      else if e.2.took then setComp e.1 { e.2 with took := false } s else s) s

/-- A mirror copy as it arrives in the staging area from `a` on, under the twin link's ID (R46): a request for each
line, of which one that is denied is answered with an error, counted in ntwerr (R258, R270, R448). Whether all of it
arrived. -/
def twinStage (a : Nat) (bs : List Byte) (s : State) : Bool × State :=
  (linePieces (bs.length / 64 + 2) a bs.length).foldl (fun z p =>
    match gateCheck z.2 0x141 p.1 p.2 .write with
    | .error d =>
      let s := gateEvent 0x141 p.1 .write d z.2
      (false, { s with twin := { s.twin with nerr := satInc32 s.twin.nerr } })
    | .ok _ => (z.1, physStore p.1 (slice bs (p.1 - a) p.2) z.2)) (true, s)

/-- The objects of a copy applied whole, each by the instance of its region (R46, R423). -/
def mirrorDo (mir : List ((Nat × Nat) × Nat)) (objs : List (List Byte)) (s : State) : State :=
  let s := (mir.zip objs).foldl (fun s x => instStore x.1.1.2 x.2 s) s
  { s with twin := { s.twin with mir := some s.time.dur } }

/-- A mirror copy arrives in the staging area at `a`, which the command names (DESIGN CHOICE, log entry 69), and, once
complete, is applied whole; tags do not cross the link (R77, R446). -/
def mirrorApply (cid a : Nat) (objs : List (List Byte)) (s : State) : State :=
  match compOf s cid with
  | some c =>
    let mir := (c.objs.zip (List.range 256)).filter (fun o => oMir c.man o.2)
    if s.twin.state = 1 ∧ c.state = 4 ∧ mTwin c.man = 2 ∧ objs.length = mir.length
        ∧ (mir.zip objs).all (fun x => x.2.length == oBytes c.man x.1.2) then
      (match twinStage a objs.flatten s with
       | (true, s) => mirrorDo mir objs s
       | (false, s) => s)
    else s
  | none => s

/-- The partner asks this module to take compartments over; each takeover is acknowledged. -/
def takeoverRequest (cids : List Nat) (s : State) : State :=
  cids.foldl (fun s cid =>
    match compOf s cid with
    | some c =>
      if c.state = 4 ∧ s.twin.state = 1 then
        let s := takeOver cid false s
        { s with tx := .twin 3 cid [] :: s.tx }
      else s
    | none => s) s

/-! Removal (R450). -/

/-- The partner is asked to take a compartment over (R450, R453). -/
def handOver (cid : Nat) (s : State) : State :=
  match compOf s cid with
  | some c =>
    if mTwin c.man ≠ 0 ∧ s.twin.state = 1 then
      let s := if mTwin c.man = 2 ∧ c.state = 1 then mirrorSend cid s else s
      { s with tx := .twin 2 cid [] :: s.tx,
               twin := { s.twin with asked := s.twin.asked.filter (fun x => x != cid) ++ [cid] } }
    else s
  | none => s

/-- The module is safe to remove once the evacuation has begun and nothing remains to be acknowledged. -/
def removeCheck (s : State) : State :=
  if s.twin.rm = 1 ∧ s.twin.evac ∧ s.twin.asked = [] then
    monEvent 0x07 0 0 { s with twin := { s.twin with rm := 2 } }
  else s

/-- The partner acknowledges a takeover. -/
def takeoverAck (cid : Nat) (s : State) : State :=
  if s.twin.asked.contains cid then
    removeCheck { s with twin := { s.twin with asked := s.twin.asked.filter (fun x => x != cid) } }
  else s

/-- REMOVE_REQ is raised: from the next epoch on Monarch handles it (R436, step 1). -/
def removeReq (s : State) : State :=
  let was := s.twin.req
  let s := { s with twin := { s.twin with req := true } }
  if was ∨ pstateOf s ≠ 0 ∨ s.twin.rm ≠ 0 then s
  else { s with twin := { s.twin with rm := 1, evac := false } }

/-- The evacuation, once no migration is in progress (R443): of the mirrored compartments with a partner; without one, and with
the host's consent, every compartment is stopped. -/
def removalStep (s : State) : State :=
  if s.twin.rm = 1 ∧ !s.twin.evac ∧ migrating s = 0 ∧ s.twin.state = 1 then
    let l := mirrored s 1
    let s := l.foldl (fun s cid => handOver cid s) { s with twin := { s.twin with evac := true } }
    removeCheck (l.foldl (fun s cid => goStandby cid s) s)
  else if s.twin.rm = 1 ∧ migrating s = 0 ∧ s.twin.consent ∧ s.twin.state ≠ 1 then
    let s := s.mon.comps.foldl (fun s e => stopComp e.1 (setComp e.1 { e.2 with halt := true } s)) s
    removeCheck { s with twin := { s.twin with asked := [], evac := true } }
  else s

/-- REMOVE_REQ falls: a request not yet fulfilled is cancelled. -/
def removeCancel (s : State) : State :=
  { s with twin := { s.twin with req := false, evac := false, consent := false, rm := if s.twin.rm = 1 then 0 else s.twin.rm,
                                 asked := if s.twin.rm = 1 then [] else s.twin.asked } }

/-- The host's consent without a partner, which the next epoch acts on (R436, step 1). -/
def removeConsent (s : State) : State :=
  if s.twin.rm = 1 ∧ s.twin.state ≠ 1 then { s with twin := { s.twin with consent := true } } else s

end Sys2Proof.Machine
end

