-- ==== Sys2Proof/Machine/DictTab.lean ====
section
/-! DEFINITION. The objects of the dictionary (R457 to R463, R480 to R487 and the rules they name): index, subindex,
type, access, where the value lives, default, retention and range. -/

namespace Sys2Proof.Machine

/-- A type of R459. Strings and domains carry their lengths. -/
inductive DTy where
  | bool
  | int (n : Nat)
  | uint (n : Nat)
  | real
  | str (mx : Nat)
  | oct (mn mx : Nat)
  | dom (mx : Nat)
  | time
  deriving DecidableEq, Repr

/-- Access (R460). -/
inductive DAcc where
  | const | ro | rw | wo
  deriving DecidableEq, Repr

/-- Where a value lives. -/
inductive DLoc where
  /-- A register field: of the word at an address plus a stride times the unit. -/
  | reg (a stride hi lo : Nat)
  /-- A field of the entry that a session selects, by a selection object, of the subscriptions (0), their status
  words (1) or the GOOSE subscriptions (2). -/
  | tab (t selIdx off hi lo : Nat)
  /-- A value that the dictionary itself keeps. -/
  | kept
  /-- A value computed when it is read. -/
  | live
  /-- An object that acts when it is written. -/
  | act
  /-- A selection object of the session. -/
  | sel
  deriving DecidableEq, Repr

/-- Objects of one shape: `cnt` indices from `base`, `subs` subindices from `sub`. -/
structure DEnt where
  base : Nat
  cnt  : Nat
  sub  : Nat
  subs : Nat
  ty   : DTy
  acc  : DAcc
  loc  : DLoc
  dflt : Nat
  ret  : Bool
  lo   : Int
  hi   : Int
  deriving DecidableEq, Repr

/-- The size of a fixed type; 0 for the others. -/
def tySize : DTy → Nat
  | .bool => 1
  | .int n => n
  | .uint n => n
  | .real => 4
  | .str _ => 0
  | .oct mn mx => if mn = mx then mn else 0
  | .dom _ => 0
  | .time => 12

/-- The code of a type. -/
def tyCode : DTy → Nat
  | .bool => 1
  | .int n => (match n with | 1 => 2 | 2 => 3 | 4 => 4 | _ => 5)
  | .uint n => (match n with | 1 => 6 | 2 => 7 | 4 => 8 | _ => 9)
  | .real => 0x0A
  | .str _ => 0x0B
  | .oct _ _ => 0x0C
  | .dom _ => 0x0D
  | .time => 0x0E

/-- The range of a type when the table states no narrower one. -/
def tyLo : DTy → Int
  | .int n => -(2 ^ (8 * n - 1) : Nat)
  | _ => 0
def tyHi : DTy → Int
  | .bool => 1
  | .int n => ((2 ^ (8 * n - 1) : Nat) : Int) - 1
  | .uint n => ((2 ^ (8 * n) : Nat) : Int) - 1
  | _ => 0

/-! Shapes of entries. -/

/-- An object read only. -/
def roE (base cnt sub : Nat) (ty : DTy) (loc : DLoc) : DEnt :=
  { base := base, cnt := cnt, sub := sub, subs := 1, ty := ty, acc := .ro, loc := loc, dflt := 0, ret := false,
    lo := tyLo ty, hi := tyHi ty }

/-- A constant. -/
def constE (base cnt sub : Nat) (ty : DTy) : DEnt := { roE base cnt sub ty .live with acc := .const }

/-- A retained setting with a range. -/
def setE (base cnt sub : Nat) (ty : DTy) (loc : DLoc) (dflt : Nat) (lo hi : Int) : DEnt :=
  { roE base cnt sub ty loc with acc := .rw, dflt := dflt, ret := true, lo := lo, hi := hi }

/-- A retained setting over the whole range of its type. -/
def anyE (base cnt sub : Nat) (ty : DTy) (loc : DLoc) (dflt : Nat) : DEnt :=
  setE base cnt sub ty loc dflt (tyLo ty) (tyHi ty)

/-- A selection object. -/
def selE (base sub n hi : Nat) : DEnt :=
  { roE base 1 sub (.uint n) .sel with acc := .rw, hi := hi }

/-- An object that acts on what is written. -/
def actE (base sub : Nat) (ty : DTy) (lo hi : Int) : DEnt :=
  { roE base 1 sub ty .act with acc := .wo, lo := lo, hi := hi }

/-- Several subindices of one shape. -/
def manyE (k : Nat) (e : DEnt) : DEnt := { e with subs := k }

/-- 32-bit counters in the two halves of consecutive words, from the high half of the first on. -/
def halvesE (base cnt sub k : Nat) (loc : Nat → Nat → Nat → DLoc) (first : Nat) : List DEnt :=
  (List.range k).map (fun i =>
    let h := first + i
    roE base cnt (sub + i) (.uint 4) (loc (h / 2 * 8) (h % 2 * 32 + 31) (h % 2 * 32)))

/-! The tables. -/

def ents1 : List DEnt :=
  [constE 0x1000 1 1 (.str 16), constE 0x1000 1 2 (.str 16), constE 0x1000 1 3 (.str 16),
   constE 0x1000 1 4 (.uint 2), constE 0x1000 1 5 (.uint 2), roE 0x1000 1 6 (.uint 4) .live,
   roE 0x1000 1 7 (.uint 1) .live, roE 0x1000 1 8 (.uint 1) .live, roE 0x1000 1 9 .time .live,
   roE 0x1010 1 1 (.uint 1) .live, actE 0x1010 2 (.uint 1) 1 5, roE 0x1010 1 3 (.uint 4) .live,
   anyE 0x1010 1 4 .bool .kept 0, roE 0x1010 1 5 (.uint 4) .live,
   { roE 0x1010 1 6 (.uint 4) .kept with ret := true }, roE 0x1010 1 7 (.uint 2) .live,
   manyE 4 (roE 0x1020 1 1 (.uint 1) .live), manyE 3 (roE 0x1021 8 1 (.uint 1) .live), roE 0x1021 8 4 (.uint 4) .live,
   manyE 10 (roE 0x1029 1 1 (.uint 4) .kept)]

def ents1b : List DEnt :=
  [anyE 0x1030 1 1 (.uint 4) .kept 0, anyE 0x1030 1 2 (.uint 4) .kept 0xFFFF0000, anyE 0x1030 1 3 (.uint 4) .kept 0,
   anyE 0x1030 1 4 .bool .kept 1, setE 0x1030 1 5 (.uint 1) .kept 1 0 1, setE 0x1030 1 6 (.uint 1) .kept 1 0 2,
   setE 0x1030 1 7 (.uint 1) .kept 0 0 1]

def ents2 : List DEnt :=
  [roE 0x2000 1 1 (.int 2) .live, roE 0x2000 1 2 (.int 2) .live, roE 0x2000 1 3 (.uint 4) .live,
   manyE 3 (roE 0x2000 1 4 .real .live), manyE 2 (roE 0x2010 1 1 .bool .live), roE 0x2020 1 1 (.uint 1) .live,
   actE 0x2020 2 (.uint 1) 1 3, setE 0x2020 1 3 (.uint 2) (.reg (pcBase + 0x10) 0 15 0) 3 0 15,
   setE 0x2020 1 4 (.uint 8) (.reg (pcBase + 0x18) 0 47 0) 0 0 (2 ^ 48 - 1),
   roE 0x2020 1 5 (.uint 4) (.reg (pcBase + 0x30) 0 31 0), roE 0x2020 1 6 (.uint 4) (.reg (pcBase + 0x30) 0 63 32),
   setE 0x2030 1 1 (.uint 1) .kept 0 0 1, roE 0x2030 1 2 (.uint 1) .live,
   roE 0x2040 1 1 (.uint 1) (.reg (pcBase + 0x20) 0 7 0), manyE 2 (roE 0x2040 1 2 (.uint 2) .live),
   roE 0x2040 1 4 (.uint 1) .live, selE 0x2040 5 1 15, roE 0x2040 1 6 (.uint 4) .live, roE 0x2040 1 7 .bool .live,
   selE 0x2050 1 2 0x120, selE 0x2050 2 1 63, manyE 5 (roE 0x2050 1 3 (.uint 8) .live),
   manyE 16 (roE 0x2051 1 1 (.uint 8) .live)]

def ents3 : List DEnt :=
  [setE 0x3000 16 1 (.uint 1) .kept 0 0 6, roE 0x3000 16 2 .bool .live, constE 0x3000 16 3 (.uint 8)]
  ++ (List.range 8).map (fun p => setE 0x3010 1 (p + 1) (.uint 1) (.reg 0x62400000 0 (4 * p + 3) (4 * p)) 0 0 15)
  ++ [setE 0x3010 1 9 (.uint 2) (.reg 0x62400008 0 9 0) 400 1 1000, anyE 0x3010 1 0x0A .bool (.reg 0x62400010 0 0 0) 0]

def ents31 : List DEnt :=
  [roE 0x3100 1 1 (.uint 1) (.reg partTime 0 2 0), roE 0x3100 1 2 .bool (.reg partTime 0 3 3),
   roE 0x3100 1 3 (.uint 1) (.reg partTime 0 7 5), setE 0x3100 1 4 (.uint 2) (.reg (partTime + 0x18) 0 8 0) 0xD1 0 0x1FF,
   setE 0x3100 1 5 (.uint 4) (.reg (partTime + 0x20) 0 31 0) 1000 100 1000000000,
   setE 0x3100 1 6 (.uint 2) (.reg (partTime + 0x20) 0 47 32) 100 10 10000,
   setE 0x3100 1 7 (.uint 4) (.reg (partTime + 0x28) 0 31 0) 600 0 86400,
   anyE 0x3100 1 8 (.uint 1) (.reg (partTime + 0x70) 0 7 0) 128,
   anyE 0x3100 1 9 (.uint 1) (.reg (partTime + 0x70) 0 15 8) 128,
   anyE 0x3100 1 0x0A (.uint 2) (.reg (partTime + 0x70) 0 31 16) 0,
   roE 0x3100 1 0x0B (.int 8) (.reg (partTime + 8) 0 63 0), roE 0x3100 1 0x0C (.uint 4) (.reg (partTime + 0x48) 0 31 0),
   roE 0x3100 1 0x0D (.uint 2) (.reg (partTime + 0x48) 0 47 32), roE 0x3100 1 0x0E (.uint 2) (.reg (partTime + 0x48) 0 63 48),
   actE 0x3100 0x0F .time 0 0, roE 0x3100 1 0x10 (.uint 1) (.reg partTime 0 15 8)]

def entsPtp : List DEnt :=
  let r := fun (off hi lo : Nat) => DLoc.reg (0x6A100000 + off) 0x1000 hi lo
  [setE 0x3110 16 1 (.uint 1) (r 0 2 0) 0 0 4, setE 0x3110 16 2 (.uint 1) (r 0 4 3) 0 0 2,
   anyE 0x3110 16 3 .bool (r 0 5 5) 0, anyE 0x3110 16 4 .bool (r 0 6 6) 0, anyE 0x3110 16 5 .bool (r 0 7 7) 0,
   setE 0x3110 16 6 (.uint 2) (r 0 19 8) 0 0 4095, setE 0x3110 16 7 (.uint 1) (r 0 22 20) 4 0 7,
   anyE 0x3110 16 8 (.int 4) (r 8 31 0) 0, roE 0x3110 16 9 (.uint 4) (r 8 63 32), roE 0x3110 16 0x0A (.uint 1) (r 0x10 3 0),
   roE 0x3110 16 0x0B (.uint 4) (r 0x18 31 0), roE 0x3110 16 0x0C (.uint 4) (r 0x18 63 32),
   roE 0x3110 16 0x0D (.uint 4) (r 0x20 31 0), roE 0x3110 16 0x0E (.uint 4) (r 0x20 63 32)]

def entsIrig : List DEnt :=
  let r := fun (off hi lo : Nat) => DLoc.reg (0x6A200000 + off) 0 hi lo
  [anyE 0x3130 1 1 .bool (r 0 0 0) 0, setE 0x3130 1 2 (.uint 1) (r 0 3 1) 0 0 7, anyE 0x3130 1 3 .bool (r 0 4 4) 0,
   anyE 0x3130 1 4 .bool (r 0 5 5) 0, setE 0x3130 1 5 (.uint 1) (r 0 11 8) 4 0 15, anyE 0x3130 1 6 (.int 4) (r 8 31 0) 0,
   anyE 0x3130 1 7 .bool (r 0x10 0 0) 0, setE 0x3130 1 8 (.uint 1) (r 0x10 3 1) 0 0 7, anyE 0x3130 1 9 .bool (r 0x10 4 4) 0,
   anyE 0x3130 1 0x0A .bool (r 0x18 0 0) 0, anyE 0x3130 1 0x0B .bool (r 0x18 1 1) 0,
   anyE 0x3130 1 0x0C (.int 4) (r 0x18 63 32) 0, anyE 0x3130 1 0x0D .bool (r 0x20 0 0) 0,
   anyE 0x3130 1 0x0E .bool (r 0x20 1 1) 0, setE 0x3130 1 0x0F (.uint 4) (r 0x20 63 32) 100000 1 500000,
   setE 0x3130 1 0x10 (.int 4) (r 0x28 31 0) 0 (-499999999) 499999999,
   roE 0x3131 1 1 .bool (r 0x30 0 0), roE 0x3131 1 2 .bool (r 0x30 1 1), roE 0x3131 1 3 (.uint 1) (r 0x30 7 4),
   roE 0x3131 1 4 (.uint 4) (r 0x38 31 0), roE 0x3131 1 5 (.uint 4) (r 0x38 63 32), roE 0x3131 1 6 (.uint 4) (r 0x40 31 0),
   roE 0x3131 1 7 (.uint 4) (r 0x40 63 32)]
  ++ (List.range 32).map (fun i =>
    setE 0x3140 1 (i + 1) (.uint 8) (.reg (leapAt i) 0 63 0) (if i = 0 then 37 * 2 ^ 48 + 2 ^ 56 else 0) 0 (2 ^ 58 - 1))

def ents4 : List DEnt :=
  let f := fun (off hi lo : Nat) => DLoc.tab 0 0x4000 off hi lo
  [selE 0x4000 1 2 8191,
   setE 0x4001 1 1 (.uint 8) (f 0 47 0) 0 0 (2 ^ 48 - 1), anyE 0x4001 1 2 .bool (f 0 48 48) 0,
   anyE 0x4001 1 3 .bool (f 0 49 49) 0, anyE 0x4001 1 4 .bool (f 0 50 50) 0, setE 0x4001 1 5 (.uint 1) (f 0 52 51) 0 0 2,
   setE 0x4001 1 6 (.uint 1) (f 0 54 53) 0 0 2, anyE 0x4001 1 7 .bool (f 0 55 55) 0, anyE 0x4001 1 8 (.uint 1) (f 0 63 56) 0,
   anyE 0x4001 1 9 (.uint 2) (f 8 15 0) 0, anyE 0x4001 1 0x0A (.uint 4) (f 8 47 16) 0,
   setE 0x4001 1 0x0B (.uint 1) (f 8 50 48) 0 0 7, setE 0x4001 1 0x0C (.uint 1) (f 8 55 51) 0 0 31,
   setE 0x4001 1 0x0D (.uint 4) (f 0x10 16 0) 0 1000 96000, setE 0x4001 1 0x0E (.uint 4) (f 0x10 33 17) 0 0 (2 ^ 17 - 1),
   setE 0x4001 1 0x0F (.uint 1) (f 0x10 37 34) 0 0 15, anyE 0x4001 1 0x10 (.uint 2) (f 0x10 53 38) 0,
   anyE 0x4001 1 0x11 (.uint 2) (f 0x18 15 0) 0, anyE 0x4001 1 0x12 (.uint 2) (f 0x18 31 16) 0,
   setE 0x4001 1 0x13 (.uint 2) (f 0x18 44 32) 0 0 8191, anyE 0x4001 1 0x14 .bool (f 0x18 45 45) 0,
   anyE 0x4001 1 0x15 (.uint 4) (f 0x20 31 0) 0, anyE 0x4001 1 0x16 (.uint 4) (f 0x20 63 32) 0,
   setE 0x4001 1 0x17 (.uint 4) (f 0x28 17 0) 0 0 (2 ^ 18 - 1), anyE 0x4001 1 0x18 .bool (f 0x28 18 18) 0,
   anyE 0x4001 1 0x19 (.uint 8) (f 0x30 63 0) 0, anyE 0x4001 1 0x1A (.oct 1 64) (f 0x40 0 0) 0,
   roE 0x4002 1 1 (.uint 1) (.tab 1 0x4000 0 2 0), roE 0x4002 1 2 (.uint 1) (.tab 1 0x4000 0 15 8),
   roE 0x4002 1 3 (.uint 2) (.tab 1 0x4000 0 31 16), roE 0x4002 1 4 (.uint 4) (.tab 1 0x4000 0 63 32)]

def entsGrid : List DEnt :=
  let r := fun (off hi lo : Nat) => DLoc.reg (0x62300000 + off) 0x1000 hi lo
  [anyE 0x4010 16 1 .bool (r 0 0 0) 0, setE 0x4010 16 2 (.uint 4) (r 0 17 1) 4800 1000 96000,
   anyE 0x4010 16 3 (.int 4) (r 0 63 32) 0, setE 0x4010 16 4 (.uint 4) (r 0x18 16 0) 0 1 65536,
   setE 0x4010 16 5 (.uint 2) (r 0x18 47 32) 250 1 65535, anyE 0x4010 16 6 (.uint 2) (r 0x20 15 0) 10,
   roE 0x4010 16 7 (.uint 8) (r 8 63 0), roE 0x4010 16 8 (.uint 8) (r 0x10 63 0), roE 0x4010 16 9 (.uint 2) (r 0x30 8 0),
   roE 0x4010 16 0x0A (.uint 4) (r 0x40 31 0)]

def ents5 : List DEnt :=
  let g := fun (off hi lo : Nat) => DLoc.tab 2 0x5020 off hi lo
  [setE 0x5000 1 1 (.uint 4) (.reg (tripBlock + 0x20) 0 17 0) 0 0 (2 ^ 18 - 1),
   anyE 0x5000 1 2 .bool (.reg (tripBlock + 0x20) 0 18 18) 0,
   selE 0x5001 1 2 4095, { roE 0x5002 1 1 (.oct 256 256) .act with acc := .rw }, actE 0x5002 2 (.uint 1) 1 4,
   roE 0x5002 1 3 (.uint 1) (.reg (tripBlock + 0x18) 0 15 8), roE 0x5002 1 4 (.uint 8) .live, roE 0x5002 1 5 .time .live,
   roE 0x5002 1 6 .bool .live,
   selE 0x5010 1 2 1023, { roE 0x5011 1 1 (.oct 2048 2048) .act with acc := .rw }, actE 0x5011 2 (.uint 1) 1 4,
   roE 0x5011 1 3 (.uint 1) (.reg (tripBlock + 0x18) 0 15 8), manyE 2 (roE 0x5011 1 4 (.uint 4) .live),
   roE 0x5011 1 6 .bool .live,
   selE 0x5020 1 2 2047,
   setE 0x5021 1 1 (.uint 8) (g 0 47 0) 0 0 (2 ^ 48 - 1), anyE 0x5021 1 2 .bool (g 0 48 48) 0,
   anyE 0x5021 1 3 .bool (g 0 49 49) 0, anyE 0x5021 1 4 .bool (g 0 50 50) 0, anyE 0x5021 1 5 (.uint 2) (g 8 15 0) 0,
   anyE 0x5021 1 6 (.uint 4) (g 8 47 16) 0, setE 0x5021 1 7 (.uint 4) (g 0x10 17 0) 0 0 (2 ^ 18 - 1),
   anyE 0x5021 1 8 (.uint 2) (g 0x18 15 0) 0, anyE 0x5021 1 9 (.oct 1 129) (g 0x80 0 0) 0,
   roE 0x5022 1 1 (.uint 1) (g 0x20 1 0), roE 0x5022 1 2 (.uint 4) (g 0x20 63 32), roE 0x5022 1 3 (.uint 4) (g 0x28 31 0)]

def entsBin : List DEnt :=
  [setE 0x5030 1 1 (.uint 4) (.reg 0x6A400010 0 17 0) 0 0 (2 ^ 18 - 1), anyE 0x5030 1 2 .bool (.reg 0x6A400010 0 18 18) 0,
   anyE 0x5030 1 3 (.uint 4) (.reg 0x6A400018 0 31 0) 0xFFFFFFFF, anyE 0x5030 1 4 (.uint 4) (.reg 0x6A400018 0 63 32) 0xFFFFFFFF,
   roE 0x5030 1 5 (.uint 4) (.reg 0x6A400000 0 31 0), roE 0x5030 1 6 (.uint 4) (.reg 0x6A400008 0 31 0)]
  ++ (List.range 32).map (fun k => anyE 0x5031 1 (k + 1) (.uint 2) (.reg (0x6A400100 + 8 * k) 0 15 0) 1000)
  ++ (List.range 32).map (fun k => anyE 0x5032 1 (k + 1) (.uint 2) (.reg (0x6A400100 + 8 * k) 0 31 16) 0)
  ++ [anyE 0x5040 1 1 (.uint 2) (.reg toutBlock 0 15 0) 0,
      { anyE 0x5040 1 2 (.uint 2) (.reg (toutBlock + 8) 0 15 0) 0 with ret := false },
      roE 0x5040 1 3 (.uint 2) (.reg (toutBlock + 0x10) 0 15 0), roE 0x5040 1 4 (.uint 2) (.reg (toutBlock + 0x18) 0 15 0)]

def ents6 : List DEnt :=
  [setE 0x6000 1 1 (.uint 1) .kept 0 0 2, roE 0x6000 1 2 (.uint 4) .live, roE 0x6000 1 3 (.uint 1) .live,
   setE 0x6001 1 1 (.uint 2) .kept 700 100 950, setE 0x6001 1 2 (.uint 1) .kept 10 1 50,
   setE 0x6001 1 3 (.uint 1) .kept 8 0 64, setE 0x6001 1 4 (.int 1) .kept 100 85 100,
   setE 0x6001 1 5 (.uint 2) .kept 100 10 60000, setE 0x6001 1 6 (.uint 1) .kept 1 0 3,
   actE 0x6010 1 (.dom 0x1000000) 0 0, actE 0x6010 2 (.uint 2) 0 1023, roE 0x6010 1 3 (.uint 4) .kept,
   roE 0x6020 1 1 (.uint 4) .live, roE 0x6020 1 2 (.oct 32 32) .live, actE 0x6020 3 (.uint 4) 0 0xFFFFFFFF,
   roE 0x6030 1 1 (.uint 1) .live, manyE 5 (roE 0x6030 1 2 (.uint 4) .live), roE 0x6040 1 1 (.uint 1) .live,
   actE 0x6040 2 (.uint 1) 1 1, selE 0x6050 1 2 1023, roE 0x6050 1 2 (.uint 1) .live, roE 0x6050 1 3 (.int 4) .live,
   manyE 3 (roE 0x6050 1 4 (.uint 4) .live), manyE 2 (roE 0x6060 16 1 (.uint 1) .live), roE 0x6060 16 3 (.int 2) .live,
   roE 0x6060 16 4 (.uint 4) .live]

def ents7 : List DEnt :=
  [roE 0x7000 1 1 (.uint 1) .live, actE 0x7000 2 (.uint 1) 2 3, roE 0x7000 1 3 (.uint 4) .live,
   manyE 2 (roE 0x7000 1 4 (.uint 1) .live), actE 0x7010 1 (.dom 0x3000000) 0 0, roE 0x7010 1 2 (.uint 4) .live,
   actE 0x7010 3 (.uint 1) 1 1, roE 0x7010 1 4 (.uint 4) .live, roE 0x7020 1 1 (.oct 0 64) .live,
   roE 0x7020 1 2 (.uint 1) .live, actE 0x7020 3 (.oct 32 32) 0 0, roE 0x7020 1 4 (.dom 0x10000) .live,
   actE 0x7030 1 (.oct 32 32) 0 0, actE 0x7030 2 (.oct 32 32) 0 0, roE 0x7030 1 3 (.uint 1) .live,
   roE 0x7040 1 1 (.oct 16 16) .live, actE 0x7040 2 (.dom 0xFFFFFFFE) 0 0, roE 0x7040 1 3 (.uint 1) .live]

def ents8 : List DEnt :=
  [roE 0x8000 1 1 (.uint 4) .live, selE 0x8000 2 4 0xFFFFFFFF, roE 0x8000 1 3 (.oct 32 32) .live,
   anyE 0x8000 1 4 (.uint 1) .kept 0, actE 0x8000 5 .bool 0 1, roE 0x8000 1 6 (.uint 4) .live,
   roE 0x8000 1 7 (.dom 131072) .live, manyE 2 (roE 0x8001 1 1 (.uint 2) .live), roE 0x8001 1 3 (.uint 4) .live,
   manyE 7 (roE 0x8100 1 1 (.uint 8) .live), actE 0x8100 8 (.uint 8) 0 0xFFFFFFFFFFFFFFFF,
   manyE 7 (roE 0x8110 4 1 (.uint 8) .live), { actE 0x8110 8 (.uint 8) 0 0xFFFFFFFFFFFFFFFF with cnt := 4 },
   manyE 7 (roE 0x8120 16 1 (.uint 8) .live), { actE 0x8120 8 (.uint 8) 0 0xFFFFFFFFFFFFFFFF with cnt := 16 },
   manyE 7 (roE 0x8200 256 1 (.uint 8) .live), { actE 0x8200 8 (.uint 8) 0 0xFFFFFFFFFFFFFFFF with cnt := 256 },
   manyE 4 (roE 0x8300 0x121 1 (.uint 8) .live), manyE 2 (roE 0x8140 4 1 (.uint 4) .kept),
   manyE 2 (roE 0x8140 4 3 (.uint 4) .live), manyE 3 (roE 0x8140 4 5 (.uint 4) .kept), selE 0x8148 1 4 0x3FFFF,
   manyE 7 (roE 0x8148 1 2 (.uint 4) .live), roE 0x8148 1 9 (.uint 1) .live]

def ents85 : List DEnt :=
  (List.range 8).map (fun i => roE 0x8500 16 (i + 1) (.uint 4) (.reg (0x62000800 + 8 * i) 0x1000 31 0))
  ++ (List.range 9).map (fun i => roE 0x8510 8 (i + 1) (.uint 4) (.reg (0x62400100 + 8 * i) 0x80 31 0))
  ++ [selE 0x8520 1 4 8191] ++ halvesE 0x8520 1 2 14 (fun o hi lo => .tab 1 0x8520 o hi lo) 2
  ++ [roE 0x8520 1 0x10 (.uint 1) (.tab 1 0x8520 0 2 0)]
  ++ halvesE 0x8530 16 1 9 (fun o hi lo => .reg (0x62300000 + o) 0x1000 hi lo) 17
  ++ [roE 0x8530 16 0x0A (.uint 4) (.reg 0x62300040 0x1000 31 0)]
  ++ [selE 0x8540 1 2 4095, manyE 9 (roE 0x8540 1 2 (.uint 4) .live), selE 0x8541 1 2 1023,
      manyE 4 (roE 0x8541 1 2 (.uint 4) .live), selE 0x8542 1 2 2047]
  ++ halvesE 0x8542 1 2 6 (fun o hi lo => .tab 2 0x8542 o hi lo) 12
  ++ [selE 0x8543 1 2 31, manyE 3 (roE 0x8543 1 2 (.uint 4) .live), manyE 3 (roE 0x8550 16 1 (.uint 4) .kept)]

/-- Every object, in ascending index order within each part. -/
def ents : List DEnt :=
  ents1 ++ ents1b ++ ents2 ++ ents3 ++ ents31 ++ entsPtp ++ entsIrig ++ ents4 ++ entsGrid ++ ents5 ++ entsBin ++ ents6
    ++ ents7 ++ ents8 ++ ents85

/-- An entry covers an object. -/
def covers (e : DEnt) (idx sub : Nat) : Bool :=
  decide (e.base ≤ idx) && decide (idx < e.base + e.cnt) && decide (e.sub ≤ sub) && decide (sub < e.sub + e.subs)

/-- The entry of an object. -/
def entOf (idx sub : Nat) : Option DEnt := ents.find? (fun e => covers e idx sub)

/-- The highest subindex of an index, when the index is present. -/
def topSub (idx : Nat) : Option Nat :=
  match ents.filter (fun e => decide (e.base ≤ idx) && decide (idx < e.base + e.cnt)) with
  | [] => none
  | l => some (l.foldl (fun m e => max m (e.sub + e.subs - 1)) 0)

/-! Values. -/

/-- A session's copy of a selection object. -/
def selOf (sel : Tbl Nat) (idx sub : Nat) : Nat := tblGet 0 sel (okey idx sub)

/-- The word that holds a selected entry's field. -/
def tabAt (t n off : Nat) : Nat :=
  match t with
  | 0 => subBase n + off
  | 1 => statBase n + off
  | _ => gsubBase n + off

/-- The key under which the dictionary keeps the last accepted value of a table entry's object. -/
def tabKey (n idx sub : Nat) : Nat := (n + 1) * 2 ^ 24 + okey idx sub

/-- The octets that a subscription holds as its svID, or a GOOSE subscription as its gocbRef. -/
def tabOctets (s : State) (t n : Nat) : List Byte :=
  if t = 0 then
    ((List.range 8).flatMap (fun i => leBytes 8 (reg s (subBase n + 0x40 + 8 * i)).toNat)).take
      (regF s (subBase n + 8) 62 56)
  else gsubRef s n

/-- Octets written into eight-byte words, zeros beyond them. -/
def octetWords (a k : Nat) (b : List Byte) (put : Nat → W → State → State × Bool) (s : State) : State × Bool :=
  (List.range k).foldl (fun (r : State × Bool) i =>
    if r.2 then r else put (a + 8 * i) (wd (leNat (slice b (8 * i) 8))) r.1) (s, false)

/-- A register field written through the control space (R467): the state, and whether the unit refused. A field of a PTP
port's word other than role and prof leaves the port's state (R411). -/
def fieldWrite (a hi lo v : Nat) (s : State) : State × Bool :=
  let w := setFld (ctlWordRead s a) hi lo v
  if ptpBase 0 ≤ a ∧ a < ptpBase 16 ∧ 5 ≤ lo then ptpPut false ((a - ptpBase 0) / 0x1000) (a % 0x1000) w s
  else wordWrite false a w s

/-- A field of a selected entry written; the octet strings set their length with them. -/
def tabWrite (t n off hi lo : Nat) (b : List Byte) (s : State) : State × Bool :=
  if t = 0 ∧ off = 0x40 then
    match octetWords (subBase n + 0x40) 8 b (wordWrite false) s with
    | (s, true) => (s, true)
    | (s, false) => fieldWrite (subBase n + 8) 62 56 b.length s
  else if t = 2 ∧ off = 0x80 then
    match octetWords (gsubBase n + 0x80) 16 b (wordWrite false) s with
    | (s, true) => (s, true)
    | (s, false) => fieldWrite (gsubBase n + 8) 55 48 b.length { s with gocbTail := tblSet n (leNat (slice b 128 1)) s.gocbTail }
  else fieldWrite (tabAt t n off) hi lo (leNat b) s

end Sys2Proof.Machine
end

