-- ==== Sys2Proof/Machine/Bank.lean ====
section
/-! DEFINITION. Persistence (R473 to R478): the banks and the settings journal written from the values that the
dictionary last accepted, and the restoration of those values at a start. -/

namespace Sys2Proof.Machine

/-- The bank that keeps an index (R474). -/
def bankOf? (idx : Nat) : Option Nat :=
  if idx < 0x1000 then none
  else if idx < 0x2000 then some 0
  else if idx < 0x3000 then some 1
  else if idx < 0x3100 then some 2
  else if idx < 0x3200 then some 3
  else if idx = 0x4001 then some 5
  else if 0x4010 ≤ idx ∧ idx < 0x4020 then some 4
  else if idx = 0x5021 then some 6
  else if idx = 0x5002 then some 7
  else if idx = 0x5011 then some 8
  else if idx = 0x5000 ∨ (0x5030 ≤ idx ∧ idx ≤ 0x5040) then some 9
  else if 0x6000 ≤ idx ∧ idx < 0x7000 then some 10
  else if 0x8000 ≤ idx ∧ idx < 0x9000 then some 11
  else none

/-- The index whose entries a table bank anchors (R476). -/
def tableIdx (k : Nat) : Option Nat :=
  match k with
  | 5 => some 0x4001
  | 6 => some 0x5021
  | 7 => some 0x5002
  | 8 => some 0x5011
  | _ => none

/-- The default of an object as its bytes. -/
def dfltBytes (e : DEnt) : List Byte := leBytes (tySize e.ty) e.dflt

/-- A value that the dictionary keeps. -/
def keptVal (s : State) (e : DEnt) (idx sub : Nat) : List Byte := (tblFind s.objs (okey idx sub)).getD (dfltBytes e)

/-- The objects of an entry. -/
def entObjs (e : DEnt) : List (Nat × Nat) :=
  (List.range e.cnt).flatMap (fun i => (List.range e.subs).map (fun j => (e.base + i, e.sub + j)))

/-- An entry is one of a selected table. -/
def isTab (e : DEnt) : Bool := match e.loc with | .tab .. => true | _ => false

/-- The retained objects of a bank that stand in it as records. -/
def bankEnts (k : Nat) : List DEnt := ents.filter (fun e => e.ret && !isTab e && bankOf? e.base == some k)

/-- The records of a bank's own objects. -/
def bankObjs (s : State) (k : Nat) : List BankRec :=
  (bankEnts k).flatMap (fun e => (entObjs e).map (fun o => { idx := o.1, sub := o.2, val := keptVal s e o.1 o.2 }))

/-! Table images (R476). -/

/-- What an image lists of an entry, with the factory defaults: the fields of a subscription; the image and the enabled flag of
a trip object or publication. -/
def tableFields (idx : Nat) : List (Nat × List Byte) :=
  if idx = 0x5002 then [(1, List.replicate 256 0), (6, [0])]
  else if idx = 0x5011 then [(1, List.replicate 2048 0), (6, [0])]
  else (ents.filter (fun e => isTab e && e.ret && e.base == idx)).map (fun e => (e.sub, dfltBytes e))

/-- The entries of a table that differ from the factory default. -/
def tableEntries (s : State) (idx : Nat) : List Nat :=
  ((s.objs.filter (fun e => decide (2 ^ 24 ≤ e.1) && e.1 % 2 ^ 24 / 256 == idx
      && !(tableFields idx).contains (e.1 % 256, e.2))).map (fun e => e.1 / 2 ^ 24 - 1)).eraseDups

/-- The value of an entry's field that the dictionary last accepted. -/
def tableVal (s : State) (idx n : Nat) (f : Nat × List Byte) : List Byte := (tblFind s.objs (tabKey n idx f.1)).getD f.2

/-- The configuration of the entries that differ from the factory default: entry, subindex, value. -/
def tableVals (s : State) (idx : Nat) : List (Nat × Nat × List Byte) :=
  (tableEntries s idx).flatMap (fun n => (tableFields idx).map (fun f => (n, f.1, tableVal s idx n f)))

/-- The image of a table: entry number, subindex, length and value of each. -/
def tableImage (s : State) (idx : Nat) : List Byte :=
  (tableVals s idx).flatMap (fun v => leBytes 2 v.1 ++ leBytes 1 v.2.1 ++ leBytes 2 v.2.2.length ++ v.2.2)

/-- How many entries a table's image lists. -/
def tableCount (s : State) (idx : Nat) : Nat := (tableEntries s idx).length

/-- The values that an image holds. -/
def imageVals : Nat → List Byte → List (Nat × Nat × List Byte)
  | 0, _ => []
  | k + 1, b =>
    if b.length < 5 then []
    else
      let n := leNat (slice b 3 2)
      (leNat (slice b 0 2), leNat (slice b 2 1), slice b 5 n) :: imageVals k (b.drop (5 + n))

/-! Writing. -/

/-- The role to be recorded for a compartment at a commit (R447). -/
def roleNow (s : State) (cid : Nat) : Nat :=
  match compOf s cid with
  | some c => if mTwin c.man = 0 then 0 else if c.state = 4 then 2 else 1
  | none => anchorRole s cid

/-- The journalled manifests: cid, role, generation; `commit` records the roles anew. -/
def manifestList (s : State) (commit : Bool) : List (Nat × Nat × Nat) :=
  (List.range 1024).filterMap (fun cid =>
    match manRec s cid with
    | some r => some (cid, if commit then roleNow s cid else anchorRole s cid, r.gen)
    | none => none)

/-- The records of a bank of a generation. -/
def bankRecs (s : State) (k gen : Nat) (commit : Bool) : List BankRec :=
  match tableIdx k with
  | some idx => [tableAnchor gen (tableCount s idx) (tableImage s idx)]
  | none => if k = 10 then bankObjs s k ++ manifestAnchors (manifestList s commit) else bankObjs s k

/-- A bank written from the values now in force, its generation one higher (R475). -/
def bankWrite (k : Nat) (commit : Bool) (s : State) : State :=
  let gen := (bankGen s k + 1) % 2 ^ 32
  bankPut k gen (bankRecs s k gen commit) s

/-- A table's image has a key of its own, beside its bank's record. -/
def imageKey (k : Nat) : Nat := 0x100 + k

/-- A bank's contents, and its table's image, brought into the journal. -/
def jnlBank (ok : NorOk) (k : Nat) (s : State) : State :=
  match bankRead s k with
  | some (gen, recs) =>
    let s := match tableIdx k with
      | some idx => jnlPut ok (imageKey k) { gen := gen, data := tableImage s idx } s
      | none => s
    jnlPut ok k { gen := gen, data := recs.flatMap bankRecBytes } s
  | none => s

/-- Room in the journal for a retained value, once it has been compacted (R465, check 9). -/
def jnlRoom (s : State) (n : Nat) : Bool := decide (max s.dict.jnl.live s.dict.jnl2.live + n + 32 ≤ jnlSize)

/-- Fill of the journal in per cent (R481). -/
def jnlFill (s : State) : Nat := if jnlRoom s 0 then min 100 (max s.dict.jnl.used s.dict.jnl2.used * 100 / jnlSize) else 100

/-- A retained value was accepted: outside configuring its bank follows at once, and the journal later (R473). -/
def persist (k : Nat) (s : State) : State :=
  if s.dev = 1 ∨ s.dev = 2 ∨ s.dev = 3 then
    let s := bankWrite k false s
    { s with dict := { s.dict with dirty := if s.dict.dirty.contains k then s.dict.dirty else k :: s.dict.dirty } }
  else s

/-- Pending values are written to both copies of the journal; a write that fails is recorded. They have reached the journal when
either copy holds them (R473, R477, R489; DESIGN CHOICE, log entry 114). -/
def journalPersist (ok : NorOk) (s : State) : State :=
  if s.dict.dirty = [] then s
  else
    let s := if ok.first || ok.second then
        let s := s.dict.dirty.foldl (fun s k => jnlBank ok k s) s
        { s with dict := { s.dict with dirty := [] } }
      else s
    if ok.first && ok.second then s else logFree 0x01 0x08 0 0 s

/-- Every retained value written to its bank and to the journal, with what awaited the commit (R470, 1 and 2; R473). -/
def commitBanks (s : State) : State :=
  let s := (List.range 12).foldl (fun s k => jnlBank {} k (bankWrite k true s)) (pendCommit s)
  { s with dict := { s.dict with dirty := [] } }

/-- A counter that is retained changed: its bank follows. -/
def countRetained (idx sub : Nat) (s : State) : State :=
  match bankOf? idx with
  | some k => bankWrite k false (bumpObj idx sub s)
  | none => s

/-! Grids through the dictionary (R483). -/

/-- A grid's doorbell list: the queues that the compartments with a grant of the grid's ring are granted to receive from, in
ascending cid order and the order of the grants (DEDUCED, log entry 113). -/
def gridDoorbells (s : State) (g : Nat) : List Nat :=
  let has := fun (m : List Byte) => (List.range (mNgr m)).any (fun k => gKind m k == 4 && gRef m k / 65536 == g)
  let qs := fun (m : List Byte) => (List.range (mNgr m)).filterMap (fun k =>
    if gKind m k = 2 ∧ BitVec.ofNat 12 (gPerms m k) &&& permLD ≠ 0 then some (gRef m k) else none)
  (((List.range 1024).filterMap (fun cid => compOf s cid)).flatMap (fun c =>
    if has c.man then qs c.man else [])).eraseDups.take 256

/-- A grid enabled: Monarch places ring, header array and doorbell list, and the commit follows; 0x8001 names Monarch
when the placement is not taken. The state, whether refused, and the refusing unit. -/
def gridEnable (g : Nat) (s : State) : State × Bool × Nat :=
  let p := Config.ringPlace s.fresh g
  let l := gridDoorbells s g
  let s := { s with fresh := s.fresh + 1 }
  let set := fun (off : Nat) (v : W) (s : State) => (gridCfgWrite g off v s).1
  let t := set 8 p.1 (set 0x10 p.2.1 (set 0x28 p.2.2 (set 0x30 (wd l.length) s)))
  if gridBadPlace t g then (s, true, 5)
  else
    let t := ringGates g t
    let t := instStore (fld p.2.2 47 6 * 64) (l.flatMap (fun q => leBytes 4 q)) t
    match fieldWrite (gridBase g) 0 0 1 t with
    | (t, true) => ({ s with regs := tblSet (ingBase + 0x18) (reg t (ingBase + 0x18)) s.regs }, true, 2)
    | (t, false) => (t, false, 0)

/-! Restoration (R476, R478, R484). -/

/-- The anchor of a table bank names an image that the journal holds. -/
def tableAnchored (s : State) (k : Nat) (recs : List BankRec) : Bool :=
  match tableIdx k with
  | none => true
  | some _ =>
    match recs, jnlRec s (imageKey k) with
    | [r], some j => decide (r.idx = 0) && leNat (slice r.val 0 4) == j.gen
        && leNat (slice r.val 6 4) == (crc32c j.data).toNat
    | _, _ => false

/-- Every manifest anchor names a manifest that the journal holds. -/
def manifestsAnchored (s : State) (k : Nat) (recs : List BankRec) : Bool :=
  k != 10 || (anchorsOf recs).all (fun a =>
    match jnlRec s (manKey a.1) with
    | some r => r.gen == a.2.2
    | none => false)

/-- A bank passes its check, anchors included. -/
def bankSound (s : State) (k : Nat) : Option (Nat × List BankRec) :=
  match bankRead s k with
  | some (g, recs) => if tableAnchored s k recs ∧ manifestsAnchored s k recs then some (g, recs) else none
  | none => none

/-- A bank's values loaded. -/
def bankLoad (k : Nat) (recs : List BankRec) (s : State) : State :=
  match tableIdx k with
  | some idx =>
    match jnlRec s (imageKey k) with
    | some j =>
      if tableAnchored s k recs then
        (imageVals j.data.length j.data).foldl (fun s v => { s with objs := tblSet (tabKey v.1 idx v.2.1) v.2.2 s.objs }) s
      else s
    | none => s
  | none => (recs.filter (fun r => r.idx != 0)).foldl (fun s r => setObj r.idx r.sub r.val s) s

/-- One bank restored: from itself, from the journal, or from the factory defaults. -/
def bankRestore (s : State) (k : Nat) : State :=
  let j := jnlRec s k
  let fromJnl := fun (r : JRec) =>
    let recs := (bankParse r.data.length r.data).getD []
    let s := bankPut k r.gen recs (bankLoad k recs s)
    { s with dict := { s.dict with rstJnl := s.dict.rstJnl + 2 ^ k } }
  match bankSound s k, j with
  | some (g, recs), some r => if r.gen ≤ g then bankLoad k recs s else fromJnl r
  | some (_, recs), none => bankLoad k recs s
  | none, some r => fromJnl r
  | none, none =>
    let s := bankWrite k false s
    { s with dict := { s.dict with rstFac := s.dict.rstFac + 2 ^ k } }

/-- The register fields that a reset itself keeps, as the island holds them, and a start loads anew (R545). -/
def islandField (a : Nat) : Bool := a == pcBase + 0x10 || a == pcBase + 0x18

/-- A restored register field that its unit refuses takes its default, and is recorded (R478). -/
def restoreField (idx sub : Nat) (e : DEnt) (s : State) : State :=
  match e.loc, tblFind s.objs (okey idx sub) with
  | .reg a stride hi lo, some b =>
    let refused := fun (s : State) =>
      logFree 0x01 0x05 idx (okey idx sub) { s with objs := tblDel (okey idx sub) s.objs }
    if 0x4010 ≤ idx ∧ idx < 0x4020 ∧ sub = 1 then
      if leNat b = 1 then
        (match gridEnable (idx - 0x4010) s with
         | (s, true, _) => refused s
         | (s, false, _) => s)
      else s
    else
      (match fieldWrite (a + stride * (idx - e.base)) hi lo (leNat b) s with
       | (s, true) => refused s
       | (s, false) => s)
  | .reg a _ hi lo, none => if islandField a then setRegF a hi lo e.dflt s else s
  | _, _ => s

/-- A restored subscription, sampled-value or GOOSE: its fields, and en last. -/
def restoreSub (t idx : Nat) (s : State) (n : Nat) : State :=
  let l := (tableVals s idx).filter (fun v => v.1 == n && !(tableFields idx).contains v.2)
  let put := fun (s : State) (v : Nat × Nat × List Byte) =>
    match entOf idx v.2.1 with
    | some e =>
      (match e.loc with
       | .tab _ _ off hi lo =>
         (match tabWrite t n off hi lo v.2.2 s with
          | (s, true) => logFree 0x01 0x05 n (okey idx v.2.1) { s with objs := tblDel (tabKey n idx v.2.1) s.objs }
          | (s, false) => s)
       | _ => s)
    | none => s
  (l.filter (fun v => v.2.1 == 2)).foldl put ((l.filter (fun v => v.2.1 != 2)).foldl put s)

/-- A field whose acceptance depends on the other fields of its index: a grid's en, and a PTP port's profile. -/
def fieldLate (e : DEnt) : Bool := (e.base == 0x4010 && e.sub == 1) || (e.base == 0x3110 && e.sub == 2)

/-- The fields of the indices from one base loaded: index by index, and in each the late ones last. -/
def restoreBase (s : State) (base : Nat) : State :=
  let l := ents.filter (fun e => e.ret && e.base == base)
  if base = 0x4001 then (tableEntries s base).foldl (restoreSub 0 base) s
  else if base = 0x5021 then (tableEntries s base).foldl (restoreSub 2 base) s
  else
    (List.range (l.foldl (fun n e => max n e.cnt) 0)).foldl (fun s i =>
      (l.filter (fun e => !fieldLate e) ++ l.filter fieldLate).foldl (fun s e =>
        (List.range e.subs).foldl (fun s j => if i < e.cnt then restoreField (e.base + i) (e.sub + j) e s else s) s) s) s

/-- Every register field loaded, in ascending index order (R478). -/
def restoreFields (s : State) : State := (((ents.filter (fun e => e.ret)).map (fun e => e.base)).eraseDups).foldl restoreBase s

/-- An image stored in its table; the trip unit alone writes bytes 0x20 to 0x3F of a trip object (R369). -/
def imagePut (publication : Bool) (a : Nat) (b : List Byte) (s : State) : State :=
  if publication then memStore a b s else memStore (a + 0x40) (b.drop 0x40) (memStore a (b.take 0x20) s)

/-- The images of an image table rewritten at its base, and the entries enabled that were. -/
def restoreImages (idx : Nat) (publication : Bool) (s : State) : State :=
  let base := if publication then pubBase s else tripBase s
  let size := if publication then 2048 else 256
  if base = 0 then s
  else (tableEntries s idx).foldl (fun s n =>
    let s := match tblFind s.objs (tabKey n idx 1) with
      | some b => imagePut publication (base + size * n) b s
      | none => s
    match tblFind s.objs (tabKey n idx 6) with
    | some b =>
      if leNat b = 1 then (if publication then (tripCommandPub n 1 false s).2 else (tripCommandObj n 1 false s).2) else s
    | none => s) s

/-- Journalled manifests that bank 10 names await placement, in ascending cid order (R426). -/
def restoreManifests (s : State) : State :=
  { s with mon := { s.mon with wait := (bankAnchors s).filterMap (fun a =>
      (jnlRec s (manKey a.1)).map (fun r => (a.1, r.data))) } }

/-- The values of 0x1030 that are in force until the next start (R479). -/
def carrierKey (sub : Nat) : Nat := okey 0x10030 sub
def carriersLatch (s : State) : State :=
  (List.range 7).foldl (fun s i =>
    match tblFind s.objs (okey 0x1030 (i + 1)) with
    | some b => { s with objs := tblSet (carrierKey (i + 1)) b s.objs }
    | none => s) s

/-- A value of 0x1030 in force. -/
def carrierVal (s : State) (sub d : Nat) : Nat :=
  match tblFind s.objs (carrierKey sub) with
  | some b => leNat b
  | none => d

/-- The restoration of R478. -/
def restoration (s : State) : State :=
  let s := { s with dict := { s.dict with rstJnl := 0, rstFac := 0 } }
  let s := (List.range 12).foldl bankRestore s
  let s := if s.dict.tailBad then { s with dict := { s.dict with tailBad := false, rstFac := s.dict.rstFac + 2 ^ 14 } } else s
  let s := if s.dict.rstJnl + s.dict.rstFac ≠ 0 then
      logFree 0x01 0x05 0 (s.dict.rstJnl + s.dict.rstFac * 2 ^ 16) (setRegF (pcBase + 0x20) 7 7 1 s)
    else s
  let s := carriersLatch (restoreFields s)
  restoreManifests (restoreImages 0x5002 false (restoreImages 0x5011 true s))

end Sys2Proof.Machine
end

