-- ==== Sys2Proof/Machine/Sec.lean ====
section
/-! DEFINITION. The security unit (R551 to R573): lifecycle, images, secrets, identity, attestation, debug tokens. -/

namespace Sys2Proof.Machine

/-- A security event (R573). -/
def secEvent (code unit : Nat) (detail : Nat) (s : State) : State := logEvent 0x0C code unit (wd detail) s

/-! OTP fields (R551, R553). -/

/-- The lifecycle state. -/
def lcState (s : State) : Nat := if otpBit s 2 then 3 else if otpBit s 1 then 2 else if otpBit s 0 then 1 else 0

/-- The identity's parameter set. -/
def idSet (s : State) : Nat := b2n (otpBit s 4) + b2n (otpBit s 5) * 2

/-- n of a parameter set. -/
def slhN (set : Nat) : Nat := match set with | 2 => 24 | 3 => 32 | _ => 16

def rootFlags (s : State) (k : Nat) : Nat := (otpByte s (0x60 + 0x40 * k)).toNat
def rootSet (s : State) (k : Nat) : Nat := rootFlags s k % 4
def rootProg (s : State) (k : Nat) : Bool := (rootFlags s k).testBit 2
def rootRev (s : State) (k : Nat) : Bool := (rootFlags s k).testBit 3
def rootHash (s : State) (k : Nat) : List Byte := otpBytes s (0x40 + 0x40 * k) 32

/-- Roots revoked, as a mask. -/
def rootMask (s : State) : Nat := (List.range 4).foldl (fun m k => if rootRev s k then m + 2 ^ k else m) 0

/-- The anti-rollback counter. -/
def arbCount (s : State) : Nat := ((List.range 128).filter (fun i => otpBit s (8 * 0x140 + i))).length

/-- A fuse burned. -/
def burn (i : Nat) (s : State) : State :=
  if s.sec.fuses.contains i then s else { s with sec := { s.sec with fuses := i :: s.sec.fuses } }

/-! Images (R555, R556, R562). -/

def imgNat (m : List Byte) (o n : Nat) : Nat := leNat (slice m o n)
def imgPset (m : List Byte) : Nat := imgNat m 6 1 % 4
def imgRk (m : List Byte) : Nat := imgNat m 6 1 / 4 % 4
def imgFwver (m : List Byte) : Nat := imgNat m 8 4
def imgSvn (m : List Byte) : Nat := imgNat m 0xC 4
def imgPlen (m : List Byte) : Nat := imgNat m 0x10 4
def imgEoff (m : List Byte) : Nat := imgNat m 0x14 4
def imgRkrev (m : List Byte) : Nat := imgNat m 0x18 1 % 16
def imgPk (m : List Byte) : List Byte := slice m 0x40 (2 * slhN (imgPset m))

/-- The header is malformed. -/
def imgMalformed (m : List Byte) : Bool :=
  imgNat m 0 4 != 0x47584351 || imgNat m 4 2 != 1 || decide (16 ≤ imgNat m 6 2) || imgPlen m == 0
    || decide (50294784 < imgPlen m) || imgEoff m % 8 != 0 || decide (imgPlen m ≤ imgEoff m)
    || decide (16 ≤ imgNat m 0x18 8) || imgNat m (0x40 + 2 * slhN (imgPset m)) (64 - 2 * slhN (imgPset m)) != 0
    || (slice m 0x80 0xF80).any (fun b => b != 0)

/-- The chunks of a payload. -/
def chunks : Nat → List Byte → List (List Byte)
  | 0, _ => []
  | k + 1, b => if b = [] then [] else b.take 0x100000 :: chunks k (b.drop 0x100000)

/-- The payload digest. -/
def payloadDigest (b : List Byte) : List Byte :=
  sha256 (leBytes 4 b.length ++ (chunks (b.length / 0x100000 + 1) b).flatMap sha256)

/-- The checks of a header, 0x01 to 0x05, in order; 0 when it passes. `exact` compares the length written. -/
def headerCode (s : State) (m : List Byte) (exact : Bool) : Nat :=
  let k := imgRk m
  if imgMalformed m ∨ m.length < 36864 + imgPlen m ∨ (exact ∧ m.length ≠ 36864 + imgPlen m) then 1
  else if !rootProg s k ∨ rootSet s k ≠ imgPset m ∨ sha256 (imgPk m) ≠ rootHash s k then 2
  else if rootRev s k then 3
  else if imgSvn m < arbCount s ∨ 128 < imgSvn m then 4
  else if !Config.slhVerify (imgPset m) (imgPk m) (slice m 0 0x1000) (slice m 0x1000 (Config.slhSize (imgPset m))) then 5
  else 0

/-- The whole check of an image; 0 when it passes. -/
def imageCode (s : State) (m : List Byte) (exact : Bool) : Nat :=
  let c := headerCode s m exact
  if c ≠ 0 then c
  else if payloadDigest (slice m 0x9000 (imgPlen m)) ≠ slice m 0x20 32 then 6
  else 0

/-- rkrev names the signing root, or would leave no root programmed and unrevoked. -/
def rkrevBad (s : State) (m : List Byte) : Bool :=
  (imgRkrev m).testBit (imgRk m)
    || (List.range 4).all (fun k => !rootProg s k || rootRev s k || (imgRkrev m).testBit k)

/-! Slots (R554, R557, R561, R563). -/

/-- The image in a slot; the factory programmed slot A. -/
def slotImage (s : State) (n : Nat) : List Byte := (tblFind s.sec.flash n).getD (if n = 0 then Config.image else [])

def imageState (s : State) (n : Nat) : Nat := if n = 0 then s.sec.slots.stA else s.sec.slots.stB

/-- The record written again with a slot's state. -/
def setSlotState (n st : Nat) (s : State) : State :=
  let r := s.sec.slots
  { s with sec := { s.sec with slots := if n = 0 then { r with gen := r.gen + 1, stA := st }
                                        else { r with gen := r.gen + 1, stB := st } } }

/-- The slot that is not running. -/
def otherSlot (s : State) : Nat := 1 - s.sec.run

/-- The header of the running image. -/
def runHeader (s : State) : List Byte := slice (slotImage s s.sec.run) 0 0x1000

/-- The running slot is pending: the other is the fallback. -/
def trialRun (s : State) : Bool := s.sec.slots.pending == some s.sec.run

/-- fw_result. -/
def setFwResult (code slot : Nat) (s : State) : State := { s with sec := { s.sec with result := code + slot * 2 ^ 8 } }

/-- A complete image has been written to 0x7010:01 (R561, R562): refused with its code, or programming begins. The
second part is true when programming has begun. -/
def imageWrite (m : List Byte) (sess tid : Nat) (s : State) : State × Bool :=
  let n := otherSlot s
  let c := imageCode s m true
  let c := if c = 0 ∧ rkrevBad s m then 7 else c
  if c ≠ 0 then (secEvent 0x05 n c (setFwResult c n s), false)
  else
    let s := setSlotState n 0 s
    ({ s with sec := { s.sec with flash := tblSet n [] s.sec.flash, prog := some (n, m, sess, tid) } }, true)

/-- Programming and read-back end: the slot, and the session and transaction to be answered. -/
def imageWritten (ok : Bool) (s : State) : State × Option (Nat × Nat) :=
  match s.sec.prog with
  | none => (s, none)
  | some (n, m, sess, tid) =>
    let s := { s with sec := { s.sec with prog := none } }
    if ok then
      let s := setSlotState n 1 { s with sec := { s.sec with flash := tblSet n m s.sec.flash } }
      (secEvent 0x04 n (imgFwver m) (setFwResult 0 n s), some (sess, tid))
    else (secEvent 0x05 n 8 (setFwResult 8 n (setSlotState n 2 s)), some (sess, tid))

/-- An open write of 0x7010:01, in any session. -/
def imageOpen (s : State) : Bool :=
  s.sec.prog.isSome || s.dl.sess.any (fun e => e.2.txs.any (fun t => t.kind == 1 && t.idx == 0x7010 && t.sub == 1))

/-- fw_activate: the other slot becomes pending (R563). True when it was refused. -/
def fwActivate (s : State) : State × Bool :=
  let n := otherSlot s
  if imageState s n ≠ 1 ∨ s.sec.slots.pending.isSome ∨ imageOpen s then (s, true)
  else
    let s := setSlotState n 3 s
    let s := { s with sec := { s.sec with slots := { s.sec.slots with pending := some n, trial := 0 } } }
    (secEvent 0x06 n (imgSvn (slotImage s n)) s, false)

/-- Confirmation at the first entry into running from a pending slot (R563). -/
def confirm (s : State) : State :=
  if s.dev = 1 ∧ trialRun s then
    let n := s.sec.run
    let m := slotImage s n
    let old := arbCount s
    let need := imgSvn m - old
    let free := ((List.range 128).filter (fun i => !otpBit s (8 * 0x140 + i))).take need
    let s := free.foldl (fun s i => burn (8 * 0x140 + i) s) s
    let s := (List.range 4).foldl (fun s k =>
      if (imgRkrev m).testBit k ∧ !rootRev s k then
        let s := burn (8 * (0x60 + 0x40 * k) + 3) s
        secEvent 0x08 k (rootMask s) s
      else s) s
    let s := setSlotState (1 - n) 1 (setSlotState n 4 s)
    let s := { s with sec := { s.sec with slots := { s.sec.slots with active := n, pending := none, trial := 0 } } }
    secEvent 0x07 n (old + arbCount s * 2 ^ 16) s
  else s

/-! Lifecycle (R552). -/

/-- An unlock ends (R572). -/
def unlockEnd (why : Nat) (s : State) : State :=
  if s.sec.unlock.isSome then secEvent 0x0C 0 why { s with sec := { s.sec with unlock := none } } else s

/-- sec_state. -/
def secretState (s : State) : Nat := b2n s.sec.op.isSome + b2n s.sec.mnt.isSome * 2

/-- lc_cmd := 2. True when it was refused. -/
def fieldSecure (s : State) : State × Bool :=
  if lcState s = 1 ∧ (List.range 4).any (fun k => rootProg s k && !rootRev s k) ∧ secretState s = 3 then
    (secEvent 0x09 0 (1 + 2 * 2 ^ 8) (unlockEnd 1 (burn 1 s)), false)
  else (s, true)

/-- lc_cmd := 3. -/
def decommission (s : State) : State × Bool :=
  let l := lcState s
  if l = 1 ∨ l = 2 then
    let s := (List.range 256).foldl (fun s i => burn (8 * 0x200 + i) s) (burn 2 (burn 1 s))
    let s := { s with sec := { s.sec with op := none, mnt := none } }
    (secEvent 0x09 0 (l + 3 * 2 ^ 8) (unlockEnd 1 s), false)
  else (s, true)

/-- A commissioning secret replaced in the sealed store (R564). -/
def secretWrite (maint : Bool) (b : List Byte) (s : State) : State :=
  if maint then { s with sec := { s.sec with mnt := some b } } else { s with sec := { s.sec with op := some b } }

/-! Identity and attestation (R565, R566). -/

/-- The identity key exists. -/
def hasIdentity (s : State) : Bool := lcState s == 1 || lcState s == 2

/-- The three seeds of the identity key. -/
def idSeeds (s : State) : List Byte :=
  hkdf (octets "CXM-ID-1") (otpBytes s 0x200 32) (serial s ++ leBytes 1 (idSet s)) (3 * slhN (idSet s))

/-- id_pub. -/
def idPub (s : State) : List Byte :=
  if hasIdentity s then slice (Config.slhPublic (idSet s) (idSeeds s)) 0 (2 * slhN (idSet s)) else []

/-- A message signed with the identity key. -/
def idSign (s : State) (m : List Byte) : List Byte :=
  slice (Config.slhSign (idSet s) (idSeeds s) m) 0 (Config.slhSize (idSet s))

/-- The port's state (R569): 0 closed, 1 open by lifecycle, 2 unlocked by token, 3 token lockout. -/
def debugState (s : State) : Nat :=
  if lcState s ≠ 2 then 1 else if s.sec.unlock.isSome then 2 else if 3 ≤ s.sec.rejects then 3 else 0

/-- The digest of the boot ROM. -/
def romDigest : List Byte := sha256 ((List.range 0x40000).map Config.bootRom)

/-- The report up to the module's serial number (R566). -/
def reportModule (s : State) : List Byte :=
  octets "CXAT" ++ leBytes 1 1 ++ leBytes 1 (idSet s) ++ leBytes 1 (lcState s) ++ leBytes 1 s.dev ++ serial s

/-- What the report says of the running image (R566). -/
def reportImage (s : State) : List Byte :=
  let h := runHeader s
  leBytes 4 (imgFwver h) ++ leBytes 1 s.sec.run ++ leBytes 1 (imgRk h) ++ leBytes 1 (rootMask s) ++ leBytes 1 0
    ++ leBytes 4 (imgSvn h) ++ leBytes 4 (arbCount s)

/-- The digest of the digests of the placed manifests, in ascending cid (R566). -/
def manifestDigest (s : State) : List Byte :=
  sha256 ((List.range 1024).filterMap (fun cid => (compOf s cid).map (fun c => sha256 c.man))).flatten

/-- The report but for its signature (R566). -/
def reportBody (s : State) (nonce : List Byte) : List Byte :=
  reportModule s ++ reportImage s ++ sha256 (runHeader s) ++ romDigest ++ manifestDigest s ++ nonce
    ++ time96 (time16 s)
    ++ leBytes 4 (b2n (tlock s) + b2n s.sec.was * 2 + b2n (lcState s != 2) * 4) ++ leBytes 8 0

/-- The report of the request in front is signed: the session and transaction to be answered, and whether there is a
report; none is without an identity (R552). -/
def reportSigned (s : State) : State × Option (Nat × Nat × Bool) :=
  match s.sec.jobs with
  | .report sess tid nonce :: l =>
    if !hasIdentity s then ({ s with sec := { s.sec with jobs := l } }, some (sess, tid, false)) else
    let b := reportBody s nonce
    let s := { s with sec := { s.sec with jobs := l, report := b ++ idSign s b } }
    (secEvent 0x0D sess (leNat (slice nonce 0 8)) s, some (sess, tid, true))
  | _ => (s, none)

/-! Debug tokens (R570 to R572). -/

/-- The nonce in force; a draw is 16 octets. -/
def dbgNonce (s : State) : List Byte := if s.sec.nonce = [] then slice (Config.random 0 16) 0 16 else s.sec.nonce

/-- Fresh random octets. -/
def drawRandom (n : Nat) (s : State) : List Byte × State :=
  (slice (Config.random (s.fresh + 1) n) 0 n, { s with fresh := s.fresh + 1 })

/-- A fresh nonce drawn. -/
def nonceDraw (s : State) : State :=
  match drawRandom 16 s with
  | (b, s) => { s with sec := { s.sec with nonce := b } }

/-- A token passes every check. -/
def tokenOk (s : State) (b : List Byte) : Bool :=
  let k := imgNat b 5 1
  let n := slhN (rootSet s k)
  let pk := slice b 48 (2 * n)
  slice b 0 4 == octets "CXDT" && imgNat b 4 1 == 1 && decide (k < 4) && decide (imgNat b 6 1 < 4) && imgNat b 7 1 == 0
    && slice b 8 16 == serial s && slice b 24 16 == dbgNonce s && decide (1 ≤ imgNat b 40 4)
    && decide (imgNat b 40 4 ≤ 86400) && imgNat b 44 4 == 0 && imgNat b (48 + 2 * n) (64 - 2 * n) == 0
    && decide (b.length = 112 + Config.slhSize (rootSet s k)) && rootProg s k && !rootRev s k
    && sha256 pk == rootHash s k && Config.slhVerify (rootSet s k) pk (slice b 0 112) (b.drop 112)

/-- A token handled, from JTAG or the dictionary. True when it was accepted. -/
def token (b : List Byte) (s : State) : State × Bool :=
  if lcState s ≠ 2 ∨ 3 ≤ s.sec.rejects then (s, false)
  else if tokenOk s b then
    let life := imgNat b 40 4
    let s := nonceDraw { s with sec := { s.sec with unlock := some (s.time.dur + life * tSec, imgNat b 6 1), was := true } }
    (secEvent 0x0A (imgNat b 5 1) (imgNat b 6 1 + life * 2 ^ 32) s, true)
  else
    let s := nonceDraw { s with sec := { s.sec with rejects := s.sec.rejects + 1 } }
    (secEvent 0x0B 0 s.sec.rejects s, false)

/-- The token's life ends. -/
def unlockExpiry (s : State) : State :=
  match s.sec.unlock with
  | some (t, _) => if t ≤ s.time.dur then unlockEnd 0 s else s
  | none => s

/-- MEMAP is performed at an address: in state 1, and in state 2 with the right of the token. What the SPI NOR
controller takes up in control part 0 is what no other unit has there. -/
def memapOk (s : State) (a : Nat) : Bool :=
  match debugState s with
  | 1 => true
  | 2 =>
    (match s.sec.unlock with
     | some (_, r) => r.testBit 0 || (r.testBit 1 && decide (0x60110000 ≤ a) && decide (a < partIsland))
     | none => false)
  | _ => false

/-- The port has power and a clock (R569). -/
def jtagLive (s : State) : Bool := pstateOf s == 0 || pstateOf s == 3

/-! Sessions that close (R504): what the security unit owes to them goes with them. -/

/-- A session closed: its transactions are abandoned, and answers still owed to it are dropped. -/
def closeSess (n : Nat) (s : State) : State :=
  let jobs := s.sec.jobs.filterMap (fun j => match j with
    | .report k t nonce => some (if k = n then SignJob.report 0 t nonce else .report k t nonce)
    | .ident k t => if k = n then none else some (.ident k t))
  let prog := s.sec.prog.map (fun p => if p.2.2.1 = n then (p.1, p.2.1, 0, p.2.2.2) else p)
  { s with dl := { s.dl with sess := tblDel n s.dl.sess }, sec := { s.sec with jobs := jobs, prog := prog },
           dict := { s.dict with ref := tblDel n s.dict.ref } }

/-- The sessions of a set of carriers closed. -/
def closeOn (on : Carrier → Bool) (s : State) : State :=
  (s.dl.sess.filter (fun e => on e.2.carrier)).foldl (fun s e => closeSess e.1 s) s

end Sys2Proof.Machine
end

