-- ==== Sys2Proof/Machine/Chip.lean ====
section
/-! DEFINITION. The chip's power states (R533 to R548), the supplies (R582, R584), and the start: boot ROM, stage 1 and
restoration (R558 to R560, R478). -/

namespace Sys2Proof.Machine

/-! The wake record (R548). -/

/-- The wake record among the records of a bank, zero where there is none. -/
def wakeBytes : Option (Nat × List BankRec) → List Byte
  | some (_, l) =>
    (match l.find? (fun r => r.idx == 0 && r.sub == 2) with
     | some r => slice r.val 0 24
     | none => List.replicate 24 0)
  | none => List.replicate 24 0

/-- The 24 bytes of the wake record in bank 15, zero when the bank fails its check. -/
def wakeRecord (s : State) : List Byte := wakeBytes (bankRead s 15)

/-- Bank 15 written: the counters, and the record with a time of entry. -/
def bank15 (treq : List Byte) (origin cause fired : Nat) (s : State) : State :=
  let w := reg s pcBase
  let rcd := treq ++ leBytes 1 origin ++ leBytes 1 (fld w 6 4) ++ leBytes 1 (fld w 11 8) ++ leBytes 1 cause
    ++ leBytes 2 fired ++ List.replicate 6 0
  let recs : List BankRec :=
    [{ idx := 0x2020, sub := 5, val := leBytes 4 (regF s (pcBase + 0x30) 31 0) },
     { idx := 0x2020, sub := 6, val := leBytes 4 (regF s (pcBase + 0x30) 63 32) },
     { idx := 0, sub := 2, val := rcd }]
  bankPut 15 ((bankGen s 15 + 1) % 2 ^ 32) recs s

/-- The record at an entry to standby or hibernate. -/
def recordEntry (origin : Nat) (s : State) : State :=
  bank15 (time96 (islandTime s * (1000 * 2 ^ 16))) origin (fld (reg s (pcBase + 0x20)) 7 0) 0 s

/-- The record at a failed attempt or a completed wake. -/
def recordWake (s : State) : State := bank15 (slice (wakeRecord s) 0 12) s.chip.origin s.chip.cause s.chip.fired s

/-! Entry to standby (R535 to R537). -/

/-- A cell powered off for standby; what Monarch wrote as its ENTRY is written again at the wake. -/
def cellSleep (n : Nat) (s : State) : State :=
  let c := cellOf s n
  modCell n (fun x => { x with powered := false, entry := c.entry, entRef := c.entRef }) (resetCell n c.vtm s)

/-- The stores that a core still buffers are performed. -/
def sbDrain (n : Nat) (s : State) : State :=
  let sb := (cellOf s n).sb
  let s := modCell n (fun c => { c with sb := [] }) s
  sb.foldl (fun s e =>
    match gateCheck s n e.pa e.data.length .write with
    | .error d => lseRecord n d.reason e.bank e.slot e.split e.va (gateEvent n e.pa .write d s)
    | .ok _ =>
      if inControl e.pa && !anyWidth e.pa then (wordWrite false e.pa (wd (leNat e.data)) s).1
      else if e.isCap then physStoreCap e.pa e.data e.tag s
      else physStore e.pa e.data s) s

/-- A control access that a core has under way is made. -/
def ctlDrain (n : Nat) (s : State) : State :=
  match (cellOf s n).stall with
  | .ctl true _ pa v _ _ =>
    let s := match gateCheck s n pa 8 .write with
      | .error d => writeAnswer n d.reason pa (gateEvent n pa .write d s)
      | .ok _ =>
        if inControl pa && !anyWidth pa then (wordWrite false pa v s).1 else physStore pa (leBytes 8 v.toNat) s
    modCell n (fun c => { c with stall := .none, stallPc := none }) s
  | .ctl false _ pa _ _ undo =>
    (match gateCheck s n pa 8 .read, undo with
     | .error d, some u => modCell n (undoBank (cellOf s n).run u) (gateEvent n pa .read d s)
     | .error d, none => gateEvent n pa .read d s
     | .ok _, _ =>
       let w := wd (physNat s pa 8)
       modCell n (fun c => setBank c.run (applyWr (.ports [(0x1A8, w)]) (runBank c)) { c with stall := .none }) (readEffect pa s))
  | _ => s

/-- The trip requests that a core has under way are served, and answered (R89, R167). -/
def trpDrain (n : Nat) (s : State) : State :=
  let c := cellOf s n
  (c.trp ++ c.trpHeld.toList).foldl (fun s r =>
    let z := match r.ans with
      | some w => (w, s)
      | none => tripServe n r s
    modCell n (fun c => setBank r.bank (applyWr (.ports [(0x191, z.1)]) (bankOf c r.bank)) c) z.2)
    (setCell n { c with trp := [], trpHeld := none } s)

/-- What a core has under way is completed: stores, loads, a control access and trip requests (R217). -/
def coreDrain (n : Nat) (s : State) : State :=
  let s := sbDrain n s
  let s := (cellOf s n).loads.foldl (fun s _ => loadReturn n { ret := .ok } s) s
  trpDrain n (ctlDrain n s)

/-- A core stopped for standby, with what it has under way completed and its banks flushed to their cocoons; stopc,
stopa and stopi read 0, and stopp and stopt as at any stop (R89, R217, R535). An operation of its queue units is undone
with its bundle (R311). -/
def coreStop (n : Nat) (s : State) : State :=
  let s := coreDrain n s
  let s := if (cellOf s n).stopped then s
    else
      let s := stallUndo n s
      let c := cellOf s n
      let stop := fun (c : Cell) => { applyWant c with
        stopped := true, stopReq := false, runBit := false, stall := .none, stallPc := none, flush := true,
        restore := none, waiting := false, after := none, away := none, trpHeld := none, held := none }
      let s := [0x30, 0x38, 0x40].foldl (fun s o => setReg (ctlBase n + o) 0 s) (modCell n stop s)
      setReg (ctlBase n + 0x48) (if hasContext c then c.stallPc.getD (runBank c).pcc.addr else 0)
        (setReg (ctlBase n + 0x50) (timeWord s) s)
  if (cellOf s n).flush then modCell n (fun c => { c with heldUp := false }) (flushEnd n { core := n } s) else s

/-- The fabric at rest before the cores stop: retrains have ended and accepted gate writes are in force (DESIGN CHOICE, log
entry 86). -/
def fabricRest (s : State) : State :=
  lateFlush (gatesApplied { s with links := s.links.map (fun e => (e.1, { e.2 with training := none })) })

/-- A block holds scratch contents. -/
def blockScratch (s : State) (b : Nat) : Bool := (List.range 8).any (fun w => wayScratch s b w)

/-- A block holds a cocoon of a placed thread. -/
def blockCocoon (s : State) (b : Nat) : Bool :=
  s.mon.comps.any (fun e => e.2.thr.any (fun t => t.seat.cell / 16 == b))

/-! Blocks saved to DDR4 (R536). -/

/-- The save areas of a region's channel, or of all of DDR4 under striped mapping: the topmost bytes, 6 MiB for each block
(DESIGN CHOICE, log entry 116). -/
def saveBase (s : State) (r : Nat) : Nat :=
  if s.striped then 0x1000000000 + 4 * ddrFit s - 16 * 0x600000
  else 0x1000000000 * (r + 1) + ddrFit s - 4 * 0x600000

def saveArea (s : State) (b : Nat) : Nat := saveBase s (b / 4) + 0x600000 * (if s.striped then b else b % 4)

/-- What a save copies: the block's sixteen cell stores and its scratch ways; store, place in the save area, and length. -/
def savePieces (s : State) (b : Nat) : List (Nat × Nat × Nat) :=
  (0x40000000 + b * 0x200000, saveArea s b, 0x200000)
    :: ((List.range 8).filter (fun w => wayScratch s b w)).map (fun w =>
        (0x44000000 + b * 0x400000 + w * 0x80000, saveArea s b + 0x200000 + w * 0x80000, 0x80000))

/-- A block copied to its save area, or back, with its tags, by the instance of its region: whether all of it was (R78; DEDUCED,
log entry 116). -/
def saveCopy (back : Bool) (b : Nat) (s : State) : Bool × State :=
  (savePieces s b).foldl (fun z p =>
    let y := if back then gatedCopy (0x100 + b / 4) p.2.1 p.1 p.2.2 z.2 else gatedCopy (0x100 + b / 4) p.1 p.2.1 p.2.2 z.2
    (z.1 && y.1, y.2)) (true, s)

/-- A block whose contents standby loses. -/
def blockGone (b : Nat) (s : State) : State := enterOff b { s with chip := { s.chip with lost := b :: s.chip.lost } }

/-- A block put to nap or off, and the contents of one that nap refuses saved; where that fails they are lost (R535 to R537). -/
def blockSleep (thermal : Bool) (s : State) (b : Nat) : State :=
  let was := reg s (regAddr b)
  let s := (List.range 16).foldl (fun s c => cellSleep (16 * b + c) s) s
  let s := { s with chip := { s.chip with resume := (b, was) :: s.chip.resume } }
  let s := blockCachesEmpty false b (setRegF (regStat b) 31 16 0 s)
  let keep := blockKeeps s b || blockScratch s b || blockCocoon s b
  if astOf s b = 3 then s
  else if !keep then enterOff b s
  else if thermal then blockGone b s
  else if astOf s b = 2 then s
  else if 950 < hottest (temps s b) then
    let x := saveCopy false b s
    let s := logFree 0x0B 0x0C b (tempNat (hottest (temps s b))) x.2
    if x.1 then enterOff b { s with chip := { s.chip with saved := b :: s.chip.saved } } else blockGone b s
  else setRegF (regStat b) 6 4 2 (setPhase b .none (setMv b 600 s))

/-- A manager's cached descriptors written back to the table (R535, step 5); pinned ones stay cached, and one that cannot
be written back stays, disabled (R317, R321). -/
def qFlush (s : State) (r : Nat) : State :=
  (qCacheOf s r).foldl (fun s d =>
    if d.stuck then s
    else
      let t := qWriteBack r .none d s
      if dPin d && !(qCacheOf t r).any (fun x => x.q == d.q) then setCache r (qCacheOf t r ++ [d]) t else t) s

/-- Every session closed without a message (R504). -/
def closeAll (s : State) : State :=
  let s := setReg (partPcie + 0x5010) 0 (closeOn (fun _ => true) s)
  { s with dl := { s.dl with opens := [], rsp := none, rspQ := [] } }

/-- The hot compartments handed to the partner (steps 1 to 3 of R450). -/
def standbyHandover (s : State) : State :=
  let s := s.mon.comps.foldl (fun s e => if e.2.move.isSome then migrationInstall e.1 s else s) s
  if s.twin.state = 1 then
    let l := (mirrored s 1).filter (fun cid => match compOf s cid with | some c => mTwin c.man == 2 | none => false)
    let s := l.foldl (fun s cid => goStandby cid (handOver cid s)) s
    if l = [] then s else logFree 0x0B 0x0B 0 l.length s
  else s

/-- What the entry to standby notes for the wake: the cells that run, and the time. A wake that is abandoned has noted it
before (R535, R537). -/
def standbyNote (s : State) : State :=
  if pstateOf s = 3 ∧ s.chip.origin = 1 then s
  else
    let live := (s.cells.filter (fun e => !e.2.stopped)).map (fun e => e.1)
    { s with chip := { s.chip with resume := [], saved := [], lost := [], cells := live, slept := s.time.dur } }

/-- Entry to standby, or to thermal standby. Nothing that it asks of the fabric is left waiting: it rests before the cores stop and
after what they still had under way. -/
def standbyEnter (thermal : Bool) (s : State) : State :=
  let s := standbyNote s
  let s := if thermal then s else standbyHandover s
  let s := fabricRest (s.chip.cells.foldl (fun s n => coreStop n s) (fabricRest s))
  let s := closeAll ((List.range 16).foldl (blockSleep thermal) s)
  let s := islandCapture ((List.range 4).foldl qFlush s)
  let s := { s with twin := { s.twin with state := 0, hb := none }, hw := { s.hw with up := [], pcie := false },
                    chip := { s.chip with thermal := thermal, retry := none }, waits := false }
  let s := setPstate 1 s
  recordEntry 1 (vinSettle (vinTarget s) s)

/-! Hibernate (R538, R584). -/

/-- Everything that the chip held is gone; the island, flash and the module hardware keep theirs. -/
def chipLost (s : State) : State :=
  let s := blocksOff (recFatal false (afterReset s))
  { s with cells := [], time := { dur := s.time.dur, state := 0 },
           chip := { s.chip with resume := [], saved := [], lost := [], cells := [], thermal := false } }

/-- The chip held powered down by the island. -/
def hibernated (mainsLost : Bool) (s : State) : State :=
  let s := setPstate 2 (chipLost s)
  recordEntry 2 { s with chip := { s.chip with mainsLost := mainsLost, retry := none } }

/-- Entry to hibernate by command: the journal is brought up to date first. -/
def hibernateEnter (s : State) : State :=
  let s := if pstateOf s = 0 then standbyEnter false s else s
  hibernated false (journalPersist {} s)

/-! Wake (R541 to R544). -/

/-- Every sensor reads 95 C or less (R537). -/
def coolEnough (s : State) : Bool := (List.range 16).all (fun b => decide (hottest (temps s b) ≤ 950))

/-- A wake begins, from the state that the chip is in. -/
def wakeBegin (cause fired : Nat) (s : State) : State :=
  let from_ := pstateOf s
  if s.chip.retry.isSome ∨ (s.chip.thermal ∧ !coolEnough s) then s
  else if from_ = 1 then
    let cause := if s.chip.thermal then 0x0D else cause
    setStep 1 2 (setPstate 3 { s with chip := { s.chip with origin := 1, cause := cause, fired := fired } })
  else if from_ = 2 ∨ from_ = 4 then
    let s := logStart s
    setStep 1 1 (setPstate 3 { s with chip := { s.chip with
      origin := if from_ = 2 then 2 else 3, cause := cause, fired := fired, mainsLost := false } })
  else s

/-- A wake source of R543: 0 command, 1 timer, 2 CAN, 3 mains, when it is enabled. -/
def wakeSource (k : Nat) (s : State) : State :=
  if !(k == 0 || bit (reg s (pcBase + 0x10)) k) || !s.chip.mains || !s.chip.aux then s
  else if pstateOf s = 1 then wakeBegin (5 + k) (2 ^ k) s
  else if pstateOf s = 2 ∨ pstateOf s = 4 then wakeBegin (8 + k) (2 ^ k) s
  else s

/-- The timer source: the island time has reached wake_at, which it clears. -/
def wakeTimer (s : State) : State :=
  let at_ := fld (reg s (pcBase + 0x18)) 47 0
  if at_ ≠ 0 ∧ at_ * 1000000 ≤ islandTime s ∧ bit (reg s (pcBase + 0x10)) 1 then
    let t := wakeSource 1 s
    if pstateOf t = 3 ∧ pstateOf s ≠ 3 then setReg (pcBase + 0x18) 0 t else s
  else s

/-- The chip goes back to what a failed attempt started from. -/
def attemptUndo (s : State) : State :=
  match s.chip.origin with
  | 1 => setPstate 1 s
  | 3 => setPstate 4 (chipLost s)
  | _ => setPstate 2 (chipLost s)

/-- The chip enters wake-failed: the device has failed (R471, R542). -/
def wakeFailed (step : Nat) (s : State) : State :=
  let s := setPstate 4 (chipLost s)
  let s := logFree 0x0B 0x07 0 step { s with chip := { s.chip with fcause := 1, retry := none, origin := 3 } }
  recordWake (setDev 4 s)

/-- A step has timed out (R542). -/
def stepTimeout (s : State) : State :=
  if pstateOf s ≠ 3 then s
  else
    let w := reg s pcBase
    let attempt := fld w 6 4
    let step := fld w 11 8
    let n := regF s (pcBase + 0x30) 63 32
    let s := setRegF (pcBase + 0x30) 63 32 (satInc32 n) s
    let s := logFree 0x0B 0x06 0 (attempt + step * 2 ^ 8) s
    if 4 ≤ attempt then wakeFailed step s
    else
      let s := attemptUndo s
      recordWake (setStep attempt step { s with chip := { s.chip with retry := some s.time.dur } })

/-- A new attempt after 100 ms. -/
def wakeRetry (s : State) : State :=
  match s.chip.retry with
  | some t =>
    if t + 100 * tMs ≤ s.time.dur then
      let first := if s.chip.origin = 1 then 2 else 1
      let n := regF s pcBase 6 4
      setStep (n + 1) first (setPstate 3 { s with chip := { s.chip with retry := none } })
    else s
  | none => s

/-! Boot (R558 to R560). -/

/-- A gate region as stage 1 commits it: its words and the gate's masks. -/
def stageRegion (g i base limit attr iset0 : Nat) (s : State) : State :=
  let a := regionAt g i
  let s := setReg (a + 8) (wd limit) (setReg a (wd base) s)
  let s := setReg (a + 0x80 + 8 * 4) (wd 0xF) (setReg (a + 0x80) (wd iset0) s)
  gateMasks g i (wd attr) (setReg (a + 0x10) (wd attr) s)

/-- The save areas of a channel gate (R536): a region of their own, for the hub cores and the DMA engines, at the end of region
0. -/
def stageSave (s : State) (g : Nat) : State :=
  let base := saveBase s (g - 0x114)
  let last := base + (if s.striped then 16 else 4) * 0x600000 - 0x1000
  let s := setReg (regionAt g 0 + 8) (wd (base - 0x1000)) s
  setReg (regionAt g 2 + 0xA0) 0xFF00000000000F (stageRegion g 2 base last (1 + 2 + 4) 0 s)

/-- What stage 1 leaves of R560: the hub cores admitted to the stores, channels and control parts; a locked
region over its own image, from the first byte of DDR4, with no writer; the save areas of R536; a locked region over control part
0 for the hub cores, with dbg; and the table bases. -/
def stageOne (m : List Byte) (s : State) : State :=
  let last := 0x1000000000 + (imgPlen m - 1) / 0x1000 * 0x1000
  let letIn := fun (s : State) (g : Nat) => setReg (regionAt g 0 + 0xA0) (wd 0xF) s
  let s := (List.range 0x120).foldl letIn s
  let ddr := if s.striped then [0x114, 0x115, 0x116, 0x117] else [0x114]
  let s := ddr.foldl (fun s g =>
    stageRegion g 1 0x1000000000 last (1 + 2 + 8 + 32) 1 (setReg (regionAt g 0) (wd (last + 0x1000)) s)) s
  let s := [0x114, 0x115, 0x116, 0x117].foldl stageSave s
  let off := fun (s : State) => setRegF (regionAt 0x118 0 + 0x10) 0 0 0 (setRegF (gateBlock 0x118 + 0x38) 0 0 0 s)
  let s := stageRegion 0x118 1 0x60000000 0x60FFF000 (0x280 + 1 + 2 + 4 + 16 + 32) 0 (off s)
  let put := fun (a : Nat) (v : W) (s : State) => (wordWrite false a v s).1
  put (tripBlock + 8) Config.stage1Gbase (put tripBlock Config.stage1Tbase s)

/-- The slots that a start tries, in order, and what it writes to the record first. -/
def slotsTried (s : State) : List Nat × State :=
  let r := s.sec.slots
  match r.pending with
  | some n =>
    if r.trial = 0 then
      ([n, r.active], { s with sec := { s.sec with slots := { r with gen := r.gen + 1, trial := 1 } } })
    else
      let s := setSlotState n 5 s
      ([r.active], { s with sec := { s.sec with slots := { s.sec.slots with pending := none, trial := 0 } } })
  | none => ([r.active], s)

/-- The slots checked in order: the first that passes. One that fails is set to 2 and recorded. -/
def slotsCheck (flash : Bool) : List Nat → State → Option Nat × State
  | [], s => (none, s)
  | n :: l, s =>
    let c := if flash then imageCode s (slotImage s n) false else 1
    if c = 0 then (some n, s)
    else
      let s := secEvent 0x03 n c (setSlotState n 2 s)
      let s := if s.sec.slots.pending = some n then
          secEvent 0x02 n c { s with sec := { s.sec with slots := { s.sec.slots with pending := none, trial := 0 } } }
        else s
      slotsCheck flash l s

/-- The security unit's own start: a fresh nonce, and the sealed store read (R564, R571). -/
def secStart (store : Bool) (s : State) : State :=
  let s := nonceDraw { s with sec := { s.sec with rejects := 0, unlock := none, was := false, report := [], jobs := [],
                                                  prog := none, result := 0 } }
  if store then s else secEvent 0x0E 0 0 { s with sec := { s.sec with op := none, mnt := none } }

/-- Handover to the image of a slot, stage 1, which gives the hub cores their authority (R424, R560), and the dictionary
service up to configuring, with the settings that placement starts from (R455); after a repeated fatal reset the device is failed
instead, and any other start leaves the failed state (R469, R471). -/
def handover (n : Nat) (s : State) : State :=
  let m := slotImage s n
  let s := { s with sec := { s.sec with run := n }, striped := objNat (bankRestore s 1) 0x2030 1 0 == 1 }
  let s := secEvent 0x01 n (imgFwver m + imgSvn m * 2 ^ 32) s
  let s := memStore 0x1000000000 (slice m 0x9000 (imgPlen m)) s
  let s := setReg (ctlBase 0 + 0x20) (wd 0x4001F000) s
  let s := stageOne m (setCell 0 { stopped := true, vtm := (cellOf s 0).vtm } s)
  let s := countRetained 0x1010 6 (restoration { s with mon := { s.mon with auth := true } })
  let s := keepLock s (holdAgain { s with mon := { s.mon with par := monParams s } })
  let s := setPstate 0 { s with fatal := false }
  let d := if s.chip.fcause % 256 = 2 then 4 else 0
  logFree 0x01 0x03 0 (s.chip.was + d * 2 ^ 8)
    { s with dev := d, chip := { s.chip with fcause := if d = 4 then s.chip.fcause else 0 } }

/-- The start has ended: its cause, and the record. -/
def wakeEnd (s : State) : State :=
  let s := setRegF (pcBase + 0x20) 6 0 s.chip.cause s
  let n := regF s (pcBase + 0x30) 31 0
  let s := if s.chip.origin = 0 then s else setRegF (pcBase + 0x30) 31 0 (satInc32 n) s
  let s := recordWake s
  { s with chip := { s.chip with origin := 0, fired := 0, thermal := false, bootAt := s.time.dur, started := true } }

/-- Step 8: the boot ROM on cell 0.0.00. -/
def bootStep (e : BootEnv) (s : State) : State :=
  let s := { s with chip := { s.chip with bootAt := s.time.dur } }
  let s := if (bankRead s 15).isNone then logFree 0x0B 0x08 0 0 (setReg (pcBase + 0x30) 0 s) else s
  if !e.kat then fatalError 0x35 s
  else
    match slotsTried s with
    | (l, s) =>
      match slotsCheck e.flash l (secStart e.store s) with
      | (some n, s) => wakeEnd (handover n (setRegF (pcBase + 0x20) 7 7 0 s))
      | (none, s) => stepTimeout s

/-! The steps of a wake (R541). -/

/-- The level at which a block comes back. -/
def wakeLevel (s : State) (x : Nat × W) : Nat := if forced s x.1 then 3 else fld x.2 1 0

/-- What a wake from standby needs of VIN_CORE: for the blocks that nap, and for those that are to run again (R528, R541). -/
def wakeNeed (s : State) : Nat :=
  max (vinTarget s) (s.chip.resume.foldl (fun m x => if fld x.2 5 4 < 2 then max m (levelMv (wakeLevel s x) + 70) else m) 0)

/-- A block that is to run again, in full mode at its level, with its cells. -/
def blockResume (s : State) (x : Nat × W) : State :=
  if 2 ≤ fld x.2 5 4 then s
  else
    let b := x.1
    let k := wakeLevel s x
    let s := setRegF (regStat b) 6 4 4 s
    let s := setRegF (regStat b) 1 0 k (setRegF (regStat b) 8 8 0 s)
    setCon b (fld x.2 31 16) (setMv b (levelMv k) s)

/-- Step 5: blocks that napped, or are to run again, but for the saved ones. -/
def blocksRestore (s : State) : State :=
  (s.chip.resume.filter (fun x => !s.chip.saved.contains x.1)).foldl blockResume s

/-- A saved block powered and copied back (R536, step 3). -/
def savedRestore (s : State) (x : Nat × W) : State :=
  match saveCopy true x.1 (blockResume s x) with
  | (true, s) => s
  | (false, s) => { s with chip := { s.chip with lost := x.1 :: s.chip.lost } }

/-- A compartment has lost a cocoon or a near object in standby (R452, R536, R537). -/
def compGone (s : State) (c : Comp) : Bool :=
  s.chip.lost.any (fun b =>
    c.thr.any (fun t => inBlockStore b t.seat.cpa 1024 || decide (t.seat.cpa / 0x200000 = 0x200 + b))
      || (c.objs.zip (List.range 256)).any (fun o =>
        inBlockStore b o.1.2 (oBytes c.man o.2) || decide (o.1.2 / 0x200000 = 0x200 + b)))

/-- A compartment's times moved on by the length of a standby: no deadline is missed for what fell within it (R535). -/
def compShift (d : Nat) (c : Comp) : Comp :=
  { c with thr := c.thr.map (fun t => { t with rel := t.rel.map (· + d), due := t.due + d }) }

/-- Step 7: Monarch resumes: saved blocks restored, cells restarted, threads installed from their cocoons. A compartment whose
cocoon or near object was lost is left stopped, to be restarted (R452). -/
def monarchResume (s : State) : State :=
  let s := (s.chip.resume.filter (fun x => s.chip.saved.contains x.1)).foldl savedRestore s
  let s := s.chip.cells.foldl (fun s n => startCell n s) s
  let d := s.time.dur - s.chip.slept
  s.mon.comps.foldl (fun s e =>
    let c := compShift d e.2
    if c.state = 1 ∧ compGone s c then setComp e.1 { c with state := 3 } s
    else
      (c.thr.zip (List.range 64)).foldl (fun s t => seatThread c.man t.2 t.1.seat (if c.state = 1 then 1 else 4) s)
        (setComp e.1 c s)) s

/-- A wake step completes. -/
def stepDone (e : BootEnv) (s : State) : State :=
  if pstateOf s ≠ 3 then s
  else
    let w := reg s pcBase
    let attempt := fld w 6 4
    let warm := s.chip.origin = 1
    match fld w 11 8 with
    | 1 => setStep attempt 2 s
    | 2 => setStep attempt 3 (if warm then vinSettle (wakeNeed s) s else blocksUp s)
    | 3 => setStep attempt 4 (islandLoad s)
    | 4 => setStep attempt (if warm then 5 else 6) s
    | 5 => setStep attempt 7 (blocksRestore s)
    | 6 =>
      setStep attempt 8 { s with cells := [(0, rootCell)] }
    | 7 =>
      let s := setStep attempt 0 (setPstate 0 (monarchResume s))
      let s := setRegF (pcBase + 0x20) 7 7 0 s
      let s := if inService s then gridsFollow (pubsResume s) else s
      wakeEnd (vinKick { s with twin := { s.twin with since := s.time.dur },
                                chip := { s.chip with resume := [], cells := [], saved := [], lost := [] } })
    | 8 => setStep attempt 0 (bootStep e s)
    | _ => s

/-! Thermal standby (R537). -/

/-- Readings of a block's sensors, one of them at 115 C: standby from on, or from a wake, which is abandoned. -/
def thermalEnter (b : Nat) (l : List (BitVec 16)) (s : State) : State :=
  if 16 ≤ b ∨ hottest l < 1150 ∨ ¬ (pstateOf s = 0 ∨ pstateOf s = 3) then s
  else logFree 0x0B 0x09 b (tempNat (hottest l)) (standbyEnter true (setTemps b l s))

/-- The same, from one sensor. -/
def thermalStandby (b : Nat) (t : BitVec 16) (s : State) : State :=
  if t.toInt < 1150 then s else thermalEnter b (t :: (temps s b).drop 1) s

/-- The readings of a block's sensors, and what they make the hardware do (R434, R526, R537). -/
def sensorsRead (b : Nat) (l : List (BitVec 16)) (s : State) : State :=
  if 1150 ≤ hottest l ∧ (pstateOf s = 0 ∨ pstateOf s = 3) then thermalEnter b l s else temperatureSample b l s

/-! Commands (R534, R545). -/

/-- pcmd, or its dictionary object: the state, and whether R534 refuses it. -/
def powerCommand (k : Nat) (s : State) : State × Bool :=
  let p := pstateOf s
  if k = 1 ∧ p = 0 then (standbyEnter false s, false)
  else if k = 2 ∧ (p = 0 ∨ p = 1) then (hibernateEnter s, false)
  else if k = 3 ∧ (p = 1 ∨ p = 2 ∨ p = 4) then
    (if p = 1 ∧ s.chip.thermal ∧ !coolEnough s then (s, true) else (wakeSource 0 s, false))
  else (s, true)

/-- A write of pcmd; cref shows a refusal. -/
def pcmdWrite (v : W) (s : State) : State :=
  match powerCommand (fld v 1 0) s with
  | (s, r) => setRegF pcBase 12 12 (b2n r) s

/-! Supplies (R534, R540, R582, R584). -/

/-- The start that follows the application of a supply. -/
def supplyStart (cause : Nat) (s : State) : State :=
  wakeBegin cause 0 { s with chip := { s.chip with started := true, mainsLost := false } }

/-- The main supply, or EN, is lost. -/
def mainsLoss (s : State) : State :=
  let p := pstateOf s
  let s := { s with chip := { s.chip with mains := false }, hw := { s.hw with bus := false } }
  if !s.chip.aux then s
  else if p = 0 ∨ p = 3 then
    hibernated true (if p = 0 then islandCapture s else s)
  else if p = 1 then hibernated true s
  else s

/-- The main supply becomes good. -/
def mainsApply (s : State) : State :=
  let s := { s with chip := { s.chip with mains := true }, hw := { s.hw with bus := true, busOff := none } }
  if !s.chip.aux then s
  else if !s.chip.started then
    supplyStart (if s.chip.cause = 0x0C then 0x0C else if s.time.dur ≤ s.chip.auxAt + tSec then 1 else 2) s
  else if pstateOf s = 2 ∧ s.chip.mainsLost then wakeSource 3 s
  else s

/-- The auxiliary supply is lost: the module is unpowered. -/
def auxLoss (s : State) : State :=
  let s := setRegF pcBase 2 0 2 (chipLost s)
  { s with chip := { s.chip with aux := false, islOk := false, started := false }, tail := [], tailGen := 0, tailPatch := [],
           log := [], dict := { s.dict with tailBad := true },
           mem := [], hw := { s.hw with pcie := false } }

/-- The node number from the slot pins: odd parity, not 0 (R581). -/
def nodeOf (id : BitVec 7) (par : Bool) : Nat :=
  let ones := ((List.range 7).filter (fun i => id.getLsbD i)).length + b2n par
  if ones % 2 = 1 then id.toNat else 0

/-- The auxiliary supply is applied. -/
def auxApply (id : BitVec 7) (par : Bool) (s : State) : State :=
  if s.chip.aux then s
  else
    let s := { s with regs := [], mem := [], dl := {}, time := { dur := s.time.dur },
                      hw := { s.hw with node := nodeOf id par, tcxo := none },
                      chip := { mains := s.chip.mains, aux := true, started := false, auxAt := s.time.dur,
                                ref := 0, islRef := 0 } }
    let s := setRegF pcBase 2 0 2 s
    if s.chip.mains then supplyStart 1 s else s

/-- The island LDO leaves regulation: as a loss of the auxiliary supply, but the banks stay. -/
def islandBrownOut (s : State) : State :=
  if !s.chip.aux then s
  else
    let s := chipLost s
    let x : ChipSt := { s.chip with
      islOk := false, isl := 0, islRef := s.chip.ref, retry := none, mainsLost := false, started := false, cause := 0x0C }
    let s := setPstate 2 { s with dl := {}, chip := x }
    if s.chip.mains then supplyStart 0x0C s else s

end Sys2Proof.Machine
end

