-- ==== Sys2Proof/Machine/Hw.lean ====
section
/-! DEFINITION. The module's hardware around the chip (chapter 18): hot swap, cages, lanes, references, PCIe, and the
debug port's instructions that reach no memory (R569). -/

namespace Sys2Proof.Machine

/-! The internal 12 V bus (R583, R584, R586). -/

/-- The bus is off: the OCXO loses its supply, and the chip with it. -/
def busLost (s : State) : State :=
  let s := mainsLoss s
  { s with hw := { s.hw with bus := false, ocxo := false, tcxo := some s.time.dur } }

/-- EN has been high for 20 ms: the bus is connected. -/
def hotSwapConnect (s : State) : State :=
  if s.hw.bus ∨ s.hw.busOff.isSome then s else { s with hw := { s.hw with bus := true, tcxo := none } }

/-- The current limit has held for 1 ms, or the bus was not good within 50 ms. -/
def hotSwapOvercurrent (s : State) : State :=
  if !s.hw.bus then s
  else
    let s := busLost s
    { s with hw := { s.hw with busOff := some s.time.dur } }

/-- The retry, 1 s after switching off. -/
def hotSwapRetry (s : State) : State :=
  match s.hw.busOff with
  | some t =>
    if t + tSec ≤ s.time.dur then { s with hw := { s.hw with bus := true, busOff := none, tcxo := none } } else s
  | none => s

/-- EN low, or P12V below 10 V for 50 us. -/
def hotSwapDisconnect (s : State) : State :=
  let s := if s.hw.bus then busLost s else s
  { s with hw := { s.hw with busOff := none } }

/-- The OCXO has warmed up. -/
def ocxoWarm (s : State) : State := if s.hw.bus then { s with hw := { s.hw with ocxo := true } } else s

/-- More than 10 s on the TCXO: the island records the timebase as free-running. -/
def tcxoHold (s : State) : State :=
  match s.hw.tcxo with
  | some t => if t + 10 * tSec < s.time.dur then { s with chip := { s.chip with islSt := 0 } } else s
  | none => s

/-! Cages and lanes (R576, R577). -/

def cageOf (s : State) (q : Nat) : Cage := tblGet {} s.hw.cages q
def setCage (q : Nat) (c : Cage) (s : State) : State := { s with hw := { s.hw with cages := tblSet q c s.hw.cages } }

/-- The lanes of a cage without link. -/
def cageDown (q : Nat) (s : State) : State := { s with hw := { s.hw with up := s.hw.up.filter (fun n => n / 4 != q) } }

/-- A cage over its limit is switched off. -/
def cageOvercurrent (q : Nat) (s : State) : State :=
  if q < 4 ∧ (cageOf s q).off.isNone then cageDown q (setCage q { cageOf s q with off := some s.time.dur } s) else s

/-- It is switched on again after 1 s. -/
def cageRetry (q : Nat) (s : State) : State :=
  match (cageOf s q).off with
  | some t => if q < 4 ∧ t + tSec ≤ s.time.dur then setCage q { cageOf s q with off := none } s else s
  | none => s

/-- A pluggable inserted: one of a class above 3.5 W stays in low-power mode, its lanes down. -/
def pluggableInsert (q milliwatt : Nat) (s : State) : State :=
  if q < 4 then
    let low := decide (3500 < milliwatt)
    let s := setCage q { cageOf s q with low := low } s
    if low then cageDown q s else s
  else s

/-- A lane gains or loses link. -/
def laneLink (n : Nat) (up : Bool) (s : State) : State :=
  if 16 ≤ n then s
  else if !up then { s with hw := { s.hw with up := s.hw.up.filter (fun m => m != n) } }
  else if laneMode s n = 0 ∨ (cageOf s (n / 4)).off.isSome ∨ (cageOf s (n / 4)).low ∨ pstateOf s ≠ 0
      ∨ s.hw.up.contains n then s
  else { s with hw := { s.hw with up := s.hw.up ++ [n] } }

/-- The link LED of a cage. -/
def cageLed (s : State) (q : Nat) : Bool := s.hw.up.any (fun n => n / 4 == q)

/-- The status LEDs (R577, R588): 0 off, 1 on, 2 flashing. -/
def runLed (s : State) : Nat :=
  if pstateOf s ≠ 0 ∨ !s.chip.aux ∨ s.dev = 4 then 0 else if s.dev = 1 ∨ s.dev = 3 then 1 else 2
def faultLed (s : State) : Nat := if faultN s then 1 else if s.dev = 3 then 2 else 0
def removeLed (s : State) : Nat :=
  if s.twin.rm = 2 ∨ pstateOf s = 1 ∨ pstateOf s = 2 ∨ pstateOf s = 4 then 1 else if s.twin.rm = 1 then 2 else 0

/-! PCIe (R587, R589). -/

/-- The link comes up, with the PLL locked and PERST_N high. -/
def pcieUp (s : State) : State :=
  if s.hw.perst ∧ s.chip.aux ∧ (pstateOf s = 0 ∨ pstateOf s = 3) then { s with hw := { s.hw with pcie := true } } else s

/-- The link goes down: every PCIe session closes, and no response is held any more (R497). -/
def pcieDown (s : State) : State :=
  let s := setReg (partPcie + 0x5010) 0 (closeOn (fun c => c == .pcie) s)
  { s with hw := { s.hw with pcie := false }, dl := { s.dl with rsp := none, rspQ := [] } }

/-- PERST_N: low resets the endpoint alone. -/
def perst (high : Bool) (s : State) : State :=
  if high then { s with hw := { s.hw with perst := true } }
  else
    let s := pcieDown s
    { s with hw := { s.hw with perst := false },
             regs := s.regs.filter (fun e => !(decide (partPcie ≤ e.1) && decide (e.1 < partPcie + 0x8000))) }

/-- The PCIe endpoint's initiator ID (R46). -/
def pcieInit : Nat := 0x140

/-- A write from the host: a request for each line, each checked by itself; one that is denied, or that writes part of a line
with a poison code, is discarded (R258, R270, R288). A write clears tags (R77), and has no completion. -/
def pcieWrite (a : Nat) (data : List Byte) (s : State) : State :=
  (linePieces (data.length / 64 + 2) a data.length).foldl (fun s p =>
    match gateCheck s pcieInit p.1 p.2 .write with
    | .error d => gateEvent pcieInit p.1 .write d s
    | .ok _ => if p.2 < 64 ∧ poisoned s p.1 then s else physStore p.1 (slice data (p.1 - a) p.2) s) s

/-- A read by the host: a request for each line. When one is denied, or finds a poison code, the completion is an abort
(R270, R288). -/
def pcieRead (a n : Nat) (s : State) : State :=
  let ps := linePieces (n / 64 + 2) a n
  let t := ps.foldl (fun s p => match gateCheck s pcieInit p.1 p.2 .read with
    | .error d => gateEvent pcieInit p.1 .read d s
    | .ok _ => s) s
  let ok := (rangeCheck s pcieInit a n .read).isNone && !ps.any (fun p => poisoned s p.1)
  { t with tx := .pcie ok (if ok then physRead s a n else []) :: t.tx }

/-- A host access through BAR2, of at most a payload of 512 bytes; it waits for a link, or at a gate (R24, R265). -/
def pcieInbound (offset width : Nat) (write : Bool) (data : List Byte) (s : State) : State :=
  let a := 0x1000000000 + offset
  if !s.hw.pcie ∨ width = 0 ∨ 512 < width ∨ 2 ^ 38 < offset + width ∨ (write ∧ data.length ≠ width)
      ∨ (linePieces (width / 64 + 2) a width).any (fun p => reqWaits s pcieInit p.1) then s
  else if write then pcieWrite a data s else pcieRead a width s

/-! The debug port (R569, R571). -/

/-- BYPASS: one bit of delay. -/
def jtagBypass (tdi : Bool) (s : State) : State :=
  if jtagLive s then { s with tx := .jtag 1 (b2n s.hw.bypass) :: s.tx, hw := { s.hw with bypass := tdi } } else s

/-- An instruction that shifts out a value. -/
def jtagShift (bits value : Nat) (s : State) : State :=
  if jtagLive s then { s with tx := .jtag bits value :: s.tx } else s

end Sys2Proof.Machine
end

