-- ==== Sys2Proof/Machine/CtlWrite.lean ====
section
/-! DEFINITION. Writes to the control space by any initiator (R37), the words that act on the whole chip included;
what a store buffer entry does when it is performed (R278, R279), the control access of a sys operation (R172), and the
debug port's memory access (R570). -/

namespace Sys2Proof.Machine

/-- A message placed in the free response buffer, with its length and, when enabled, MSI-X vector 0 (R497). -/
def mailboxPlace (m : List Byte) (s : State) : State :=
  let s := memStore (partPcie + 0x3000) m { s with dl := { s.dl with rsp := some m } }
  let s := setReg (partPcie + 0x5010) (wd (m.length % 2 ^ 13)) s
  if bit (reg s (partPcie + 0x5020)) 0 then { s with tx := .msix :: s.tx } else s

/-- A message for the mailbox: placed now, or after the ones that wait (R497). -/
def mailboxSend (m : List Byte) (s : State) : State :=
  if s.dl.rsp.isNone then mailboxPlace m s else { s with dl := { s.dl with rspQ := s.dl.rspQ ++ [m] } }

/-- The response buffer is released, and the next message placed (R497). -/
def mailboxAck (s : State) : State :=
  let s := setReg (partPcie + 0x5010) 0 { s with dl := { s.dl with rsp := none } }
  match s.dl.rspQ with
  | [] => s
  | m :: l => mailboxPlace m { s with dl := { s.dl with rspQ := l } }

/-- A write of a word: the power controller's command and rspack beside the others. -/
def ctlPut (bad : Bool) (a : Nat) (v : W) (s : State) : State × Bool :=
  if a = pcBase + 8 then (pcmdWrite v s, false)
  else if a = partPcie + 0x5018 then (if bit v 0 then mailboxAck s else s, false)
  else wordWrite bad a v s

/-- A control-space word written by an initiator. -/
def ctlDo (bad : Bool) (init a : Nat) (v : W) (s : State) : State := (ctlWriteBy (ctlPut bad) init a v s).1

/-- A word of the control block of a core, written by an initiator; a hub core's block is written by that core
alone. -/
def coreCtlWrite (init core off : Nat) (v : W) (s : State) : State :=
  if core < 256 then ctlDo false init (ctlBase core + off) v s
  else if isHub core ∧ init = core then cellBlockWrite core off v s
  else s

/-! Stores performed (R143 to R146, R278 to R280). -/

/-- Store buffer entry `e` must follow the earlier entry `f`: their bytes overlap, or their gate keeps arrival order,
or `f` is a store to the control space behind others (R278, R279). -/
def storeAfter (s : State) (e f : SbEntry) : Bool :=
  sbOverlaps f e.pa e.data.length || inControl e.pa
  || sameOrder s e.pa f.pa

/-- Store buffer entry `i` is younger than a load that has still to read the same bytes, or the control space as the
entry does, or behind a gate that keeps order (R144, R278, R279). -/
def storeBehind (s : State) (i : Nat) (e : SbEntry) (l : PLoad) : Bool :=
  l.got.isNone && decide (l.ahead ≤ i)
    && l.parts.any (fun p => sbOverlaps e p.1 p.2 || (inControl p.1 && inControl e.pa) || sameOrder s p.1 e.pa)

/-- Entry `i` may be performed now. -/
def storeReady (s : State) (c : Cell) (i : Nat) (e : SbEntry) : Bool :=
  !c.loads.any (storeBehind s i e) && (c.sb.take i).all (fun f => !storeAfter s e f) && ((c.sb.take i).drop 1).all (fun f => !inControl f.pa)

/-- Entry `i` leaves the buffer; the requests that wait for it wait for one store less, and a q operation behind the
buffer leaves once it is empty (R143, R252, R280). -/
def storeGone (core i : Nat) (s : State) : State :=
  let less := fun (r : TrpReq) => if i < r.ahead then { r with ahead := r.ahead - 1 } else r
  let s := modCell core (fun c =>
    { c with sb := c.sb.eraseIdx i,
             loads := c.loads.map (fun (l : PLoad) => if i < l.ahead then { l with ahead := l.ahead - 1 } else l),
             trp := c.trp.map less, trpHeld := c.trpHeld.map less,
             inv := c.inv.map (fun (r : InvReq) => if i < r.stores then { r with stores := r.stores - 1 } else r) }) s
  let c := cellOf s core
  match c.stall with
  | .room need => if hasRoom c need then endStall core s else s
  | _ =>
  if !c.sb.isEmpty then s
  else match c.stall with
    | .q r false ans undo => qSend r (setCell core { c with stall := .q r true ans undo } s)
    | .gfence g false => gateFence g (setCell core { c with stall := .gfence g true } s)
    | _ => s

/-- Bytes written at an address that has admitted them: to a word of the control space, or to memory. -/
def putBytes (a : Nat) (bs : List Byte) (s : State) : State × Bool :=
  if inControl a && !anyWidth a then ctlPut false a (wd (leNat bs)) s else (physStore a bs s, false)

/-- How a write to memory ends: a write of part of a line finds the line's poison code (R288). -/
def writeRet (s : State) (a n : Nat) (r : Ret) : Ret := if n < 64 then retAt s a r else r

/-- A request of an entry at its home, `off` bytes into it: the write, or the late store error it ends in (R145, R264,
R268, R270, R277, R288). -/
def storeRequest (core : Nat) (e : SbEntry) (r : Ret) (off a n : Nat) (s : State) : State :=
  let late := fun (reason : Nat) (s : State) =>
    lseRecord core reason e.bank e.slot e.split (e.va + wd off) s
  if r = .pathFail then late 0x07 s
  else match gateCheck s core a n .write with
  | .error d => late d.reason (gateEvent core a .write d s)
  | .ok _ =>
    match writeRet s a n r with
    | .uncorrectable => late 0x08 (uncorrectableAt core a s)
    | r =>
      let s := if r = .corrected then correctedAt core a s else s
      if e.isCap then cachedWrite core a (physStoreCap a e.data e.tag) s
      else if inControl a then
        (match putBytes a (slice e.data off n) (tripTakes core a (wd (leNat (slice e.data off n))) s) with
         | (s, true) => late 0x0A s
         | (s, false) => handlerWrite core e.bank a s)
      else cachedWrite core a (physStore a (slice e.data off n)) s

/-- What an entry does: a request for each line that it touches (R258). -/
def storeLand (core : Nat) (e : SbEntry) (r : Ret) (s : State) : State :=
  (linePieces (e.data.length / 64 + 2) e.pa e.data.length).foldl
    (fun s p => storeRequest core e r (p.1 - e.pa) p.1 p.2 s) s

/-- Store buffer entry `i` of a core is acknowledged at its home; an error on the way is a late store error, and a
parity error is met again by the same store once it is refetched (R141, R145). The store waits while a link on its path
retrains, or its gate holds requests (R24, R265). -/
def storePerformed (core i : Nat) (r : Ret) (s : State) : State :=
  let c := cellOf s core
  match c.sb[i]? with
  | none => s
  | some e =>
    if !storeReady s c i e || reqWaits s core e.pa then s
    else if r = .parity then errEvent (.cell core) 0x04 core 0 e.pa s
    else storeGone core i (storeLand core e r s)

/-! sys.t.ctlrd and sys.t.ctlwr (R170, R172). -/

/-- A write by sys.t.ctlwr; one that is denied or refused, or meets a line with a poison code, is a late store error, with the physical address that it reached as its address
(DESIGN CHOICE, log entry 102). -/
def ctlwrAccess (core pa : Nat) (v : W) (s : State) : State :=
  if inControl pa && !anyWidth pa then
    handlerWrite core (cellOf s core).run pa (ctlDo false core pa v s)
  else match gateCheck s core pa 8 .write with
    | .error d => writeAnswer core d.reason pa (gateEvent core pa .write d s)
    | .ok _ =>
      if poisoned s pa then writeAnswer core 0x08 pa (uncorrectableAt core pa s)
      else cachedWrite core pa (physStore pa (leBytes 8 v.toNat)) s

/-- A read by sys.t.ctlrd, of the word at `va`: its gate is asked when it is made, as for a load (R265, R270), and a line
with a poison code gives a machine check and no word (R214, R288). The table of R270 has no row for it: a denial is a precise
GATEDENY at its bundle, with faddr at sys.oc's address + t, also where a CONTROL capability's address lies inside its block
(DESIGN CHOICE, log entry 76). -/
def ctlrdAccess (core pa : Nat) (va : W) (undo : Option Undo) (vret : Ret) (s : State) : State :=
  let b := (cellOf s core).run
  match gateCheck s core pa 8 .read with
  | .error d =>
    let f := gateFault va false d
    raiseSync core f (modCell core (fun c => match undo with
      | some u => undoBank b u c
      | none => c) (faultPass core f (gateEvent core pa .read d s))) vret
  | .ok _ =>
    stallEnds core (if poisoned s pa then raiseMchk core (mchkFlt s core va pa false) false (uncorrectableAt core pa s)
      else modCell core (fun c => setBank b (applyWr (.ports [(0x1A8, wd (physNat s pa 8))]) (bankOf c b)) c)
        (readEffect pa s))

/-- The access of a core that sys.t.ctlrd or sys.t.ctlwr stalls is made, every earlier store having been performed
(R280). -/
def ctlAccess (core : Nat) (write : Bool) (va : W) (pa : Nat) (v : W) (undo : Option Undo) (vret : Ret) (s : State) :
    State :=
  orWait core s (if write then stallEnds core (ctlwrAccess core pa v s) else ctlrdAccess core pa va undo vret s)

/-- The next result of sys arrives (R170); `vret` is how the read of the vector-table granule of a fault ends. -/
def sysArrives (core : Nat) (vret : Ret) (s : State) : State :=
  let c := cellOf s core
  match c.stall with
  | .ctl write va pa v _ undo =>
    if c.sb.isEmpty && !c.loads.any (loadAfter s [(pa, 8)]) && !reqWaits s core pa then
      ctlAccess core write va pa v undo vret s
    else s
  | _ => latResult .sys core s

/-! MEMAP (R79, R570). -/

/-- The data register as it is shifted out. -/
def memapReply (result side : Nat) (data : List Byte) (s : State) : State :=
  jtagShift 145 (leNat data + side * 2 ^ 128 + result * 2 ^ 129) s

/-- MEMAP: one access of 8 or 16 bytes under ID 0x3FF, with the granule's tag beside 16 bytes read, and 0 beside 8 (DESIGN
CHOICE, log entry 103). It waits for a link, or at a gate (R24, R265). A line with a poison code neither yields data nor takes a part of it
(R268, R288). -/
def memap (addr : Nat) (wide write : Bool) (data : BitVec 128) (s : State) : State :=
  let n := if wide then 16 else 8
  if !jtagLive s then s
  else if !memapOk s addr then memapReply 0x05 0 [] s
  else if addr % n ≠ 0 then memapReply 0x0B 0 [] s
  else if reqWaits s 0x3FF addr then s
  else match gateCheck s 0x3FF addr n (.dbg write) with
    | .error d => memapReply d.reason 0 [] (gateEvent 0x3FF addr (.dbg write) d s)
    | .ok _ =>
      if poisoned s addr then memapReply 0x08 0 [] s
      else if write then
        (if inControl addr && !anyWidth addr then
          (match ctlPut false addr (wd data.toNat) s with
           | (s, true) => memapReply 0x0A 0 [] s
           | (s, false) => memapReply 0 0 [] s)
         else memapReply 0 0 [] (physStore addr (leBytes n data.toNat) s))
      else
        memapReply 0 (b2n (wide && physTag s addr)) (physRead s addr n)
          (if drawsHost [(addr, n)] then bumpFresh s else readEffect addr s)

end Sys2Proof.Machine
end

