-- ==== Sys2Proof/Machine/Dma.lean ====
section
/-! DEFINITION. The DMA engines (R272 to R275): a descriptor taken and checked, and the transfer carried out. -/

namespace Sys2Proof.Machine

/-- The initiator ID of engine `e` of region `r` (R48). -/
def dmaInit (r e : Nat) : Nat := 0x130 + 2 * r + e

/-- A range of the transfer's authority, whose addresses are physical (R83, R232): the control space needs SYSREG. -/
def dmaCheck (c : Cap) (n : Nat) (need : BitVec 12) : Option CapFail :=
  let a := c.addr.toNat
  capCheck c a n (if a < 0x6C000000 ∧ partSec < a + n then need ||| permSYSREG else need) false false

/-- The checks before any data moves: status and detail (R78, R274). -/
def dmaStatus (j : DmaJob) (reserved : Bool) : Nat × Nat :=
  match dmaCheck j.src j.len (if j.cp then permLD ||| permLDC else permLD) with
  | some f => (0x01, f.kind)
  | none =>
    match dmaCheck j.dst j.len (if j.cp then permST ||| permSTC else permST) with
    | some f => (0x02, f.kind)
    | none =>
      if j.cp && (j.src.addr.toNat % 16 != 0 || j.dst.addr.toNat % 16 != 0 || j.len % 16 != 0) then (0x03, 0)
      else if reserved then (0x04, 0)
      else (0x00, 0)

/-- A descriptor as a transfer, with the outcome of its checks (R273). -/
def dmaJobOf (msg : List Byte) (tags : List Bool) : DmaJob :=
  let cap := fun (i : Nat) => capOfBytes (slice msg (16 * i) 16) (tags.getD i false)
  let w := wd (leNat (slice msg 0x30 8))
  let j : DmaJob := { src := cap 0, dst := cap 1, cq := cap 2, len := fld w 31 0, cp := bit w 32,
                      cookie := wd (leNat (slice msg 0x38 8)), status := 0, detail := 0 }
  let z := dmaStatus j (fld w 63 34 != 0 || (msg.drop 0x40).any (fun b => b != 0))
  { j with status := z.1, detail := z.2 }

/-- An idle engine takes the next descriptor of its command queue (R272, R316). -/
def dmaTake (r e : Nat) (m : QErr) (s : State) : State :=
  if 4 ≤ r ∨ 2 ≤ e ∨ (tblFind s.dma (2 * r + e)).isSome
      ∨ qPathsWait s r (0x3FF80 + 2 * r + e) (retryParts s (0x3FF80 + 2 * r + e)) then s
  else match qTakeDma r (0x3FF80 + 2 * r + e) m s with
  | (some (msg, tags), s) => { s with dma := tblSet (2 * r + e) (dmaJobOf msg tags) s.dma }
  | (none, s) => s

/-- How a transfer ends: status, detail, granules written untagged, bytes done. -/
structure DmaEnd where
  status : Nat := 0
  detail : Nat := 0
  drops  : Nat := 0
  done   : Nat := 0
  deriving DecidableEq, Repr

/-- One request's bytes read at the source and written at the destination; the denial, if there is one. -/
def dmaMove (init : Nat) (j : DmaJob) (a b n : Nat) (s : State) : State × Except Nat Nat :=
  match gateCheck s init a n .read with
  | .error d => (gateEvent init a .read d s, .error d.reason)
  | .ok _ =>
    match gateCheck s init b n .write with
    | .error d => (gateEvent init b .write d s, .error d.reason)
    | .ok _ =>
      let bs := physRead s a n
      let s1 := if 0x8000000000 ≤ a then bumpFresh s else readEffect a s
      if inControl b && !anyWidth b then
        (match ctlPut false b (wd (leNat bs)) s1 with
         | (s, true) => (s, .error 0x0A)
         | (s, false) => (s, .ok 0))
      else if j.cp then
        let caps := (List.range (n / 16)).map (fun i => physCap s (a + 16 * i))
        let lost := fun (c : Cap) => isLocal c && !capHas j.dst permSTL
        ((List.range (n / 16)).foldl (fun s i =>
            let c := caps.getD i Cap.null
            physStoreCap (b + 16 * i) (capBytes c) (c.tag && !lost c) s) s1,
         .ok (caps.filter lost).length)
      else (physStore b bs s1, .ok 0)

/-- The requests of a transfer, at most 64 bytes and within one line at each end, upwards or downwards (R258, R275); an
uncorrectable error is met once `failAt` bytes are done, or at a line with a poison code, at its source or, where a request does not write all of it, at its destination (R288). A request that a gate
denies is denied whatever it would meet there (R268, R270). -/
def dmaCopy (init : Nat) (j : DmaJob) (down : Bool) (failAt : Option Nat) :
    Nat → DmaEnd → State → State × DmaEnd
  | 0, e, s => (s, e)
  | k + 1, e, s =>
    let left := j.len - e.done
    if left = 0 then (s, e)
    else
      let a0 := j.src.addr.toNat
      let b0 := j.dst.addr.toNat
      let n := if down then min left (min ((a0 + left - 1) % 64 + 1) ((b0 + left - 1) % 64 + 1))
        else min left (min (64 - (a0 + e.done) % 64) (64 - (b0 + e.done) % 64))
      let o := if down then left - n else e.done
      let fresh := match failAt with | some f => decide (f < e.done + n) | none => false
      let bad := fresh || poisoned s (a0 + o) || (decide (n < 64) && poisoned s (b0 + o))
      let denied := match gateCheck s init (a0 + o) n .read, gateCheck s init (b0 + o) n .write with
        | .ok _, .ok _ => false
        | _, _ => true
      if bad && !denied then
        (uncorrectableAt init (if fresh || poisoned s (a0 + o) then a0 + o else b0 + o) s, { e with status := 0x06 })
      else match dmaMove init j (a0 + o) (b0 + o) n s with
        | (s, .error r) => (s, { e with status := 0x05, detail := r })
        | (s, .ok d) => dmaCopy init j down failAt k { e with drops := e.drops + d, done := e.done + n } s

/-- The copy runs downwards when the destination is above the source (R275). -/
def dmaDown (j : DmaJob) : Bool := decide (j.src.addr.toNat < j.dst.addr.toNat)

/-- A transfer meets a request that must wait, for a link or at a gate (R24, R265): it is carried out as one, from the
time when none of its ends waits. -/
def dmaWaits (init : Nat) (j : DmaJob) (s : State) : Bool :=
  j.status == 0 && [j.src.addr.toNat, j.dst.addr.toNat, j.src.addr.toNat + j.len - 1, j.dst.addr.toNat + j.len - 1].any
    (reqWaits s init)

/-- The 16 bytes of a completion (R274). -/
def dmaMsg (j : DmaJob) (e : DmaEnd) : List Byte :=
  leBytes 1 e.status ++ leBytes 1 e.detail ++ leBytes 2 (min e.drops 0xFFFF) ++ leBytes 4 e.done ++ leBytes 8 j.cookie.toNat

/-- The queue of a completion: what an enqueue through the capability would reach. -/
def dmaQueue (s : State) (c : Cap) : Option Nat :=
  if (sealedCheck c (· == otypeQueue)).isNone && s.qReady && queueAddrOk s c && queueMissing .enqd c == 0 then
    some ((c.addr.toNat - qtab s) / 64)
  else none

/-- A transfer ends: its bytes have moved as far as its outcome lets them, and its completion is posted. -/
def dmaEnds (r e : Nat) (failAt : Option Nat) (s : State) : State :=
  match tblFind s.dma (2 * r + e) with
  | none => s
  | some j =>
    if dmaWaits (dmaInit r e) j s then s
    else
    let s := { s with dma := tblDel (2 * r + e) s.dma }
    let z : State × DmaEnd :=
      if j.status = 0 then dmaCopy (dmaInit r e) j (dmaDown j) failAt j.len {} s
      else (s, { status := j.status, detail := j.detail })
    match dmaQueue z.1 j.cq with
    | some q => post (0x310 + 2 * r + e) q (dmaMsg j z.2) z.1
    | none => z.1

end Sys2Proof.Machine
end

