-- ==== Sys2Proof/Machine/Dict.lean ====
section
/-! DEFINITION. The dictionary service (chapter 14): what a read returns, and what a write of an object does, with the
checks of R465. -/

namespace Sys2Proof.Machine

/-! Aborts of R465. -/

def abNoIndex : Nat := 0x0A010001
def abNoSub : Nat := 0x0A010002
def abReadOnly : Nat := 0x0A020001
def abWriteOnly : Nat := 0x0A020002
def abState : Nat := 0x0A020003
def abRange : Nat := 0x0A020004
def abUnit : Nat := 0x0A020005
def abLength : Nat := 0x0A030001
def abTooLong : Nat := 0x0A030002
def abClass : Nat := 0x0A050001
def abNoRoom : Nat := 0x0A060001
def abNotHeld : Nat := 0x0A060002

/-! Sessions. -/

def sessOf (s : State) (n : Nat) : Option Sess := tblFind s.dl.sess n
def setSess (n : Nat) (x : Sess) (s : State) : State := { s with dl := { s.dl with sess := tblSet n x s.dl.sess } }

/-- The requesting session's copy of a selection object (R464). -/
def sel (s : State) (own idx sub : Nat) : Nat :=
  match sessOf s own with
  | some x => selOf x.sel idx sub
  | none => 0

/-- The code of a carrier (R480). -/
def carrierCode : Carrier → Nat
  | .can _ => 1
  | .udp _ _ => 2
  | .pcie => 3

/-! Reading (R457, R464, R480 to R487). -/

/-- A truth value as a BOOLEAN. -/
def boolB (b : Bool) : List Byte := leBytes 1 (b2n b)

/-- Objects of session and device state (R480). -/
def readIdent (s : State) (own idx sub : Nat) : List Byte :=
  let m := runHeader s
  match idx, sub with
  | 0x1000, 1 => octets "Quoja"
  | 0x1000, 2 => if s.v128 then octets "CXM-256-128" else octets "CXM-256-64"
  | 0x1000, 3 => serial s
  | 0x1000, 4 => leBytes 2 Config.hwrev.toNat
  | 0x1000, 5 => leBytes 2 (if s.v128 then 128 else 64)
  | 0x1000, 6 => leBytes 4 (imgFwver m)
  | 0x1000, 7 => leBytes 1 s.sec.run
  | 0x1000, 8 => leBytes 1 (nodeNumber s)
  | 0x1000, 9 => time96 (time16 s)
  | 0x1010, 1 => leBytes 1 s.dev
  | 0x1010, 3 =>
    leBytes 4 (b2n (outCond s) + b2n (s.dict.rstJnl + s.dict.rstFac != 0) * 2 + b2n (!s.dict.dirty.isEmpty) * 4
      + b2n (faultN s) * 8 + b2n s.dict.auto * 16)
  | 0x1010, 5 => leBytes 4 ((s.time.dur - s.chip.bootAt) / tSec)
  | 0x1010, 7 => leBytes 2 s.chip.fcause
  | 0x1020, 1 => leBytes 1 s.dl.sess.length
  | 0x1020, 2 => leBytes 1 (s.dl.sess.filter (fun e => e.2.cls != 0)).length
  | 0x1020, 3 => leBytes 1 own
  | 0x1020, 4 => leBytes 1 (match sessOf s own with | some x => x.cls | none => 0)
  | i, k =>
    match sessOf s (i - 0x1020) with
    | some x =>
      (match k with
       | 1 => leBytes 1 (carrierCode x.carrier)
       | 2 => leBytes 1 x.cls
       | 3 => leBytes 1 x.epoch
       | _ => leBytes 4 ((s.time.dur - x.heard) / (1000000 * 2 ^ 32)))
    | none => if k = 4 then leBytes 4 0 else leBytes 1 0

/-- Objects of the platform (R481). -/
def readPlatform (s : State) (own idx sub : Nat) : List Byte :=
  let g := sel s own 0x2050 1
  let r := regionAt g (sel s own 0x2050 2)
  let bank := sel s own 0x2040 5
  match idx, sub with
  | 0x2000, 2 => leBytes 2 ((hottest ((List.range 16).flatMap (temps s))) % 2 ^ 16).toNat
  | 0x2010, 1 =>
    boolB ((pstateOf s == 0 || pstateOf s == 3) && (regF s partTime 4 4 == 0 || Config.pllLock s.time.dur))
  | 0x2010, 2 => boolB s.hw.ocxo
  | 0x2020, 1 => leBytes 1 (pstateOf s)
  | 0x2030, 2 => boolB s.striped
  | 0x2040, 2 => leBytes 2 s.dict.rstJnl
  | 0x2040, 3 => leBytes 2 s.dict.rstFac
  | 0x2040, 4 => leBytes 1 (jnlFill s)
  | 0x2040, 6 => leBytes 4 (bankGen s bank)
  | 0x2040, 7 => boolB (bankRead s bank).isSome
  | 0x2050, 3 => leBytes 8 (gateReg s r).toNat
  | 0x2050, 4 => leBytes 8 (gateReg s (r + 8)).toNat
  | 0x2050, 5 => leBytes 8 (gateReg s (r + 0x10)).toNat
  | 0x2050, 6 => leBytes 8 (reg s (gateBlock g + 0x38)).toNat
  | 0x2050, 7 => leBytes 8 (reg s (gateBlock g + 0x40)).toNat
  | 0x2051, k => leBytes 8 (gateReg s (r + 0x80 + 8 * (k - 1))).toNat
  | 0x2000, 1 => leBytes 2 (Config.measured (okey idx sub) s.time.dur).toNat
  | _, _ => leBytes 4 (Config.measured (okey idx sub) s.time.dur).toNat

/-- Bytes 0x20 to 0x3F of a trip object's image as read: the trip unit's own while the object is enabled, and as it last wrote
them otherwise; zero while no table base is set (R369, R484). -/
def tripState (s : State) (n : Nat) : List Byte :=
  match tripObj s n with
  | some o => lstateBytes s o
  | none => if tripBase s = 0 then List.replicate 32 0 else physRead s (tripBase s + 256 * n + 0x20) 32

/-- The image of a trip object or publication: its bytes in the table, or as last written while no table base is
set (R484). -/
def imageNow (s : State) (idx n : Nat) : List Byte :=
  let publication := idx == 0x5011
  let base := if publication then pubBase s else tripBase s
  let size := if publication then 2048 else 256
  let b := if base = 0 then (tblFind s.objs (tabKey n idx 1)).getD (List.replicate size 0) else physRead s (base + size * n) size
  if publication then b else b.take 0x20 ++ tripState s n ++ b.drop 0x40

/-- Objects of lanes, trip objects and publications (R482, R484). -/
def readUnits (s : State) (own idx sub : Nat) : List Byte :=
  let t := sel s own 0x5001 1
  let p := sel s own 0x5010 1
  match idx, sub with
  | 0x5002, 1 => imageNow s idx t
  | 0x5002, 4 => leBytes 8 (tripQueryWord s t).toNat
  | 0x5002, 5 => slice (imageNow s 0x5002 t) 0x28 12
  | 0x5002, 6 => boolB (tripObj s t).isSome
  | 0x5011, 1 => imageNow s idx p
  | 0x5011, 4 => leBytes 4 (match pubOf s p with | some x => x.st | none => 0)
  | 0x5011, 5 => leBytes 4 (match pubOf s p with | some x => x.sq | none => 0)
  | 0x5011, 6 => boolB (pubOf s p).isSome
  | i, 2 => boolB (s.hw.up.contains (i - 0x3000))
  | i, _ => leBytes 8 (laneMac (i - 0x3000)).toNat

/-- The state of a block (R455). -/
def blockStateNow (s : State) (b : Nat) : Nat :=
  if s.offline.contains b || regionOut s (b / 4) then 4 else regF s (regStat b) 5 4

/-- Monarch's objects (R445, R455). -/
def readMonarch (s : State) (own idx sub : Nat) : List Byte :=
  let c := compOf s (sel s own 0x6050 1)
  match idx, sub with
  | 0x6000, 2 => leBytes 4 s.mon.epoch
  | 0x6000, _ => leBytes 1 (coordinator s)
  | 0x6020, 1 => leBytes 4 s.mon.propSeq
  | 0x6020, _ =>
    (match s.mon.prop with
     | some p => slice (leBytes 4 p.seq ++ leBytes 2 p.kind ++ leBytes 2 p.target ++ leBytes 2 p.arg ++ leBytes 2 0
         ++ leBytes 4 p.gain.toNat) 0 32
     | none => List.replicate 32 0)
  | 0x6030, 1 => leBytes 1 s.twin.state
  | 0x6030, 2 => leBytes 4 s.twin.nmiss
  | 0x6030, 3 => leBytes 4 s.twin.ntake
  | 0x6030, 4 => leBytes 4 s.twin.nsplit
  | 0x6030, 5 => leBytes 4 (match s.twin.mir with | some t => (s.time.dur - t) / (1000000 * 2 ^ 32) | none => 0)
  | 0x6030, _ => leBytes 4 s.twin.nerr
  | 0x6040, _ => leBytes 1 s.twin.rm
  | 0x6050, 2 => leBytes 1 (match c with | some c => c.state | none => 0)
  | 0x6050, 3 => leBytes 4 ((clampInt (-(2 ^ 31)) (2 ^ 31 - 1) (match c with | some c => c.last | none => 0)) % 2 ^ 32).toNat
  | 0x6050, 4 => leBytes 4 (match c with | some c => c.miss | none => 0)
  | 0x6050, 5 => leBytes 4 (match c with | some c => c.mig | none => 0)
  | 0x6050, _ =>
    leBytes 4 (match c with
      | some c => ((minBy (fun n => n) (c.thr.map (fun t => t.seat.cell))).getD 0)
      | none => 0)
  | i, 1 => leBytes 1 (regF s (regStat (i - 0x6060)) 1 0)
  | i, 2 => leBytes 1 (blockStateNow s (i - 0x6060))
  | i, 3 => leBytes 2 (hottest (temps s (i - 0x6060)) % 2 ^ 16).toNat
  | i, _ =>
    let w := ctlWordRead s (blockBase (i - 0x6060) + 0x1010)
    leBytes 4 (fld w 15 0 * fld w 31 16 / 1000)

/-- Security and lifecycle (R486). -/
def readSecurity (s : State) (idx sub : Nat) : List Byte :=
  match idx, sub with
  | 0x7000, 1 => leBytes 1 (lcState s)
  | 0x7000, 3 => leBytes 4 (arbCount s)
  | 0x7000, 4 => leBytes 1 (rootMask s)
  | 0x7000, _ => leBytes 1 (imgRk (runHeader s))
  | 0x7010, 2 => leBytes 4 s.sec.result
  | 0x7010, _ => leBytes 4 (s.sec.slots.stA + s.sec.slots.stB * 2 ^ 8)
  | 0x7020, 1 => idPub s
  | 0x7020, 2 => leBytes 1 (idSet s)
  | 0x7020, _ => s.sec.report
  | 0x7030, _ => leBytes 1 (secretState s)
  | 0x7040, 1 => dbgNonce s
  | _, _ => leBytes 1 (debugState s)

/-- The record of an index of R295. -/
def recOfIdx (idx : Nat) : Rec :=
  if idx < 0x8110 then .chip else if idx < 0x8120 then .region (idx - 0x8110)
  else if idx < 0x8200 then .block (idx - 0x8120) else .cell (idx - 0x8200)

/-- A queue's descriptor as its manager would find it, without an effect on the cache. -/
def descNow (s : State) (q : Nat) : QDesc :=
  match (qCacheOf s (queueRegion q)).find? (fun d => d.q == q) with
  | some d => d
  | none => { q := q, ws := (List.range 8).map (fun i => if s.qReady then wd (physNat s (qtab s + 64 * q + 8 * i) 8) else 0),
              stuck := false }

/-- The log as it is read: in the states where the island serves, the tail alone (R493). -/
def logNow (s : State) : List LogRec := if pstateOf s = 0 then s.log else tailNow s

/-- The log entries from a sequence number, or from the oldest held, on. -/
def logFrom (s : State) (n : Nat) : List LogRec :=
  let l := logNow s
  if l.any (fun r => r.seq == n) then l.dropWhile (fun r => r.seq != n) else l

/-- Diagnostics (R295, R323, R396, R487, R492). -/
def readDiag (s : State) (own idx sub : Nat) : List Byte :=
  let q := descNow s (sel s own 0x8148 1)
  let r := tblGet (0, 0, 0) s.dict.ref own
  let t : TripCnt := tblGet {} s.trip.cnts (sel s own 0x8540 1)
  let p : PubCnt := tblGet {} s.trip.pcnts (sel s own 0x8541 1)
  let b := binOf s (sel s own 0x8543 1)
  let pick := fun (l : List Nat) => leBytes 4 (l.getD (sub - 2) 0)
  match idx, sub with
  | 0x8000, 1 => leBytes 4 s.logNext
  | 0x8000, 3 =>
    (match (logNow s).find? (fun r => r.seq == sel s own 0x8000 2) with
     | some r => logBytes r
     | none => [])
  | 0x8000, 6 => leBytes 4 s.logLost
  | 0x8000, _ => (logFrom s (sel s own 0x8000 2)).flatMap logBytes
  | 0x8001, 1 => leBytes 2 r.1
  | 0x8001, 2 => leBytes 2 r.2.1
  | 0x8001, _ => leBytes 4 r.2.2
  | 0x8148, 8 => leBytes 4 (dCount q)
  | 0x8148, 9 => leBytes 1 (dFld q 7 3 0)
  | 0x8148, k => leBytes 4 (dFld q (3 + (k - 2) / 2) (31 + 32 * ((k - 2) % 2)) (32 * ((k - 2) % 2)))
  | 0x8540, _ => pick [t.ninv, t.nmet, t.ndis, t.nact, t.nexp, t.nsame, t.nlw, t.nrel, t.nrelref]
  | 0x8541, _ => pick [p.ntx, p.nst, p.ncanc, p.nterr]
  | 0x8543, _ => pick [b.nevt, b.nglitch, b.nchat]
  | i, k =>
    if 0x8300 ≤ i ∧ i < 0x8421 then leBytes 8 (reg s (gateBlock (i - 0x8300) + 0x10 + 8 * k)).toNat
    else if 0x8140 ≤ i ∧ i < 0x8144 then
      (if k = 3 then leBytes 4 (qPinned s (i - 0x8140))
       else leBytes 4 (s.qwait.foldl (fun n e => if queueRegion e.1 == i - 0x8140 then n + e.2.length else n) 0))
    else leBytes 8 (ctlWordRead s (recAddr (recOfIdx i) + 8 * (k - 1))).toNat

/-- A value computed when it is read. -/
def readLive (s : State) (own idx sub : Nat) : List Byte :=
  if idx < 0x2000 then readIdent s own idx sub
  else if idx < 0x3000 then readPlatform s own idx sub
  else if idx < 0x6000 then readUnits s own idx sub
  else if idx < 0x7000 then readMonarch s own idx sub
  else if idx < 0x8000 then readSecurity s idx sub
  else readDiag s own idx sub

/-- The value of a present, readable object. -/
def readVal (s : State) (own idx sub : Nat) (e : DEnt) : List Byte :=
  match e.loc with
  | .reg a stride hi lo => leBytes (tySize e.ty) (fld (ctlWordRead s (a + stride * (idx - e.base))) hi lo)
  | .tab t selIdx off hi lo =>
    let n := sel s own selIdx 1
    if (t = 0 ∧ off = 0x40) ∨ (t = 2 ∧ off = 0x80) then tabOctets s t n
    else leBytes (tySize e.ty) (fld (ctlWordRead s (tabAt t n off)) hi lo)
  | .kept => keptVal s e idx sub
  | .sel => leBytes (tySize e.ty) (sel s own idx sub)
  | .live => readLive s own idx sub
  | .act => readLive s own idx sub

/-- The power state as the dictionary answers in it: while waking, the state left; 5 when nothing answers (R533). -/
def serveState (s : State) : Nat :=
  if !s.chip.aux then 5
  else if pstateOf s ≠ 3 then pstateOf s
  else match s.chip.origin with
    | 1 => 1
    | 2 => 2
    | 3 => 4
    | _ => 5

/-- The island answers the dictionary alone. -/
def islandAlone (s : State) : Bool := serveState s != 0

/-- An object that the island serves by itself in standby, hibernate and wake-failed (R472, R533). -/
def islandServes (s : State) (idx sub : Nat) : Bool :=
  (serveState s == 4 && idx == 0x1010 && sub == 7) || (idx == 0x1000 && decide (1 ≤ sub) && decide (sub ≤ 8)) || (idx == 0x1010 && sub == 1) || (idx == 0x2020 && sub == 1)
    || (idx == 0x2040 && decide (1 ≤ sub) && decide (sub ≤ 3)) || (idx == 0x8000 && decide (sub ≤ 7) && sub != 5)

/-- A read by a session: the value or the abort (R465). -/
def objRead (s : State) (own idx sub : Nat) : Except Nat (List Byte) :=
  if islandAlone s && !islandServes s idx sub then .error abState
  else match topSub idx with
  | none => .error abNoIndex
  | some top =>
    if sub = 0 then .ok (leBytes 1 top)
    else match entOf idx sub with
    | none => .error abNoSub
    | some e =>
      if e.acc = .wo then .error abWriteOnly
      else if idx = 0x8000 ∧ sub = 3 ∧ !(logNow s).any (fun r => r.seq == sel s own 0x8000 2) then .error abNotHeld
      else .ok (readVal s own idx sub e)

/-- Before a request that depends on a selection, the session's copy goes into the hardware selection (R464). -/
def selLoad (own idx sub : Nat) (s : State) : State :=
  if idx = 0x8520 ∧ 2 ≤ sub then setObjNat 0x8520 1 2 (sel s own 0x8520 1) s else s

/-! The checks of a write (R461 to R465). -/

/-- A commissioning secret may be written over the mailbox by an open session (R463). -/
def secretOpen (s : State) (own : Nat) : Bool :=
  lcState s == 1 && !(secretState s).testBit 1 && (match sessOf s own with | some x => x.carrier == .pcie | none => false)

/-- The class that a write needs, and the device states that accept it (R462, R463), by the first octet of the value; where
that is not known yet, what some value is accepted with (R510). -/
def writeGate (s : State) (own idx sub : Nat) (e : DEnt) (v : Option Nat) : Nat × List Nat :=
  if e.loc = .sel then (0, [0, 1, 2, 3, 4])
  else match idx, sub with
  | 0x1010, 2 =>
    (match v with
     | some 1 => (1, [0])
     | some 2 => (1, [1, 3])
     | some 3 => (1, [2])
     | some 4 => (1, [0, 1, 2, 3, 4])
     | some 5 => (2, [2])
     | none => (1, [0, 1, 2, 3, 4])
     | _ => (1, [0, 1, 2, 3]))
  | 0x2020, 2 => (1, [0, 1, 2, 3])
  | 0x5002, 2 =>
    (match v with
     | some 3 => (1, [1, 2, 3])
     | none => (1, [0, 1, 2, 3])
     | _ => (1, [0, 2]))
  | 0x5040, 2 => (2, [2])
  | 0x6010, _ => (1, [0, 2])
  | 0x7020, 3 => (1, [0, 1, 2, 3])
  | 0x7030, _ => if secretOpen s own then (0, [0, 2]) else (2, [2])
  | 0x8000, 5 => (2, [2])
  | _, _ =>
    if idx < 0x2000 then (1, [0, 1, 2, 3])
    else if idx < 0x3000 then (2, [0, 2])
    else if idx < 0x6000 then (1, [0, 2])
    else if idx < 0x7000 then (1, [0, 1, 2, 3])
    else if idx < 0x8000 then (2, [2])
    else (1, [0, 1, 2, 3])

/-- The length of a value against its type (check 6; R510). -/
def lengthBad (ty : DTy) (n : Nat) : Option Nat :=
  match ty with
  | .str mx => if mx < n then some abTooLong else none
  | .oct mn mx => if mn = mx then (if n = mn then none else some abLength) else if mx < n then some abTooLong else if n < mn then some abLength else none
  | .dom mx => if mx < n then some abTooLong else none
  | t => if n = tySize t then none else some abLength

/-- Checks 1 to 6 of R465; the island alone takes the wake command, and in standby the command that goes on to hibernate (R472, R534;
DEDUCED, log entry 115); `v` is the value's first octet, none where it is not known yet (R510). -/
def writeChecks (s : State) (own idx sub n : Nat) (v : Option Nat) : Except Nat DEnt :=
  if islandAlone s && !((idx == 0x2020 && sub == 2 && (v == some 3 || v.isNone || (v == some 2 && serveState s == 1))) || (idx == 0x8000 && sub == 2)) then .error abState
  else match topSub idx with
  | none => .error abNoIndex
  | some _ =>
    if sub = 0 then .error abReadOnly
    else match entOf idx sub with
    | none => .error abNoSub
    | some e =>
      let g := writeGate s own idx sub e v
      let cls := match sessOf s own with | some x => x.cls | none => 0
      if e.acc = .const ∨ e.acc = .ro then .error abReadOnly
      else if cls < g.1 ∧ !islandAlone s then .error abClass
      else if !g.2.contains s.dev && !islandAlone s then .error abState
      else match lengthBad e.ty n with
        | some a => .error a
        | none => .ok e

/-- A value as an integer of its type. -/
def valueOf (ty : DTy) (b : List Byte) : Int :=
  match ty with
  | .int n => let v := leNat b; if v < 2 ^ (8 * n - 1) then (v : Int) else (v : Int) - (2 ^ (8 * n) : Nat)
  | _ => (leNat b : Int)

/-- A value outside its range (check 7). -/
def valueBad (e : DEnt) (b : List Byte) : Bool :=
  match e.ty with
  | .str _ => b.any (fun x => decide (x.toNat < 0x20) || decide (0x7E < x.toNat))
  | .oct _ _ => false
  | .dom _ => false
  | .real => leNat b / 2 ^ 23 % 256 == 255
  | .time => decide (1000000000 ≤ leNat (slice b 2 4))
  | t => decide (valueOf t b < e.lo) || decide (e.hi < valueOf t b) || (e.base == 0x3010 && decide (e.sub ≤ 8) && leNat b / 2 % 4 == 3)

/-! What a write does (check 8 and beyond). -/

/-- How a write ends: accepted; an abort; the answer comes later; or something follows the answer: a reset (4), a
factory restore (5), or a power command (16 + k). -/
inductive WEnd where
  | done
  | abort (code : Nat)
  | later
  | after (k : Nat)
  deriving DecidableEq, Repr

/-- The unit and reason of a refusal, as 0x8001 holds them (R487). -/
def refusal (own unit reason idx sub : Nat) (s : State) : State × WEnd :=
  ({ s with dict := { s.dict with ref := tblSet own (unit, reason, okey idx sub) s.dict.ref } }, .abort abUnit)

/-- The unit that refused a register field, and its reason. -/
def fieldRefusal (own idx sub : Nat) (s : State) : State × WEnd :=
  if idx = 0x3010 ∨ idx = 0x4001 ∨ idx = 0x5021 ∨ (0x4010 ≤ idx ∧ idx < 0x4020) then
    refusal own 2 (regF s (ingBase + 0x18) 15 8) idx sub s
  else (s, .abort abUnit)

/-- An accepted value kept, and persisted where it is retained (R473). -/
def keep (idx : Nat) (e : DEnt) (key : Nat) (b : List Byte) (s : State) : State :=
  if !e.ret then s
  else
    let s := { s with objs := tblSet key b s.objs }
    match bankOf? idx with
    | some k => persist k s
    | none => s

/-- The service begins or goes on: publications and rings that stood still resume, and a trial image is confirmed
(R354, R387, R469, R563). -/
def serviceBegin (s : State) : State :=
  let was := inService s
  let s := enterService (if was then s else gridsFollow s)
  confirm (if was then s else gridsFollow (pubsResume s))

/-- A commit (R470). -/
def commitDo (s : State) : State := serviceBegin (logFree 0x01 0x04 0 0 (commitBanks s))

/-- The device commits by itself at the end of placement, or records why it waits (R470). -/
def autorunCommit (s : State) : State :=
  if s.dev ≠ 0 ∨ pstateOf s ≠ 0 ∨ !s.mon.wait.isEmpty ∨ objNat s 0x1010 4 0 ≠ 1 then s
  else if s.dict.rstFac = 0 ∧ !s.mon.failed then commitDo { s with dict := { s.dict with auto := true } }
  else logFree 0x01 0x09 0 (s.dict.rstFac + b2n s.mon.failed * 2 ^ 16) s

/-- Maintenance is left: forced outputs end with it (R379, R469). -/
def leaveMaintenance (s : State) : State := serviceBegin (setReg (toutBlock + 8) 0 s)

/-- Every retained object at its factory default, the wake counters of bank 15 among them, the banks written and the journal
empty (R471, R474). -/
def factoryDefaults (s : State) : State :=
  let kept := s.objs.filter (fun e =>
    e.1 < 2 ^ 24 && (match entOf (e.1 / 256) (e.1 % 256) with | some t => !t.ret | none => true))
  let s := { s with objs := kept, dict := { s.dict with jnl := {}, jnl2 := {}, pend := [], dirty := [] } }
  let s := recordWake (setReg (pcBase + 0x30) 0 s)
  logFree 0x01 0x06 0 0 ((List.range 12).foldl (fun s k => bankWrite k false s) s)

/-- A command on a trip object or publication through the dictionary (R388, R484): the enabled flag follows. -/
def imageCommand (own idx sub n cop : Nat) (publication : Bool) (s : State) : State × WEnd :=
  let s := (wordWrite false (tripBlock + 0x10) (tripCommandWord n cop publication) s).1
  let res := regF s (tripBlock + 0x18) 15 8
  if res ≠ 0 then refusal own 4 res idx sub s
  else if cop = 1 ∨ cop = 2 then
    (persist (if publication then 8 else 7)
      { s with objs := tblSet (tabKey n idx 6) (boolB (cop == 1)) s.objs }, .done)
  else (s, .done)

/-- An image written while its entry is disabled (R484). -/
def imageStore (own idx sub n : Nat) (b : List Byte) (s : State) : State × WEnd :=
  let publication := idx == 0x5011
  let busy := if publication then (pubOf s n).isSome else (tripObj s n).isSome
  let base := if publication then pubBase s else tripBase s
  if busy then refusal own 4 0x02 idx sub s
  else
    let s := { s with objs := tblSet (tabKey n idx 1) b s.objs }
    let s := if base = 0 then s else imagePut publication (base + b.length * n) b s
    (persist (if publication then 8 else 7) s, .done)

/-- The log and the tail emptied (R492). -/
def logClear (s : State) : State := { s with log := [], tail := [], tailGen := s.tailGen + 1, tailPatch := [] }

/-- A refusal that depends on the present state of what the object commands. -/
def unlessState (r : State × Bool) : State × WEnd := if r.2 then (r.1, .abort abState) else (r.1, .done)

/-- The power commands allowed from the present state (R534, R537). -/
def powerAllowed (s : State) (k : Nat) : Bool := !(powerCommand k s).2

/-- An object that acts when it is written; `tid` is the transaction that waits for a late answer. -/
def actWrite (own tid idx sub : Nat) (b : List Byte) (s : State) : State × WEnd :=
  let v := leNat b
  match idx, sub with
  | 0x1010, 2 =>
    (match v with
     | 1 => (commitDo s, .done)
     | 2 => (setDev 2 s, .done)
     | 3 => (leaveMaintenance s, .done)
     | k => (s, .after k))
  | 0x2020, 2 => if powerAllowed s v then (s, .after (16 + v)) else (s, .abort abState)
  | 0x3100, 0x0F =>
    if s.time.state ≠ 0 then (s, .abort abState)
    else (hostSet (leNat (slice b 6 6)) (leNat (slice b 2 4)) (leNat (slice b 0 2)) s, .done)
  | 0x5002, 1 => imageStore own idx sub (sel s own 0x5001 1) b s
  | 0x5002, 2 => imageCommand own idx sub (sel s own 0x5001 1) v false s
  | 0x5011, 1 => imageStore own idx sub (sel s own 0x5010 1) b s
  | 0x5011, 2 => if v = 3 then (s, .abort abRange) else imageCommand own idx sub (sel s own 0x5010 1) v true s
  | 0x6010, 1 =>
    (match loadResult s b with
     | some c => refusal own 5 c idx sub (manifestLoad b s)
     | none => (manifestLoad b s, .done))
  | 0x6010, 2 => (persist 10 (unload v s), .done)
  | 0x6020, 3 =>
    (match proposalConfirm v s with
     | (s, true) => (s, .done)
     | (s, false) => (s, .abort abState))
  | 0x6040, 2 => (removeConsent s, .done)
  | 0x7000, 2 => unlessState (if v = 2 then fieldSecure s else decommission s)
  | 0x7010, 1 =>
    if trialRun s ∨ s.sec.prog.isSome then (s, .abort abState)
    else
      (match imageWrite b own tid s with
       | (s, true) => (s, .later)
       | (s, false) => (s, .done))
  | 0x7010, 3 => unlessState (fwActivate s)
  | 0x7020, 3 =>
    if hasIdentity s then ({ s with sec := { s.sec with jobs := s.sec.jobs ++ [.report own tid b] } }, .later)
    else (s, .abort abState)
  | 0x7030, k => (secretWrite (k == 2) b s, .done)
  | 0x7040, 2 =>
    (match token b s with
     | (s, true) => (s, .done)
     | (s, false) => (s, .abort abUnit))
  | 0x8000, 5 => (if v = 1 then logClear s else s, .done)
  | i, 8 => ((wordWrite false (recAddr (recOfIdx i) + 0x38) (wd v) s).1, .done)
  | _, _ => (s, .done)

/-- A present object written with a value that passed checks 1 to 7. -/
def putVal (own tid idx sub : Nat) (e : DEnt) (b : List Byte) (s : State) : State × WEnd :=
  match e.loc with
  | .sel =>
    (match sessOf s own with
     | some x => (setSess own { x with sel := tblSet (okey idx sub) (leNat b) x.sel } s, .done)
     | none => (s, .done))
  | .reg a stride hi lo =>
    let g := idx - 0x4010
    if 0x4010 ≤ idx ∧ idx < 0x4020 ∧ sub = 1 ∧ leNat b = 1 ∧ !bit (reg s (gridBase g)) 0 then
      (match gridEnable g s with
       | (s, false, _) => (keep idx e (okey idx sub) b s, .done)
       | (s, true, 5) => refusal own 5 (Config.gridReason s.fresh).toNat idx sub (bumpFresh s)
       | (s, true, _) => fieldRefusal own idx sub s)
    else
      (match fieldWrite (a + stride * (idx - e.base)) hi lo (leNat b) s with
       | (s, true) => fieldRefusal own idx sub s
       | (s, false) => (keep idx e (okey idx sub) b s, .done))
  | .tab t selIdx off hi lo =>
    let n := sel s own selIdx 1
    (match tabWrite t n off hi lo b s with
     | (s, true) => fieldRefusal own idx sub s
     | (s, false) => (keep idx e (tabKey n idx sub) b s, .done))
  | .kept => (keep idx e (okey idx sub) b s, .done)
  | _ => actWrite own tid idx sub b s

/-- A retained value needs room in the journal (check 9). -/
def needsRoom (e : DEnt) (idx sub : Nat) : Bool := e.ret || (sub == 1 && (idx == 0x5002 || idx == 0x5011 || idx == 0x6010))

/-- A selection object, whose writes are not logged (R489). -/
def isSel (idx sub : Nat) : Bool := match entOf idx sub with | some e => e.loc == .sel | none => false

/-- A value as words. -/
def valueWords : Nat → List Byte → List W
  | 0, _ => []
  | k + 1, b => if b.isEmpty then [] else wd (leNat (b.take 8)) :: valueWords k (b.drop 8)

/-- An accepted write in the log: its index and subindex with its value (R488, R489). -/
def writeLogged (idx sub : Nat) (b : List Byte) (s : State) : State :=
  if isSel idx sub then s else logWords 0x01 0x01 idx (wd (okey idx sub) :: valueWords (b.length / 8 + 1) b) s

/-- A refused write in the log: its index and subindex, and the abort code (R488, R489). -/
def writeRefused (idx sub code : Nat) (s : State) : State :=
  if isSel idx sub then s else logWords 0x01 0x02 idx [wd (okey idx sub), wd code] s

/-- A write by a session: the checks of R465, its effect, and its entry in the log (R489). A write that the unit accepts and the
journal has no room for changes nothing. -/
def objWrite (own tid idx sub : Nat) (b : List Byte) (s : State) : State × WEnd :=
  let refused := fun (c : Nat) => (writeRefused idx sub c s, WEnd.abort c)
  match writeChecks s own idx sub b.length (some ((b.head?.map (·.toNat)).getD 0)) with
  | .error c => refused c
  | .ok e =>
    if valueBad e b then refused abRange
    else match putVal own tid idx sub e b (selLoad own idx sub s) with
      | (s, .abort c) => (writeRefused idx sub c s, .abort c)
      | (t, w) => if needsRoom e idx sub && !jnlRoom s b.length then refused abNoRoom else (writeLogged idx sub b t, w)

/-- What follows the answer of a command (R471, R534). -/
def afterAnswer (k : Nat) (s : State) : State :=
  match k with
  | 4 => chipReset 0x03 s
  | 5 => chipReset 0x03 (factoryDefaults s)
  | k => (powerCommand (k - 16) s).1

end Sys2Proof.Machine
end

