-- ==== Sys2Proof/Machine/Link.lean ====
section
/-! DEFINITION. The Dunzia link (chapter 15): carriers, messages, sessions and their epochs, transactions, segmented
transfers and authentication. -/

namespace Sys2Proof.Machine

def tDz : Nat := 1000000 * 2 ^ 32

/-! Aborts of R520 that the dictionary does not raise. -/

def abDownloading : Nat := 0x0A020006
def abReadLong : Nat := 0x0A030003
def abAnnounced : Nat := 0x0A030004
def abTid : Nat := 0x0A040001
def abWindow : Nat := 0x0A040002
def abSession : Nat := 0x0A040003
def abExpected : Nat := 0x0A040004
def abTimeout : Nat := 0x0A040005
def abProof : Nat := 0x0A050002
def abFourAuth : Nat := 0x0A050003
def abNoSecret : Nat := 0x0A050004
def abLocked : Nat := 0x0A050005
def abNoSession : Nat := 0x0A060003
def abFourTxn : Nat := 0x0A060004
def abEightSeg : Nat := 0x0A060005

/-! Carriers (R494 to R497). -/

/-- The bytes that may follow the header. -/
def capacity : Carrier → Nat
  | .can _ => 56
  | .udp _ _ => 1400
  | .pcie => 4096

/-- The segment timeout, on the duration clock. -/
def segTimeout : Carrier → Nat
  | .can _ => 100 * tDz
  | .udp _ _ => 20 * tDz
  | .pcie => 2 * tDz

/-- The smallest CAN FD data length that holds `n` bytes. -/
def canLen (n : Nat) : Nat :=
  if n ≤ 8 then n
  else (([12, 16, 20, 24, 32, 48, 64] : List Nat).find? (fun k => decide (n ≤ k))).getD 64

/-- The carrier is in service in the present state (R472, R495 to R497, R533, R539, R581). -/
def carrierLive (s : State) (c : Carrier) : Bool :=
  let st := serveState s
  match c with
  | .can ctl =>
    nodeNumber s != 0 && (st == 0 || st == 1 || ((st == 2 || st == 4) && (carrierVal s 7 0 == 1) == ctl))
  | .udp _ _ => st == 0 && carrierVal s 4 1 == 1 && (carrierVal s 1 0 != 0 || nodeNumber s != 0)
  | .pcie => st == 0 && s.hw.pcie

/-- The address that the UDP carrier answers on: address 0 stands for 169.254.1.node (R479, R496). -/
def ownAddr (s : State) : Nat := if carrierVal s 1 0 = 0 then 0xA9FE0100 + nodeNumber s else carrierVal s 1 0

/-- The port of the service (R494). -/
def dzPort : Nat := 47820

/-- A carrier unit addressed to the service: a request identifier of the node, or the port at the module's address and no
fragment (R494, R496). Either SGMII port carries the service alike (DESIGN CHOICE, log entry 111). -/
def addressed (s : State) (m : Msg) : Bool :=
  match m.carrier with
  | .can _ => m.dst == 0x600 + nodeNumber s
  | .udp _ _ => m.dst == dzPort && m.addr == ownAddr s && !m.frag
  | .pcie => true

/-- The source that a lockout or an OPEN's quarantine is kept for (R506, R518): for AUTH, one UDP address. -/
def authSource : Carrier → Carrier
  | .can _ => .can false
  | .udp a _ => .udp a 0
  | .pcie => .pcie

/-- A message leaves on a carrier: from the node's response identifier, padded to a CAN FD data length (R494, R495), or from the
service's port to the requesting address and port. -/
def carry (c : Carrier) (b : List Byte) (s : State) : State :=
  match c with
  | .can _ => { s with tx := .msg c (0x680 + nodeNumber s) (slice b 0 (canLen b.length)) :: s.tx }
  | .udp _ _ => { s with tx := .msg c dzPort b :: s.tx }
  | .pcie => mailboxSend b s

/-! Messages (R498 to R500). -/

/-- A message as read: header fields, payload, trailer. -/
structure Dz where
  typ     : Nat
  sess    : Nat
  tid     : Nat
  epoch   : Nat
  flags   : Nat
  payload : List Byte
  hdr     : List Byte
  trailer : List Byte
  deriving DecidableEq, Repr

def Dz.mac (d : Dz) : Bool := d.flags.testBit 1
def Dz.last (d : Dz) : Bool := d.flags.testBit 2
def Dz.retx (d : Dz) : Bool := d.flags.testBit 3

/-- A header (R498). -/
def dzHeader (typ sess tid epoch flags plen : Nat) : List Byte :=
  leBytes 1 (0x10 + typ) ++ leBytes 1 sess ++ leBytes 2 tid ++ leBytes 1 epoch ++ leBytes 1 flags ++ leBytes 2 plen

/-- The message in a carrier unit, when it is well formed (R499). -/
def dzParse (m : Msg) : Option Dz :=
  let b := match m.carrier with | .pcie => slice m.bytes 0 m.len | _ => m.bytes
  let h := fun (i : Nat) => leNat (slice b i 1)
  let plen := leNat (slice b 6 2)
  let flags := h 5
  let total := 8 + plen + (if flags.testBit 1 then 20 else 0)
  let typ := h 0 % 16
  let fits := match m.carrier with
    | .can _ => m.fd && b.length == canLen total
    | .udp _ _ => b.length == total && m.len == 8 + total
    | .pcie => m.len == total
  if b.length < 8 ∨ h 0 / 16 ≠ 1 ∨ typ = 0 ∨ 0xD ≤ typ ∨ 32 ≤ flags ∨ flags.testBit 0
      ∨ 8 + capacity m.carrier < total ∨ !fits then none
  else some { typ := typ, sess := h 1, tid := leNat (slice b 2 2), epoch := h 4, flags := flags,
              payload := slice b 8 plen, hdr := slice b 0 8, trailer := slice b (8 + plen) 20 }

/-- A link counter (R521). -/
def dzCount (k : Nat) (s : State) : State := bumpObj 0x1029 k s

/-! Sessions (R502 to R504). -/

/-- The trailer of R516. -/
def trailerOf (key hdr payload : List Byte) (seq : Nat) : List Byte :=
  let q := leBytes 4 seq
  q ++ slice (hmac key (hdr ++ payload ++ q)) 0 16

/-- A message under a session's number sent by the device with an epoch; an authenticated session's carries a trailer (R516,
R517, R519). -/
def sessSendAs (n epoch typ flags tid : Nat) (payload : List Byte) (s : State) : State :=
  match sessOf s n with
  | none => s
  | some x =>
    match (if x.cls = 0 then none else x.keys) with
    | none => carry x.carrier (dzHeader typ n tid epoch (flags ||| 1) payload.length ++ payload) s
    | some (_, kdh) =>
      let seq := x.txSeq + 1
      if 2 ^ 32 ≤ seq then closeSess n s
      else
        let h := dzHeader typ n tid epoch (flags ||| 3) payload.length
        let s := setSess n { x with txSeq := seq } s
        let s := carry x.carrier (h ++ payload ++ trailerOf kdh h payload seq) s
        if seq = 2 ^ 32 - 1 then closeSess n s else s

/-- A message of a session sent by the device. -/
def sessSend (n typ flags tid : Nat) (payload : List Byte) (s : State) : State :=
  sessSendAs n (match sessOf s n with | some x => x.epoch | none => 0) typ flags tid payload s

/-! Transactions (R505 to R508). -/

/-- How long a tid stays in quarantine. -/
def quarTime : Nat := 2000 * tDz

/-- The type and payload of a request, as repeats are compared with it (R507). -/
def reqKey (d : Dz) : List Byte := leBytes 1 d.typ ++ d.payload

def txnOf (x : Sess) (tid : Nat) : Option Txn := x.txs.find? (fun t => t.tid == tid)

def putTxn (n : Nat) (t : Txn) (s : State) : State :=
  match sessOf s n with
  | none => s
  | some x => setSess n { x with txs := x.txs.filter (fun u => u.tid != t.tid) ++ [t] } s

/-- A tid enters quarantine with its final message; the keys of an authentication step 1 lapse with it (R506, R507,
R515). -/
def quarantine (n tid : Nat) (req seg : List Byte) (final : Nat × Nat × List Byte) (s : State) : State :=
  match sessOf s n with
  | none => s
  | some x =>
    let ends := s.time.dur + quarTime
    let auth := x.auth.map (fun a => if a.tid = tid ∧ a.ends = none then { a with ends := some ends } else a)
    setSess n { x with txs := x.txs.filter (fun u => u.tid != tid), auth := auth,
                       quar := x.quar.filter (fun q => q.tid != tid)
                         ++ [{ tid := tid, ends := ends, req := req, seg := seg, final := final }] } s

/-- A transaction's final message sent, and its tid put in quarantine. -/
def finish (n tid : Nat) (req seg : List Byte) (typ flags : Nat) (payload : List Byte) (s : State) : State :=
  sessSend n typ flags tid payload (quarantine n tid req seg (typ, flags, payload) s)

/-- The RESULT that ends a request. -/
def answer (n : Nat) (d : Dz) (payload : List Byte) (s : State) : State := finish n d.tid (reqKey d) [] 0xB 0 payload s

/-- An ABORT of a session, with no effect on its transactions (R519). -/
def abortOnly (n tid code : Nat) (s : State) : State := sessSend n 0xC 0 tid (leBytes 4 code) (dzCount 7 s)

/-- A request refused: the ABORT is its final message. -/
def refuse (n : Nat) (d : Dz) (code : Nat) (s : State) : State :=
  finish n d.tid (reqKey d) [] 0xC 0 (leBytes 4 code) (dzCount 7 s)

/-- An authentication step 1 that did not complete leaves no keys. -/
def authDrop (n tid : Nat) (s : State) : State :=
  match sessOf s n with
  | none => s
  | some x =>
    setSess n { x with auth := x.auth.filter (fun a => a.tid != tid || a.ends.isSome) } s

/-- An open transaction ended by an ABORT of the device. -/
def abortTxn (n : Nat) (t : Txn) (code : Nat) (s : State) : State :=
  finish n t.tid t.req t.lastSeg 0xC 0 (leBytes 4 code) (dzCount 7 (authDrop n t.tid s))

/-- Segmented transfers open over all sessions (R505). -/
def segTransfers (s : State) : Nat :=
  s.dl.sess.foldl (fun k e => k + (e.2.txs.filter (fun t => decide (t.kind ≤ 2))).length) 0

/-! Segments that the device sends (R511 to R513). -/

/-- The data that a segment of the session carries. -/
def segCap (x : Sess) : Nat := capacity x.carrier - 4 - (if x.cls = 0 then 0 else 20)

/-- The number of segments of a transfer; an empty one has one. -/
def segCount (x : Sess) (t : Txn) : Nat := max 1 ((t.data.length + segCap x - 1) / segCap x)

/-- Segment `k` sent, as the `r`-th resend when r is not 0. -/
def segSend (n tid k r : Nat) (s : State) : State :=
  match sessOf s n with
  | none => s
  | some x =>
    match txnOf x tid with
    | none => s
    | some t =>
      let c := segCap x
      let s := putTxn n { t with sent := tblSet k (s.time.dur, r) t.sent } s
      let flags := (if k + 1 = segCount x t then 4 else 0) + (if r = 0 then 0 else 8)
      sessSend n 9 flags tid (leBytes 4 k ++ (t.data.drop (k * c)).take c) s

/-- Every segment of the window that has not been sent. -/
def segWindow (n tid : Nat) (s : State) : State :=
  match sessOf s n with
  | none => s
  | some x =>
    match txnOf x tid with
    | none => s
    | some t =>
      ((List.range 16).map (fun i => t.next + i)).foldl (fun s k =>
        if k < segCount x t ∧ (tblFind t.sent k).isNone ∧ (t.held.all (fun h => h.1 != k)) then segSend n tid k 0 s else s) s

/-- The host's ACK (R512): segments it covers are done; the one that covers all is the transaction's end. -/
def ackUpload (n : Nat) (x : Sess) (t : Txn) (d : Dz) (s : State) : State :=
  let next := leNat (slice d.payload 0 4)
  let bits := leNat (slice d.payload 4 2)
  let count := segCount x t
  let top := t.sent.foldl (fun m e => max m (e.1 + 1)) t.next
  let top := t.held.foldl (fun m e => max m (e.1 + 1)) top
  if count < next ∨ top < next then abortTxn n t abExpected s
  else if next = count then quarantine n t.tid t.req [] (0, 0, []) s
  else
    let done := fun (k : Nat) => decide (k < next) || (decide (next < k) && bits.testBit (k - next - 1))
    let fresh := (t.sent.filter (fun e => done e.1 && decide (next ≤ e.1))).map (fun e => (e.1, ([] : List Byte)))
    let t := { t with next := max t.next next, sent := t.sent.filter (fun e => !done e.1),
                      held := (t.held.filter (fun e => decide (next ≤ e.1))) ++ fresh }
    segWindow n t.tid (putTxn n t s)

/-! Segments that the host sends (R510 to R512). -/

/-- The ACK for a download. -/
def ackSend (n : Nat) (t : Txn) (s : State) : State :=
  let bits := (List.range 16).foldl (fun b i => if (tblFind t.held (t.next + 1 + i)).isSome then b + 2 ^ i else b) 0
  sessSend n 0xA 0 t.tid (leBytes 4 t.next ++ leBytes 2 bits ++ leBytes 2 0) s

/-- The maximum of an object's length (R510). -/
def maxLen : DTy → Nat
  | .str mx => mx
  | .oct _ mx => mx
  | .dom mx => mx
  | t => tySize t

/-- A length that passes check 6, for a transfer whose length is not announced. -/
def someLen : DTy → Nat
  | .str _ => 0
  | .oct mn _ => mn
  | .dom _ => 0
  | t => tySize t

/-- The segments from `k` on that are held without a gap. -/
def runOn (held : Tbl (List Byte)) : Nat → Nat → Nat
  | 0, k => k
  | f + 1, k => if (tblFind held k).isSome then runOn held f (k + 1) else k

/-- Segment data `v` as number `k` is against the rules of R511: the abort. -/
def segBad (x : Sess) (t : Txn) (k : Nat) (last : Bool) (v : List Byte) : Option Nat :=
  let c := segCap x
  let upto := k * c + v.length
  let mx := match entOf t.idx t.sub with | some e => maxLen e.ty | none => 0
  if (match t.fin with | some f => decide (f < k) || (last && f != k) | none => false) then some abWindow
  else if last && t.held.any (fun h => decide (k < h.1)) then some abWindow
  else if !last && v.length != c then some abLength
  else if last && v.isEmpty && k != 0 then some abLength
  else if t.ann ≠ 0 ∧ (t.ann < upto ∨ (last ∧ upto ≠ t.ann)) then some abAnnounced
  else if t.ann = 0 ∧ mx < upto then some abTooLong
  else none

/-- The answer to a write that has been carried out: what its request asks for. -/
def writeAnswer2 (n tid : Nat) (t : Txn) (s : State) : State :=
  let o := leBytes 2 t.idx ++ leBytes 1 t.sub ++ leBytes 1 0
  finish n tid t.req t.lastSeg 0xB 0 (if t.ann = 2 ^ 32 then o else o ++ leBytes 4 t.got) s

/-- A write carried out and answered; what follows the answer then happens. -/
def writeDone (n : Nat) (t : Txn) (b : List Byte) (s : State) : State :=
  match objWrite n t.tid t.idx t.sub b s with
  | (s, .done) => writeAnswer2 n t.tid t s
  | (s, .abort c) => finish n t.tid t.req t.lastSeg 0xC 0 (leBytes 4 c) (dzCount 7 s)
  | (s, .later) => putTxn n { t with kind := 3, held := [], data := [] } s
  | (s, .after k) => afterAnswer k (writeAnswer2 n t.tid t s)

/-- A download ended by an abort, which the log shows as a refused write (R489). -/
def writeAbort (n : Nat) (t : Txn) (code : Nat) (s : State) : State := abortTxn n t code (writeRefused t.idx t.sub code s)

/-- The target of a download no longer takes a write at all (R466), or does not take one that begins so (R463, R465). -/
def segGate (s : State) (n : Nat) (t : Txn) (first : Option Nat) : Option Nat :=
  match entOf t.idx t.sub with
  | none => some abState
  | some e =>
    match writeChecks s n t.idx t.sub (someLen e.ty) none with
    | .error _ => some abState
    | .ok _ => match writeChecks s n t.idx t.sub (someLen e.ty) first with
      | .error c => some c
      | .ok _ => none

/-- A SEGMENT of an open download (R466, R511, R512). -/
def segTake (n : Nat) (x : Sess) (t : Txn) (d : Dz) (s : State) : State :=
  let k := leNat (slice d.payload 0 4)
  let v := d.payload.drop 4
  let first := if k = 0 then v.head? else t.data.head?
  match segGate s n t (first.map (·.toNat)) with
  | some c => writeAbort n t c s
  | none =>
  if k < t.next then ackSend n t (dzCount 5 s)
  else if t.next + 16 ≤ k then writeAbort n t abWindow s
  else match segBad x t k d.last v with
    | some c => writeAbort n t c s
    | none =>
      let held := tblSet k v t.held
      let next := runOn held 16 t.next
      let taken := ((held.filter (fun (h : Nat × List Byte) => decide (t.next ≤ h.1) && decide (h.1 < next))).map
        (fun (h : Nat × List Byte) => h.2)).flatten
      let t := { t with held := held, next := next, fin := if d.last then some k else t.fin, got := t.got + 1,
                        last := s.time.dur, lastSeg := if d.last then d.payload else t.lastSeg,
                        data := t.data ++ taken }
      let t := { t with held := held.filter (fun (h : Nat × List Byte) => decide (next ≤ h.1)) }
      if t.fin.map (· + 1) = some t.next then writeDone n { t with got := t.data.length } t.data s
      else ackSend n t (putTxn n t s)

/-! Requests (R509, R510). -/

/-- The object that a payload names. -/
def objOf (p : List Byte) : Nat × Nat := (leNat (slice p 0 2), leNat (slice p 2 1))

/-- The type code that a RESULT carries. -/
def codeOf (idx sub : Nat) : Nat :=
  match entOf idx sub with
  | some e => if sub = 0 then 6 else tyCode e.ty
  | none => 6

/-- A DOMAIN: it is not read whole (R459). -/
def isDomain (idx sub : Nat) : Bool := match entOf idx sub with | some e => (match e.ty with | .dom _ => true | _ => false) | none => false

/-- READ: the whole value in one RESULT. A DOMAIN is read by UPLOAD alone, as a value that does not fit is (R459, R509;
DEDUCED, log entry 92). -/
def doRead (n : Nat) (x : Sess) (d : Dz) (s : State) : State :=
  let o := objOf d.payload
  let s := selLoad n o.1 o.2 s
  match objRead s n o.1 o.2 with
  | .error c => refuse n d c s
  | .ok v =>
    if segCap x < v.length || isDomain o.1 o.2 then refuse n d abReadLong s
    else answer n d (slice d.payload 0 3 ++ leBytes 1 (codeOf o.1 o.2) ++ v) s

/-- WRITE: the whole value. -/
def doWrite (n : Nat) (d : Dz) (s : State) : State :=
  let o := objOf d.payload
  writeDone n { tid := d.tid, kind := 3, idx := o.1, sub := o.2, req := reqKey d, ann := 2 ^ 32 } (d.payload.drop 4) s

/-- UPLOAD: the length, then the segments. -/
def doUpload (n : Nat) (d : Dz) (s : State) : State :=
  let o := objOf d.payload
  let s := selLoad n o.1 o.2 s
  match objRead s n o.1 o.2 with
  | .error c => refuse n d c s
  | .ok v =>
    let s := putTxn n { tid := d.tid, kind := 0, idx := o.1, sub := o.2, req := reqKey d, data := v } s
    let s := sessSend n 0xB 16 d.tid (slice d.payload 0 3 ++ leBytes 1 (codeOf o.1 o.2) ++ leBytes 4 v.length) s
    segWindow n d.tid s

/-- Another session downloads to an object. -/
def downloading (s : State) (n idx sub : Nat) : Bool :=
  s.dl.sess.any (fun e => e.1 != n && e.2.txs.any (fun t => t.kind == 1 && t.idx == idx && t.sub == sub))

/-- DOWNLOAD: the checks up to the announced length. -/
def doDownload (n : Nat) (d : Dz) (s : State) : State :=
  let o := objOf d.payload
  let ann := leNat (slice d.payload 4 4)
  let len := if ann = 0 then (match entOf o.1 o.2 with | some e => someLen e.ty | none => 0) else ann
  match writeChecks s n o.1 o.2 len none with
  | .error c => refuse n d c (writeRefused o.1 o.2 c s)
  | .ok _ =>
    if downloading s n o.1 o.2 then refuse n d abDownloading (writeRefused o.1 o.2 abDownloading s)
    else
      let s := putTxn n { tid := d.tid, kind := 1, idx := o.1, sub := o.2, req := reqKey d, ann := ann,
                          last := s.time.dur } s
      sessSend n 0xB 0 d.tid (slice d.payload 0 3 ++ leBytes 1 0) s

/-! Authentication (R514 to R518). -/

/-- The secret of a class. -/
def secretOf (s : State) (cls : Nat) : Option (List Byte) := if cls = 2 then s.sec.mnt else s.sec.op

/-- The carrier is locked out. -/
def lockedOut (s : State) (c : Carrier) : Bool :=
  s.dl.locks.any (fun l => l.1 == authSource c && decide (s.time.dur < l.2))

/-- Sessions that are authenticated. -/
def authCount (s : State) : Nat := (s.dl.sess.filter (fun e => e.2.cls != 0)).length

/-- The keys of R515: host to device, device to host. -/
def authKeys (s : State) (n epoch cls : Nat) (nh nd secret : List Byte) : List Byte × List Byte :=
  let okm := hkdf (nh ++ nd) secret (octets "Dunzia-1" ++ serial s ++ leBytes 1 n ++ leBytes 1 epoch ++ leBytes 1 cls) 64
  (slice okm 0 32, slice okm 32 32)

/-- The refusal of step 1, if any (R514). -/
def authRefusal (s : State) (x : Sess) (cls sig : Nat) : Option Nat :=
  if islandAlone s then some abState
  else if x.cls ≠ 0 then some abExpected
  else if 4 ≤ authCount s then some abFourAuth
  else if cls = 0 ∨ 3 ≤ cls ∨ 2 ≤ sig then some abRange
  else if (secretOf s cls).isNone then some abNoSecret
  else if lockedOut s x.carrier then some abLocked
  else if sig = 1 ∧ !hasIdentity s then some abState
  else none

/-- The step-1 RESULT's payload. -/
def authResult1 (s : State) (nd : List Byte) (siglen : Nat) : List Byte :=
  leBytes 1 1 ++ leBytes 1 (idSet s) ++ leBytes 2 0 ++ nd ++ leBytes 4 siglen

/-- AUTH step 1: the nonce is drawn and the keys derived; with sig the answer waits for the signature. -/
def doAuth1 (n : Nat) (x : Sess) (d : Dz) (s : State) : State :=
  let cls := leNat (slice d.payload 1 1)
  let sig := leNat (slice d.payload 2 1)
  let nh := slice d.payload 4 16
  match authRefusal s x cls sig, secretOf s cls with
  | some c, _ => refuse n d c s
  | none, none => refuse n d abNoSecret s
  | none, some secret =>
    match drawRandom 16 s with
    | (nd, s) =>
      let k := authKeys s n x.epoch cls nh nd secret
      let a : AuthSt := { tid := d.tid, cls := cls, nh := nh, nd := nd, khd := k.1, kdh := k.2, ends := none }
      let s := setSess n { x with auth := some a } s
      if sig = 0 then answer n d (authResult1 s nd 0) s
      else
        let s := putTxn n { tid := d.tid, kind := 2, req := reqKey d } s
        { s with sec := { s.sec with jobs := s.sec.jobs ++ [.ident n d.tid] } }

/-- The string that the identity key signs (R515). -/
def authString (s : State) (n epoch : Nat) (a : AuthSt) : List Byte :=
  octets "DZA1" ++ serial s ++ leBytes 1 n ++ leBytes 1 epoch ++ leBytes 1 a.cls ++ a.nh ++ a.nd

/-- A wrong proof: refused and counted; three in a row close the session, three within 60 s lock the carrier out
(R504, R515, R518). -/
def authWrong (n : Nat) (x : Sess) (d : Dz) (s : State) : State :=
  let src := authSource x.carrier
  let s := setSess n { x with fails := x.fails + 1 } (dzCount 9 s)
  let s := refuse n d abProof s
  let near := (s.dl.wrong.filter (fun w => decide (s.time.dur < w.2 + 60000 * tDz))) ++ [(src, s.time.dur)]
  let mine := near.filter (fun w => w.1 == src)
  let s :=
    if 3 ≤ mine.length then
      let locks := s.dl.locks.filter (fun l => l.1 != src) ++ [(src, s.time.dur + 60000 * tDz)]
      logFree 0x0D 0x03 n 0 { s with dl := { s.dl with wrong := near.filter (fun w => w.1 != src), locks := locks } }
    else { s with dl := { s.dl with wrong := near } }
  if 3 ≤ x.fails + 1 then closeSess n s else s

/-- AUTH step 2: the proof, and the class; a lockout holds back both steps (R515, R518). -/
def doAuth2 (n : Nat) (x : Sess) (d : Dz) (s : State) : State :=
  match x.auth with
  | none => refuse n d abExpected s
  | some a =>
    if x.cls ≠ 0 ∨ !(match a.ends with | some e => decide (s.time.dur < e) | none => false) then refuse n d abExpected s
    else if islandAlone s then refuse n d abState s
    else if lockedOut s x.carrier then refuse n d abLocked s
    else if slice d.payload 4 16 ≠ slice (hmac a.khd (octets "host-proof" ++ a.nd)) 0 16 then authWrong n x d s
    else if 4 ≤ authCount s then refuse n d abFourAuth s
    else
      let y := { x with cls := a.cls, keys := some (a.khd, a.kdh), txSeq := 0, rxMax := 0, rxSeen := [], fails := 0,
                        auth := none }
      let s := logFree 0x0D 0x02 n a.cls (setSess n y s)
      answer n d (leBytes 1 2 ++ leBytes 3 0 ++ slice (hmac a.kdh (octets "dev-proof" ++ a.nh)) 0 16) s

/-! OPEN (R501 to R503, R506). -/

/-- An OPEN answered, and its answer kept for its quarantine. -/
def openAnswer (c : Carrier) (d : Dz) (sess epoch typ : Nat) (payload : List Byte) (s : State) : State :=
  let r : OpenDone := { car := c, tid := d.tid, req := d.payload, ends := s.time.dur + quarTime, sess := sess,
                        epoch := epoch, typ := typ, ans := payload }
  carry c (dzHeader typ sess d.tid epoch 1 payload.length ++ payload)
    { s with dl := { s.dl with opens := s.dl.opens.filter (fun o => decide (s.time.dur < o.ends)) ++ [r] } }

/-- An OPEN refused. -/
def openRefuse (c : Carrier) (d : Dz) (code : Nat) (s : State) : State :=
  openAnswer c d 0 0 0xC (leBytes 4 code) (dzCount 7 s)

/-- A session granted: the lowest free number, and its next epoch. -/
def openGrant (c : Carrier) (d : Dz) (s : State) : State :=
  match ((List.range 8).map (· + 1)).find? (fun n => (sessOf s n).isNone) with
  | none => openRefuse c d abNoSession s
  | some n =>
    let e := tblGet 0 s.dl.epochs n % 255 + 1
    let x : Sess := { carrier := c, epoch := e, heard := s.time.dur }
    let s := setSess n x { s with dl := { s.dl with epochs := tblSet n e s.dl.epochs } }
    let node := match c with | .can _ => nodeNumber s | _ => 0
    let ans := slice d.payload 0 8 ++ leBytes 2 (capacity c - 4) ++ leBytes 1 16 ++ leBytes 1 node ++ slice (serial s) 0 16
    logFree 0x0D 0x01 n e (openAnswer c d n e 0xB ans s)

/-- An OPEN under session 0: repeats and quarantine by source, then the grant. -/
def openReceive (c : Carrier) (d : Dz) (s : State) : State :=
  match s.dl.opens.find? (fun o => o.car == c && o.tid == d.tid && decide (s.time.dur < o.ends)) with
  | some o =>
    if d.retx ∧ o.req = d.payload then
      carry c (dzHeader o.typ o.sess d.tid o.epoch 9 o.ans.length ++ o.ans) (if o.typ = 0xC then dzCount 7 s else s)
    else carry c (dzHeader 0xC 0 d.tid 0 1 4 ++ leBytes 4 abTid) (dzCount 7 s)
  | none => if d.payload.length ≠ 8 then openRefuse c d abLength s else openGrant c d s

/-! The order of checks (R519). -/

/-- A payload's length fits its type (R500). -/
def lengthFits (d : Dz) : Bool :=
  let n := d.payload.length
  match d.typ with
  | 1 => n == 8
  | 2 => n == 0
  | 3 => n == 0
  | 4 => n == 20
  | 5 => n == 4
  | 6 => decide (4 ≤ n)
  | 7 => n == 4
  | 8 => n == 8
  | 9 => decide (4 ≤ n)
  | 0xA => n == 8
  | 0xC => n == 4
  | _ => true

/-- A request that opens a transaction. -/
def isRequest (typ : Nat) : Bool := decide (2 ≤ typ) && decide (typ ≤ 8)

/-- A request would open a segmented transfer (R505). -/
def wantsSegments (d : Dz) : Bool :=
  d.typ == 7 || d.typ == 8 || (d.typ == 4 && leNat (slice d.payload 0 1) == 1 && leNat (slice d.payload 2 1) == 1)

/-- A request carried out (steps 7 and 8). -/
def request (n : Nat) (x : Sess) (d : Dz) (s : State) : State :=
  if 4 ≤ x.txs.length then refuse n d abFourTxn s
  else if wantsSegments d && decide (8 ≤ segTransfers s) then refuse n d abEightSeg s
  else if !lengthFits d then refuse n d abLength s
  else match d.typ with
    | 2 => closeSess n (logFree 0x0D 0x05 n 0 (answer n d [] s))
    | 3 => answer n d [] s
    | 4 =>
      (match leNat (slice d.payload 0 1) with
       | 1 => doAuth1 n x d s
       | 2 => doAuth2 n x d s
       | _ => refuse n d abRange s)
    | 5 => doRead n x d s
    | 6 => doWrite n d s
    | 7 => doUpload n d s
    | _ => doDownload n d s

/-- A request under the tid of an open transaction breaks R506, but for the two that R508 names: a READ under an open DOWNLOAD,
and AUTH in the wrong step; one flagged as a repeat is no new request (DEDUCED, log entry 110). -/
def tidInUse (t : Txn) (d : Dz) : Bool :=
  isRequest d.typ && !d.retx && !(d.typ == 5 && t.kind == 1) && !(d.typ == 4 && t.kind == 2)

/-- A message of an open transaction (R506, R508, R512). -/
def inTxn (n : Nat) (x : Sess) (t : Txn) (d : Dz) (s : State) : State :=
  if tidInUse t d then abortOnly n d.tid abTid s
  else match d.typ, t.kind with
  | 0xC, _ =>
    if lengthFits d then quarantine n t.tid t.req t.lastSeg (0, 0, []) (authDrop n t.tid s) else abortTxn n t abLength s
  | 9, 1 => if lengthFits d then segTake n x t d s else writeAbort n t abLength s
  | 9, 3 =>
    if t.ann = 2 ^ 32 then abortTxn n t abExpected s
    else if !lengthFits d then abortTxn n t abLength s
    else if leNat (slice d.payload 0 4) < t.next then ackSend n t (dzCount 5 s)
    else abortTxn n t abWindow s
  | 0xA, 0 => if lengthFits d then ackUpload n x t d s else abortTxn n t abLength s
  | 0xA, 2 =>
    if t.data.isEmpty then abortTxn n t abExpected s
    else if lengthFits d then ackUpload n x t d s else abortTxn n t abLength s
  | _, _ => abortTxn n t abExpected s

/-- A message under a tid in quarantine (R506, R507). -/
def inQuarantine (n : Nat) (q : Quar) (d : Dz) (s : State) : State :=
  let again := sessSend n q.final.1 (q.final.2.1 + 8) d.tid q.final.2.2 (if q.final.1 = 0xC then dzCount 7 s else s)
  if isRequest d.typ then
    (if d.retx ∧ q.req = reqKey d ∧ q.final.1 ≠ 0 then again else abortOnly n d.tid abTid s)
  else if d.typ = 9 ∧ d.retx ∧ q.seg ≠ [] ∧ q.seg = d.payload ∧ q.final.1 ≠ 0 then again
  else dzCount 5 s

/-- Steps 5 to 8, for a message that its session has accepted. -/
def accepted (n : Nat) (d : Dz) (s : State) : State :=
  match sessOf s n with
  | none => s
  | some x =>
    let s := if d.typ = 0xC then dzCount 8 s else s
    match x.quar.find? (fun q => q.tid == d.tid && decide (s.time.dur < q.ends)) with
    | some q => inQuarantine n q d s
    | none =>
      match txnOf x d.tid with
      | some t => inTxn n x t d s
      | none =>
        if isRequest d.typ then request n x d s
        else if d.typ = 0xC then s
        else abortOnly n d.tid abExpected s

/-- Step 4: a host sequence number that is acceptable (R517). -/
def seqOk (x : Sess) (q : Nat) : Bool :=
  decide (x.rxMax < q) || (decide (q < x.rxMax) && decide (x.rxMax ≤ q + 64) && !x.rxSeen.contains q)

/-- Steps 3 to 8 for a message of an open session. -/
def sessReceive (n : Nat) (x : Sess) (d : Dz) (s : State) : State :=
  let heard := fun (x : Sess) => setSess n { x with heard := s.time.dur } s
  if x.cls = 0 then accepted n d (heard x)
  else match x.keys with
    | none => s
    | some (khd, _) =>
      let q := leNat (slice d.trailer 0 4)
      if !d.mac || d.trailer != trailerOf khd d.hdr d.payload q then dzCount 3 s
      else if !seqOk x q then dzCount 4 s
      else
        let mx := max x.rxMax q
        let y := { x with rxMax := mx, rxSeen := (q :: x.rxSeen).filter (fun k => decide (mx ≤ k + 64)) }
        let s := accepted n d (heard y)
        if q = 2 ^ 32 - 1 then closeSess n s else s

/-- A message to a session that is not open here (R502, R503). -/
def unknownSession (c : Carrier) (d : Dz) (s : State) : State :=
  let late := (tblGet 0 s.dl.epochs d.sess + 256 - d.epoch) % 256
  if 1 ≤ d.sess ∧ d.sess ≤ 8 ∧ 1 ≤ late ∧ late ≤ 127 then dzCount 2 s
  else carry c (dzHeader 0xC d.sess d.tid d.epoch 1 4 ++ leBytes 4 abSession) (dzCount 7 s)

/-- A well-formed message. -/
def dzReceive (c : Carrier) (d : Dz) (s : State) : State :=
  if d.typ = 1 ∧ d.sess = 0 then openReceive c d s
  else match sessOf s d.sess with
    | none => unknownSession c d s
    | some x =>
      if x.carrier ≠ c then unknownSession c d s
      else
        let late := (x.epoch + 256 - d.epoch) % 256
        if late = 0 then sessReceive d.sess x d s
        else if late ≤ 127 then dzCount 2 s
        else sessSendAs d.sess d.epoch 0xC 0 d.tid (leBytes 4 abSession) (dzCount 7 s)

/-- A carrier unit of the type that a command stands for; `want` tells the two steps of AUTH apart. A malformed one is
counted, whatever it claims to be, and a reqlen write that finds reqbusy set with it. One whose accesses must wait comes again
(R24, R265). -/
def dzMessage (want : Dz → Bool) (m : Msg) : State → State := orWaits (withBusLost m.bus (fun s =>
  if !(carrierLive s m.carrier && addressed s m) then s
  else if m.carrier = .pcie ∧ m.busy = true then dzCount 1 s
  else
    let s1 := match m.carrier with | .pcie => memStore (partPcie + 0x1000) (slice m.bytes 0 (min m.len 0x2000)) s | _ => s
    match dzParse m with
    | none => dzCount 1 s1
    | some d => if want d then dzReceive m.carrier d s1 else s))

/-- A message of a type. -/
def ofType (typ : Nat) (d : Dz) : Bool := d.typ == typ

/-- AUTH step 2; any other AUTH counts as step 1. -/
def isAuth (step2 : Bool) (d : Dz) : Bool := d.typ == 4 && (leNat (slice d.payload 0 1) == 2) == step2

/-! Time (R504, R506, R513, R518). -/

def sessionIdle (n : Nat) (s : State) : State :=
  match sessOf s n with
  | some x => if x.heard + 30000 * tDz ≤ s.time.dur then logFree 0x0D 0x04 n 0 (dzCount 10 (closeSess n s)) else s
  | none => s

/-- A device segment that no ACK covers is sent again, or its transfer aborted after three resends. -/
def segResend (n tid k : Nat) (s : State) : State :=
  match sessOf s n with
  | none => s
  | some x =>
    match txnOf x tid with
    | none => s
    | some t =>
      match tblFind t.sent k with
      | none => s
      | some (at_, r) =>
        if t.kind = 1 ∨ t.kind = 3 ∨ s.time.dur < at_ + segTimeout x.carrier then s
        else if r < 3 then segSend n tid k (r + 1) (dzCount 6 s)
        else abortTxn n t abTimeout s

/-- A download that accepts no segment for eight segment timeouts is aborted. -/
def transferTimeout (n tid : Nat) (s : State) : State :=
  match sessOf s n with
  | none => s
  | some x =>
    match txnOf x tid with
    | none => s
    | some t =>
      if t.kind = 1 ∧ t.last + 8 * segTimeout x.carrier ≤ s.time.dur then abortTxn n t abTimeout s else s

/-- A quarantine's end: its final message is dropped; session 0 stands for the OPEN requests. -/
def quarEnd (n tid : Nat) (s : State) : State :=
  let past := fun (t ends : Nat) => t == tid && decide (ends ≤ s.time.dur)
  if n = 0 then { s with dl := { s.dl with opens := s.dl.opens.filter (fun o => !past o.tid o.ends) } }
  else match sessOf s n with
    | none => s
    | some x =>
      let auth := x.auth.filter (fun a => match a.ends with | some e => !past a.tid e | none => true)
      setSess n { x with quar := x.quar.filter (fun q => !past q.tid q.ends), auth := auth } s

def lockoutEnd (c : Carrier) (s : State) : State :=
  { s with dl := { s.dl with locks := s.dl.locks.filter (fun l => !(l.1 == authSource c && decide (l.2 ≤ s.time.dur))) } }

/-- A bus-off closes every session on its controller (R495). -/
def canBusOff (ctl : Bool) (s : State) : State := closeOn (fun c => c == .can ctl) s

/-! Late answers (R515, R561, R566). -/

/-- A write whose answer waited is answered. -/
def lateAnswer (n tid : Nat) (ok : Option Nat) (s : State) : State :=
  match (sessOf s n).bind (fun x => txnOf x tid) with
  | some t =>
    if t.kind ≠ 3 then s
    else match ok with
      | none => writeAnswer2 n tid t s
      | some c => abortTxn n t c s
  | none => s

/-- The attestation report at the head of the security unit's work is signed (R566). -/
def attestationSigned (s : State) : State :=
  match reportSigned s with
  | (s, some (n, tid, ok)) => lateAnswer n tid (if ok then none else some abState) s
  | (s, none) => s

/-- The identity signature at the head of the work is signed, and follows the step-1 RESULT (R515). -/
def identitySigned (s : State) : State :=
  match s.sec.jobs with
  | .ident n tid :: l =>
    let s := { s with sec := { s.sec with jobs := l } }
    (match sessOf s n with
     | none => s
     | some x =>
       match txnOf x tid, x.auth with
       | some t, some a =>
         if t.kind = 2 ∧ a.tid = tid then
           let sig := idSign s (authString s n x.epoch a)
           let s := putTxn n { t with data := sig } s
           segWindow n tid (sessSend n 0xB 16 tid (authResult1 s a.nd sig.length) s)
         else s
       | _, _ => s)
  | _ => s

/-- The programming of an image slot has ended, and its write is answered (R561). -/
def imageDone (ok : Bool) (s : State) : State :=
  match imageWritten ok s with
  | (s, some (n, tid)) => lateAnswer n tid none s
  | (s, none) => s

/-- A CAN FD frame with the node's request ID, on a controller that runs, is a wake source (R543). -/
def canWake (ctl : Bool) (id : Nat) (s : State) : State :=
  if carrierLive s (.can ctl) ∧ id = 0x600 + nodeNumber s then wakeSource 2 s else s

end Sys2Proof.Machine
end

