-- ==== Sys2Proof/Machine/Receive.lean ====
section
/-! DEFINITION. A frame received on an Ethernet lane: the steps of R325 up to the part of the module it is for. -/

namespace Sys2Proof.Machine

/-- The offset of a frame's EtherType behind at most one 802.1Q tag; `none` with two or more (step 4). -/
def etherOff (b : List Byte) (o : Nat) : Option Nat :=
  if etherAt b o ≠ 0x8100 then some o
  else if etherAt b (o + 4) ≠ 0x8100 then some (o + 4)
  else none

/-- A PTP message over UDP, by its port 319 or 320 (PRESUMED, log entry 96: the layouts of IPv4, IPv6 and UDP). -/
def udpPtp (o : Nat) (b : List Byte) : Bool :=
  let p := b.drop (o + 2)
  let port := fun (k : Nat) => etherAt p (k + 2) == 319 || etherAt p (k + 2) == 320
  if etherAt b o = 0x0800 then leNat (slice p 9 1) == 17 && port (leNat (slice p 0 1) % 16 * 4)
  else etherAt b o == 0x86DD && leNat (slice p 6 1) == 17 && port 40

/-- Step 5, for a frame that steps 3 and 4 have let pass: `o` is the offset of its EtherType. -/
def etherDispatch (lane arr o : Nat) (b : List Byte) (s : State) : State :=
  let dmac := macAt b 0
  let rest := b.drop (o + 2)
  match etherAt b o with
  | 0x88BA =>
    (match svReceive lane arr dmac rest (laneCnt lane 5 s) with
     | (some n, s) => alignGrid (subGrid s n) arr s
     | (none, s) => s)
  | 0x88B8 => gooseReceive lane arr dmac rest s
  | 0x88FB => pairCnt (lane / 2) 7 s
  | _ => let s := laneCnt lane 8 s; if udpPtp o b then ptpErr lane s else s

/-- The offset at which a PTP frame's EtherType stands, behind an HSR tag on an HSR lane (R410). -/
def ptpOff (s : State) (lane : Nat) (b : List Byte) : Option Nat :=
  let o := if pairMode s (lane / 2) = 2 ∧ etherAt b 12 = 0x892F then 18 else 12
  match etherOff b o with
  | some k => if etherAt b k = 0x88F7 then some k else none
  | none => none

/-- Steps 3 to 5: pairs, tags and EtherTypes; PTP frames are not subject to duplicate discard (R410), and are counted
without trailer or tag (R366). -/
def frameHandle (f : Frame) (s : State) : State :=
  match ptpOff s f.lane f.bytes with
  | some o =>
    ptpReceive f.lane f.stamp f.bytes (f.bytes.take (o + 2)) (f.bytes.drop (o + 2)) (pairTell f.lane f.bytes s)
  | none =>
    match pairReceive f.lane f.bytes s with
    | (none, s) => s
    | (some b, s) =>
      match etherOff b 12 with
      | none => laneCnt f.lane 8 s
      | some o => etherDispatch f.lane f.stamp o b s

/-- A frame received on a lane that is on (R325, R482): planes whose deadline has come complete first (R352). Within the
limits of R364 the input buffer has room. -/
def frameStep (f : Frame) (s : State) : State :=
  if 16 ≤ f.lane ∨ pstateOf s ≠ 0 ∨ laneMode s f.lane = 0 then s
  else
    let s := (List.range 16).foldl (fun s g => if gridEn s g then planesDue g s else s) s
    let n := f.bytes.length + 4
    if n < 64 ∨ 9216 < n then laneCnt f.lane 3 s
    else if !f.good then laneCnt f.lane 2 s
    else
      let s := laneCnt f.lane 1 s
      if !f.room && !ingressWithin s then laneCnt f.lane 4 s else frameHandle f s

/-- FRAME_RECEIVE, with the bus errors that its ring writes meet (R362). -/
def frameReceive (f : Frame) (s : State) : State := withBusLost f.bus (frameStep f) s

end Sys2Proof.Machine
end

