-- ==== Sys2Proof/Machine/Rows.lean ====
section
/-! DEFINITION. What the rows of a kind have in common: events of the chip and of a core, writes of control words,
commands of a queue manager or of the trip unit, and writes of dictionary objects. A command that its state does not
allow leaves the state as it is. -/

namespace Sys2Proof.Machine

/-- An event of the chip, which happens only while the chip is on (R534). -/
def chipRow (f : State → State) (s : State) : Host.Outcome State Fault Refusal :=
  .next (if pstateOf s = 0 then f s else s)

/-- An event of a core in service (R43, R288). -/
def coreRow (core : Nat) (f : State → State) (s : State) : Host.Outcome State Fault Refusal :=
  chipRow (fun s => if isCore core && coreInService s core then f s else s) s

/-- An action of Monarch, which acts once stage 1 has given it its authority (R424); the activations of the threads whose
slots it changes follow (R435). -/
def monarchRow (f : State → State) (s : State) : Host.Outcome State Fault Refusal :=
  chipRow (orWaits (fun s => if s.mon.auth then watchAll s (f s) else s)) s

/-- What the loss of a link or a cell means for migrations at once; where a write of it must wait, the next epoch sees to it
(R443). -/
def lossSeen (s : State) : State := orWaits migrationsCheck s

/-- An event of a core that may find a fault of the thread it runs (R454). -/
def faultRow (core : Nat) (f : State → State) (s : State) : Host.Outcome State Fault Refusal :=
  coreRow core (fun s => noteFault core s (f s)) s

/-- A request of an initiator; an ID that no unit carries, or a core out of service, sends none (R43, R47). -/
def initRow (init : Nat) (f : State → State) (s : State) : Host.Outcome State Fault Refusal :=
  chipRow (fun s => if initLive s init then f s else s) s

/-- A write to a word, which waits while a link on its path retrains or its gate holds requests (R24, R265). -/
def wordPut (init a : Nat) (f : State → State) (s : State) : State := if reqWaits s init a then s else f s

/-- A word of the control space written by an initiator (R37). -/
def wordRow (init a : Nat) (v : W) (s : State) : Host.Outcome State Fault Refusal :=
  initRow init (wordPut init a (ctlDo false init a v)) s

/-- A word of the control block of a core written by an initiator. -/
def coreWordRow (init core off : Nat) (v : W) (s : State) : Host.Outcome State Fault Refusal :=
  initRow init (wordPut init (ctlBase core + off) (coreCtlWrite init core off v)) s

/-- cctl of a core written by an initiator, the read of a vector-table granule ending as `r` says (R209, R219). -/
def cctlRow (init core : Nat) (v : W) (r : Ret) (s : State) : Host.Outcome State Fault Refusal :=
  initRow init (wordPut init (ctlBase core + 8) (fun s =>
    if core < 256 then
      (ctlWriteBy (fun _ v s => (cctlWrite core v s r, false)) init (ctlBase core + 8) v s).1
    else if isHub core ∧ init = core then cctlWrite core v s r else s)) s

/-- The entry word of a core written by an initiator, the read of its granule ending as `r` says (R209). -/
def entryRow (init core : Nat) (v : W) (r : Ret) (s : State) : Host.Outcome State Fault Refusal :=
  initRow init (wordPut init (ctlBase core + 0x10) (fun s =>
    if v.toNat % 16 = 0 ∧ reqWaits s core v.toNat = true then s
    else if core < 256 then
      (ctlWriteBy (fun _ v s => (entryWrite core v r s, false)) init (ctlBase core + 0x10) v s).1
    else if isHub core ∧ init = core then entryWrite core v r s else s)) s

/-- A word that changes a thread slot's state: the activations of the core's threads follow (R435). The level-7 handler
of the core itself has its spill engine resume (R200). -/
def slotWordRow (init core off : Nat) (v : W) (s : State) : Host.Outcome State Fault Refusal :=
  initRow init (wordPut init (ctlBase core + off) (fun s =>
    let s1 := if init = core then handlerWrite core (cellOf s core).run (ctlBase core + off) s else s
    watch core s none (coreCtlWrite init core off v s1))) s

/-- The gates of the chip (R255, R256). -/
def isGate (g : Nat) : Bool := decide (g ≤ 0x120)

/-- A word of a gate's register block written by an initiator. -/
def gateWordRow (init g off : Nat) (v : W) (s : State) : Host.Outcome State Fault Refusal :=
  if isGate g then wordRow init (gateAddr g + off) v s else .next s

/-- A command given to a queue manager, with what it meets (R319, R321). -/
def queueCommandRow (init r : Nat) (q : QRun) (cop : Nat) (s : State) : Host.Outcome State Fault Refusal :=
  if r < 4 ∧ q.n < 2 ^ 18 then
    initRow init (withQErr q.e (wordPut init (qBlockAt r + 0x10)
      (ctlDo false init (qBlockAt r + 0x10) (qCommandWord q.n cop)))) s
  else .next s

/-- A command given to the trip unit, with the bus errors that its memory accesses meet (R377, R388). -/
def tripCommandRow (bad : Bool) (init : Nat) (idx : BusRun) (cop : Nat) (publication : Bool) (s : State) :
    Host.Outcome State Fault Refusal :=
  initRow init (withBusLost idx.bus (wordPut init (tripBlock + 0x10)
    (ctlDo bad init (tripBlock + 0x10) (tripCommandWord idx.n cop publication)))) s

/-- A block state requested by a write of the regulator word (R530, R531). -/
def blockStateRow (init b bst : Nat) (v : W) (s : State) : Host.Outcome State Fault Refusal :=
  if b < 16 ∧ fld v 5 4 = bst then wordRow init (regAddr b) v s else .next s

/-- eclr of an error record (R293). -/
def eclrRow (init i : Nat) (v : W) (s : State) : Host.Outcome State Fault Refusal :=
  match recOfIndex i with
  | some r => wordRow init (recAddr r + 0x38) v s
  | none => .next s

/-- A dictionary object written by an open session, and what follows the answer. A write that has a unit of the chip meet a
request that must wait comes again later (R24, R265). -/
def sessDo (n idx sub : Nat) (b : List Byte) (s : State) : State :=
  match sessOf s n with
  | none => s
  | some x =>
    if !carrierLive s x.carrier then s
    else orWaits (fun s => match objWrite n 0 idx sub b s with
      | (s, .after k) => afterAnswer k s
      | (s, _) => s) s

def sessRow (n idx sub : Nat) (b : List Byte) (s : State) : Host.Outcome State Fault Refusal :=
  .next (sessDo n idx sub b s)

/-- A debug token, from JTAG or from a session (R571). -/
def tokenRow (n : Option Nat) (b : List Byte) (s : State) : Host.Outcome State Fault Refusal :=
  match n with
  | some n => sessRow n 0x7040 2 b s
  | none => .next (if jtagLive s then (token b s).1 else s)

/-- After a bundle has issued, the activation of a thread that it made yield has completed (R435), and a fault that it met
has its compartment stopped (R454). -/
def afterIssue (core : Nat) (s t : State) : State :=
  match (cellOf t core).yielded with
  | some n => watch core s (some n) (modCell core (fun c => { c with yielded := none }) t)
  | none => noteFault core s t

/-- The issue of the bundle that holds a command's move to port `dst`. -/
def bundleRow (dst : BitVec 10) (m : Iss) (s : State) : Host.Outcome State Fault Refusal :=
  .next (afterIssue m.core s (issueBundle m.core { ret := m.ret, fret := m.fret, vret := m.vret } (issSlots m dst).1 (issSlots m dst).2 s))

end Sys2Proof.Machine
end

