-- ==== Sys2Proof/Machine/ExecArith.lean ====
section
/-! DEFINITION. Commands of the alu, mul, div and shf units, and plain moves (R104, R127 to R137). -/

namespace Sys2Proof.Machine

/-- REGISTER_MOVE (R104): the issue of a bundle with a move to a port that is no trigger. -/
def execRegisterMove (dst : BitVec 10) (m : Iss) (s : State) : Host.Outcome State Fault Refusal := bundleRow dst m s

/-- ALU_T_ADD (R127). -/
def execAluTAdd (unit1 : Bool) (m : Iss) (s : State) : Host.Outcome State Fault Refusal :=
  bundleRow (if unit1 then 0x068 else 0x048) m s

/-- ALU_T_SUB (R127). -/
def execAluTSub (unit1 : Bool) (m : Iss) (s : State) : Host.Outcome State Fault Refusal :=
  bundleRow (if unit1 then 0x069 else 0x049) m s

/-- ALU_T_AND (R127). -/
def execAluTAnd (unit1 : Bool) (m : Iss) (s : State) : Host.Outcome State Fault Refusal :=
  bundleRow (if unit1 then 0x06A else 0x04A) m s

/-- ALU_T_OR (R127). -/
def execAluTOr (unit1 : Bool) (m : Iss) (s : State) : Host.Outcome State Fault Refusal :=
  bundleRow (if unit1 then 0x06B else 0x04B) m s

/-- ALU_T_XOR (R127). -/
def execAluTXor (unit1 : Bool) (m : Iss) (s : State) : Host.Outcome State Fault Refusal :=
  bundleRow (if unit1 then 0x06C else 0x04C) m s

/-- ALU_T_ANDN (R127). -/
def execAluTAndn (unit1 : Bool) (m : Iss) (s : State) : Host.Outcome State Fault Refusal :=
  bundleRow (if unit1 then 0x06D else 0x04D) m s

/-- ALU_T_NEG (R137). -/
def execAluTNeg (unit1 : Bool) (m : Iss) (s : State) : Host.Outcome State Fault Refusal :=
  bundleRow (if unit1 then 0x06E else 0x04E) m s

/-- ALU_T_MIN (R127). -/
def execAluTMin (unit1 : Bool) (m : Iss) (s : State) : Host.Outcome State Fault Refusal :=
  bundleRow (if unit1 then 0x06F else 0x04F) m s

/-- ALU_T_MAX (R127). -/
def execAluTMax (unit1 : Bool) (m : Iss) (s : State) : Host.Outcome State Fault Refusal :=
  bundleRow (if unit1 then 0x070 else 0x050) m s

/-- ALU_T_MINU (R127). -/
def execAluTMinu (unit1 : Bool) (m : Iss) (s : State) : Host.Outcome State Fault Refusal :=
  bundleRow (if unit1 then 0x071 else 0x051) m s

/-- ALU_T_MAXU (R127). -/
def execAluTMaxu (unit1 : Bool) (m : Iss) (s : State) : Host.Outcome State Fault Refusal :=
  bundleRow (if unit1 then 0x072 else 0x052) m s

/-- ALU_T_EQ (R128). -/
def execAluTEq (unit1 : Bool) (m : Iss) (s : State) : Host.Outcome State Fault Refusal :=
  bundleRow (if unit1 then 0x078 else 0x058) m s

/-- ALU_T_NE (R128). -/
def execAluTNe (unit1 : Bool) (m : Iss) (s : State) : Host.Outcome State Fault Refusal :=
  bundleRow (if unit1 then 0x079 else 0x059) m s

/-- ALU_T_LT (R128). -/
def execAluTLt (unit1 : Bool) (m : Iss) (s : State) : Host.Outcome State Fault Refusal :=
  bundleRow (if unit1 then 0x07A else 0x05A) m s

/-- ALU_T_LTU (R128). -/
def execAluTLtu (unit1 : Bool) (m : Iss) (s : State) : Host.Outcome State Fault Refusal :=
  bundleRow (if unit1 then 0x07B else 0x05B) m s

/-- ALU_T_GE (R128). -/
def execAluTGe (unit1 : Bool) (m : Iss) (s : State) : Host.Outcome State Fault Refusal :=
  bundleRow (if unit1 then 0x07C else 0x05C) m s

/-- ALU_T_GEU (R128). -/
def execAluTGeu (unit1 : Bool) (m : Iss) (s : State) : Host.Outcome State Fault Refusal :=
  bundleRow (if unit1 then 0x07D else 0x05D) m s

/-- ALU_T_TST (R128). -/
def execAluTTst (unit1 : Bool) (m : Iss) (s : State) : Host.Outcome State Fault Refusal :=
  bundleRow (if unit1 then 0x07E else 0x05E) m s

/-- ALU_T_TSTZ (R128). -/
def execAluTTstz (unit1 : Bool) (m : Iss) (s : State) : Host.Outcome State Fault Refusal :=
  bundleRow (if unit1 then 0x07F else 0x05F) m s

/-- MUL_T_MUL (R129). -/
def execMulTMul (m : Iss) (s : State) : Host.Outcome State Fault Refusal := bundleRow 0x088 m s

/-- MUL_T_MULH (R129). -/
def execMulTMulh (m : Iss) (s : State) : Host.Outcome State Fault Refusal := bundleRow 0x089 m s

/-- MUL_T_MULHU (R129). -/
def execMulTMulhu (m : Iss) (s : State) : Host.Outcome State Fault Refusal := bundleRow 0x08A m s

/-- MUL_T_MULHSU (R129). -/
def execMulTMulhsu (m : Iss) (s : State) : Host.Outcome State Fault Refusal := bundleRow 0x08B m s

/-- MUL_RESULT (R123). -/
def execMulResult (core : Nat) (s : State) : Host.Outcome State Fault Refusal := coreRow core (latResult .mul core) s

/-- DIV_T_DIVS (R130). -/
def execDivTDivs (m : Iss) (s : State) : Host.Outcome State Fault Refusal := bundleRow 0x098 m s

/-- DIV_T_DIVU (R130). -/
def execDivTDivu (m : Iss) (s : State) : Host.Outcome State Fault Refusal := bundleRow 0x099 m s

/-- DIV_RESULT (R131). -/
def execDivResult (core : Nat) (s : State) : Host.Outcome State Fault Refusal := coreRow core (npResult false core) s

/-- SHF_T_SHL (R135). -/
def execShfTShl (m : Iss) (s : State) : Host.Outcome State Fault Refusal := bundleRow 0x0A8 m s

/-- SHF_T_SHR (R135). -/
def execShfTShr (m : Iss) (s : State) : Host.Outcome State Fault Refusal := bundleRow 0x0A9 m s

/-- SHF_T_SAR (R135). -/
def execShfTSar (m : Iss) (s : State) : Host.Outcome State Fault Refusal := bundleRow 0x0AA m s

/-- SHF_T_ROL (R135). -/
def execShfTRol (m : Iss) (s : State) : Host.Outcome State Fault Refusal := bundleRow 0x0AB m s

/-- SHF_T_ROR (R135). -/
def execShfTRor (m : Iss) (s : State) : Host.Outcome State Fault Refusal := bundleRow 0x0AC m s

/-- SHF_T_EXT (R136). -/
def execShfTExt (m : Iss) (s : State) : Host.Outcome State Fault Refusal := bundleRow 0x0AD m s

/-- SHF_T_EXTS (R136). -/
def execShfTExts (m : Iss) (s : State) : Host.Outcome State Fault Refusal := bundleRow 0x0AE m s

/-- SHF_T_INS (R136). -/
def execShfTIns (m : Iss) (s : State) : Host.Outcome State Fault Refusal := bundleRow 0x0AF m s

/-- SHF_T_CLZ (R135). -/
def execShfTClz (m : Iss) (s : State) : Host.Outcome State Fault Refusal := bundleRow 0x0B0 m s

/-- SHF_T_CTZ (R135). -/
def execShfTCtz (m : Iss) (s : State) : Host.Outcome State Fault Refusal := bundleRow 0x0B1 m s

/-- SHF_T_POPC (R135). -/
def execShfTPopc (m : Iss) (s : State) : Host.Outcome State Fault Refusal := bundleRow 0x0B2 m s

/-- SHF_T_BSWAP (R135). -/
def execShfTBswap (m : Iss) (s : State) : Host.Outcome State Fault Refusal := bundleRow 0x0B3 m s

end Sys2Proof.Machine
end

