-- ==== Sys2Proof/Machine/ExecBranch.lean ====
section
/-! DEFINITION. Commands of the br, mac and ph units (R112 to R113, R153 to R161, R210, R223, R225). -/

namespace Sys2Proof.Machine

/-- BR_T_BR (R153). -/
def execBrTBr (m : Iss) (s : State) : Host.Outcome State Fault Refusal := bundleRow 0x128 m s

/-- BR_T_CALL (R153). -/
def execBrTCall (m : Iss) (s : State) : Host.Outcome State Fault Refusal := bundleRow 0x129 m s

/-- BR_T_JMP (R153). -/
def execBrTJmp (m : Iss) (s : State) : Host.Outcome State Fault Refusal := bundleRow 0x12A m s

/-- BR_T_JC (R154). -/
def execBrTJc (m : Iss) (s : State) : Host.Outcome State Fault Refusal := bundleRow 0x12B m s

/-- BR_T_CALLC (R154). -/
def execBrTCallc (m : Iss) (s : State) : Host.Outcome State Fault Refusal := bundleRow 0x12C m s

/-- BR_T_GATE (R223). -/
def execBrTGate (m : Iss) (s : State) : Host.Outcome State Fault Refusal := bundleRow 0x12D m s

/-- BR_T_GRET (R225). -/
def execBrTGret (m : Iss) (s : State) : Host.Outcome State Fault Refusal := bundleRow 0x12E m s

/-- BR_T_ERET (R210). -/
def execBrTEret (m : Iss) (s : State) : Host.Outcome State Fault Refusal := bundleRow 0x12F m s

/-- BR_T_REP (R112). -/
def execBrTRep (m : Iss) (s : State) : Host.Outcome State Fault Refusal := bundleRow 0x130 m s

/-- BR_T_REPN (R113). -/
def execBrTRepn (m : Iss) (s : State) : Host.Outcome State Fault Refusal := bundleRow 0x131 m s

/-- REPETITION (R185). -/
def execRepetition (core : Nat) (s : State) : Host.Outcome State Fault Refusal :=
  coreRow core (fun s => afterIssue core s (repeatIssue core s)) s

/-- MAC_T_DOT (R155). -/
def execMacTDot (m : Iss) (s : State) : Host.Outcome State Fault Refusal := bundleRow 0x148 m s

/-- MAC_T_DOTN (R155). -/
def execMacTDotn (m : Iss) (s : State) : Host.Outcome State Fault Refusal := bundleRow 0x149 m s

/-- MAC_T_CRE (R155). -/
def execMacTCre (m : Iss) (s : State) : Host.Outcome State Fault Refusal := bundleRow 0x14A m s

/-- MAC_T_CIM (R155). -/
def execMacTCim (m : Iss) (s : State) : Host.Outcome State Fault Refusal := bundleRow 0x14B m s

/-- MAC_T_MUL (R155). -/
def execMacTMul (m : Iss) (s : State) : Host.Outcome State Fault Refusal := bundleRow 0x14C m s

/-- MAC_T_SET (R155). -/
def execMacTSet (m : Iss) (s : State) : Host.Outcome State Fault Refusal := bundleRow 0x14D m s

/-- MAC_T_SAR (R155). -/
def execMacTSar (m : Iss) (s : State) : Host.Outcome State Fault Refusal := bundleRow 0x14E m s

/-- MAC_T_RDS (R156). -/
def execMacTRds (m : Iss) (s : State) : Host.Outcome State Fault Refusal := bundleRow 0x150 m s

/-- MAC_T_RDW (R156). -/
def execMacTRdw (m : Iss) (s : State) : Host.Outcome State Fault Refusal := bundleRow 0x151 m s

/-- MAC_T_RDR (R156). -/
def execMacTRdr (m : Iss) (s : State) : Host.Outcome State Fault Refusal := bundleRow 0x152 m s

/-- MAC_T_RDT (R156). -/
def execMacTRdt (m : Iss) (s : State) : Host.Outcome State Fault Refusal := bundleRow 0x153 m s

/-- MAC_T_STCLR (R156). -/
def execMacTStclr (m : Iss) (s : State) : Host.Outcome State Fault Refusal := bundleRow 0x154 m s

/-- MAC_ACCUMULATE_WRITE (R155). -/
def execMacAccumulateWrite (core : Nat) (s : State) : Host.Outcome State Fault Refusal :=
  coreRow core (latResult .macAcc core) s

/-- MAC_READOUT_WRITE (R156). -/
def execMacReadoutWrite (core : Nat) (s : State) : Host.Outcome State Fault Refusal :=
  coreRow core (latResult .macRd core) s

/-- PH_T_DFT (R159). -/
def execPhTDft (m : Iss) (s : State) : Host.Outcome State Fault Refusal := bundleRow 0x168 m s

/-- PH_T_TRK (R159). -/
def execPhTTrk (m : Iss) (s : State) : Host.Outcome State Fault Refusal := bundleRow 0x169 m s

/-- PH_RESULT (R161). -/
def execPhResult (core : Nat) (s : State) : Host.Outcome State Fault Refusal := coreRow core (npResult true core) s

end Sys2Proof.Machine
end

