-- ==== Sys2Proof/Machine/ExecDevice.lean ====
section
/-! DEFINITION. Dictionary commands of the device (R465 to R492, R552 to R566). -/

namespace Sys2Proof.Machine

/-- COMMIT (R470). -/
def execCommit (sess : Nat) (s : State) : Host.Outcome State Fault Refusal := sessRow sess 0x1010 2 [1] s

/-- AUTORUN_COMMIT (R470). -/
def execAutorunCommit (s : State) : Host.Outcome State Fault Refusal := chipRow autorunCommit s

/-- ENTER_MAINTENANCE (R469). -/
def execEnterMaintenance (sess : Nat) (s : State) : Host.Outcome State Fault Refusal := sessRow sess 0x1010 2 [2] s

/-- LEAVE_MAINTENANCE (R469). -/
def execLeaveMaintenance (sess : Nat) (s : State) : Host.Outcome State Fault Refusal := sessRow sess 0x1010 2 [3] s

/-- RESET_COMMAND (R471). -/
def execResetCommand (sess : Nat) (s : State) : Host.Outcome State Fault Refusal := sessRow sess 0x1010 2 [4] s

/-- FACTORY_RESTORE (R471). -/
def execFactoryRestore (sess : Nat) (s : State) : Host.Outcome State Fault Refusal := sessRow sess 0x1010 2 [5] s

/-- JOURNAL_PERSIST (R473). -/
def execJournalPersist (ok : NorOk) (s : State) : Host.Outcome State Fault Refusal := chipRow (journalPersist ok) s

/-- EV_CLEAR (R492). -/
def execEvClear (sess : Nat) (s : State) : Host.Outcome State Fault Refusal := sessRow sess 0x8000 5 [1] s

/-- FW_ACTIVATE (R563). -/
def execFwActivate (sess : Nat) (s : State) : Host.Outcome State Fault Refusal := sessRow sess 0x7010 3 [1] s

/-- FIELD_SECURE (R552). -/
def execFieldSecure (sess : Nat) (s : State) : Host.Outcome State Fault Refusal := sessRow sess 0x7000 2 [2] s

/-- DECOMMISSION (R552). -/
def execDecommission (sess : Nat) (s : State) : Host.Outcome State Fault Refusal := sessRow sess 0x7000 2 [3] s

/-- SECRET_WRITE (R564). -/
def execSecretWrite (sess : Nat) (mnt : Bool) (v : BitVec 256) (s : State) : Host.Outcome State Fault Refusal :=
  sessRow sess 0x7030 (if mnt then 2 else 1) (leBytes 32 v.toNat) s

/-- ATT_NONCE (R566). -/
def execAttNonce (sess : Nat) (v : BitVec 256) (s : State) : Host.Outcome State Fault Refusal :=
  sessRow sess 0x7020 3 (leBytes 32 v.toNat) s

/-- ATTESTATION_SIGNED (R566). -/
def execAttestationSigned (s : State) : Host.Outcome State Fault Refusal := chipRow attestationSigned s

/-- IDENTITY_SIGNATURE_DONE (R515). -/
def execIdentitySignatureDone (s : State) : Host.Outcome State Fault Refusal := chipRow identitySigned s

/-- FW_IMAGE_WRITTEN (R561). -/
def execFwImageWritten (ok : Bool) (s : State) : Host.Outcome State Fault Refusal := chipRow (imageDone ok) s

end Sys2Proof.Machine
end

