-- ==== Sys2Proof/Machine/ExecFabric.lean ====
section
/-! DEFINITION. Gates, DMA, blocks, links and errors (R37, R260 to R295). -/

namespace Sys2Proof.Machine

/-- GATE_ATTR_WRITE (R264). -/
def execGateAttrWrite (init gate region : Nat) (v : W) (s : State) : Host.Outcome State Fault Refusal :=
  if region < 64 then gateWordRow init gate (0x1010 + 0x100 * region) v s else .next s

/-- GATE_CONFIG_APPLY (R265). -/
def execGateConfigApply (gate : Nat) (s : State) : Host.Outcome State Fault Refusal :=
  chipRow (fun s => if isGate gate then lateFlush (gateApply gate s) else s) s

/-- GATE_CLEAR (R260). -/
def execGateClear (init gate : Nat) (v : W) (s : State) : Host.Outcome State Fault Refusal :=
  gateWordRow init gate 0x48 v s

/-- CONTROL_SPACE_WRITE (R37): a word of the control space written. -/
def execControlSpaceWrite (init addr : Nat) (v : W) (s : State) : Host.Outcome State Fault Refusal :=
  if inControl addr ∧ !anyWidth addr ∧ addr % 8 = 0 then wordRow init addr v s else .next s

/-- DMA_DESCRIPTOR (R274). -/
def execDmaDescriptor (region : Nat) (engine : QRun) (s : State) : Host.Outcome State Fault Refusal :=
  chipRow (dmaTake region engine.n engine.e) s

/-- DMA_COMPLETION (R274). -/
def execDmaCompletion (region engine : Nat) (failAt : Option Nat) (s : State) : Host.Outcome State Fault Refusal :=
  chipRow (fun s => watchAll s (dmaEnds region engine failAt s)) s

/-- WAY_CONFIG_WRITE (R285). -/
def execWayConfigWrite (init block : Nat) (v : W) (s : State) : Host.Outcome State Fault Refusal :=
  if block < 16 then wordRow init (blockBase block + 8) v s else .next s

/-- WAY_CHANGE_COMPLETE (R285). -/
def execWayChangeComplete (block : Nat) (s : State) : Host.Outcome State Fault Refusal :=
  chipRow (fun s => if block < 16 then wayChangeDone block s else s) s

/-- WKICK (R287). -/
def execWkick (init core : Nat) (v : W) (s : State) : Host.Outcome State Fault Refusal :=
  if core < 256 then wordRow init (wdAddr core + 8) v s else .next s

/-- WATCHDOG_HALF_PERIOD (R287). -/
def execWatchdogHalfPeriod (core : Nat) (s : State) : Host.Outcome State Fault Refusal :=
  coreRow core (watchdogHalf core) s

/-- WATCHDOG_EXPIRY (R287). -/
def execWatchdogExpiry (core : Nat) (s : State) : Host.Outcome State Fault Refusal :=
  coreRow core (fun s => watch core s none (watchdogExpiry core s)) s

/-- ARBITRATION_TIMEOUT (R286). -/
def execArbitrationTimeout (block init addr : Nat) (s : State) : Host.Outcome State Fault Refusal :=
  chipRow (fun s => if block < 16 then arbTimeout block init addr s else s) s

/-- PATROL_SCRUB (R289). -/
def execPatrolScrub (region : Nat) (corrected : Option (Nat × Nat)) (passDone : Bool) (s : State) : Host.Outcome State Fault Refusal :=
  chipRow (fun s => if region < 4 then patrolScrub region corrected passDone s else s) s

/-- FLIT_REPLAY (R290). -/
def execFlitReplay (link : Nat) (s : State) : Host.Outcome State Fault Refusal := chipRow (flitReplay link) s

/-- RETRAIN_COMPLETE (R290). -/
def execRetrainComplete (link : Nat) (s : State) : Host.Outcome State Fault Refusal :=
  chipRow (fun s => lateFlush (retrainComplete link s)) s

/-- LINK_FAILED (R290). -/
def execLinkFailed (link : Nat) (s : State) : Host.Outcome State Fault Refusal := 
  chipRow (fun s => lossSeen (lateFlush (linkFailed link s))) s

/-- FATAL_ERROR (R292). -/
def execFatalError (code : Byte) (s : State) : Host.Outcome State Fault Refusal := chipRow (fatalError code.toNat) s

/-- ECLR (R293). -/
def execEclr (init record : Nat) (v : W) (s : State) : Host.Outcome State Fault Refusal := eclrRow init record v s

end Sys2Proof.Machine
end

