-- ==== Sys2Proof/Machine/ExecHw.lean ====
section
/-! DEFINITION. The module around the chip: PCIe, hot swap, cages, lanes and references (R576 to R589). -/

namespace Sys2Proof.Machine

/-- PCIE_INBOUND_REQUEST (R589). -/
def execPcieInboundRequest (offset width : Nat) (write : Bool) (data : List Byte) (s : State) : Host.Outcome State Fault Refusal :=
  .next (pcieInbound offset width write data s)

/-- PERST_N (R589). -/
def execPerstN (high : Bool) (s : State) : Host.Outcome State Fault Refusal := .next (perst high s)

/-- HOT_SWAP_CONNECT (R583). -/
def execHotSwapConnect (s : State) : Host.Outcome State Fault Refusal := .next (hotSwapConnect s)

/-- HOT_SWAP_OVERCURRENT (R583). -/
def execHotSwapOvercurrent (s : State) : Host.Outcome State Fault Refusal := .next (hotSwapOvercurrent s)

/-- HOT_SWAP_RETRY (R583). -/
def execHotSwapRetry (s : State) : Host.Outcome State Fault Refusal := .next (hotSwapRetry s)

/-- HOT_SWAP_DISCONNECT (R583). -/
def execHotSwapDisconnect (s : State) : Host.Outcome State Fault Refusal := .next (hotSwapDisconnect s)

/-- CAGE_OVERCURRENT (R576). -/
def execCageOvercurrent (cage : Nat) (s : State) : Host.Outcome State Fault Refusal := .next (cageOvercurrent cage s)

/-- CAGE_RETRY (R576). -/
def execCageRetry (cage : Nat) (s : State) : Host.Outcome State Fault Refusal := .next (cageRetry cage s)

/-- PLUGGABLE_INSERT (R576). -/
def execPluggableInsert (cage milliwatt : Nat) (s : State) : Host.Outcome State Fault Refusal :=
  .next (pluggableInsert cage milliwatt s)

/-- OCXO_WARM (R586). -/
def execOcxoWarm (s : State) : Host.Outcome State Fault Refusal := .next (ocxoWarm s)

/-- TCXO_HOLD (R586). -/
def execTcxoHold (s : State) : Host.Outcome State Fault Refusal := .next (tcxoHold s)

/-- LANE_LINK_CHANGE (R577). -/
def execLaneLinkChange (lane : Nat) (up : Bool) (s : State) : Host.Outcome State Fault Refusal :=
  .next (laneLink lane up s)

/-- PCIE_LINK_UP (R587). -/
def execPcieLinkUp (s : State) : Host.Outcome State Fault Refusal := .next (pcieUp s)

end Sys2Proof.Machine
end

