-- ==== Sys2Proof/Machine/ExecIngress.lean ====
section
/-! DEFINITION. Sample ingress: frames, planes, subscriptions, grids and pairs (R325 to R355). -/

namespace Sys2Proof.Machine

/-- FRAME_RECEIVE (R325). -/
def execFrameReceive (f : Frame) (s : State) : Host.Outcome State Fault Refusal := .next (frameReceive f s)

/-- PLANE_DEADLINE (R352). -/
def execPlaneDeadline (grid : BusRun) (s : State) : Host.Outcome State Fault Refusal :=
  chipRow (planeDeadline grid.n grid.bus) s

/-- DUPLICATE_ENTRY_FORGET (R329). -/
def execDuplicateEntryForget (pair : Nat) (smac : BitVec 48) (seq : BitVec 16) (s : State) : Host.Outcome State Fault Refusal :=
  chipRow (dupForget pair smac.toNat seq.toNat) s

/-- SUPERVISION_TRANSMIT (R330). -/
def execSupervisionTransmit (pair : Nat) (s : State) : Host.Outcome State Fault Refusal :=
  chipRow (supvTransmit pair) s

/-- STREAM_LOST (R343). -/
def execStreamLost (sub : BusRun) (s : State) : Host.Outcome State Fault Refusal :=
  chipRow (streamLostStep sub.n sub.bus) s

/-- SUBSCRIPTION_COMMIT (R336). -/
def execSubscriptionCommit (init sub : Nat) (v : W) (s : State) : Host.Outcome State Fault Refusal :=
  if sub < 8192 ∧ bit v 48 then wordRow init (subBase sub) v s else .next s

/-- SUBSCRIPTION_DISABLE (R336). -/
def execSubscriptionDisable (init sub : Nat) (v : W) (s : State) : Host.Outcome State Fault Refusal :=
  if sub < 8192 ∧ !bit v 48 then wordRow init (subBase sub) v s else .next s

/-- GRID_COMMIT (R350). -/
def execGridCommit (init grid : Nat) (v : W) (s : State) : Host.Outcome State Fault Refusal :=
  if grid < 16 ∧ bit v 0 then wordRow init (gridBase grid) v s else .next s

/-- GRID_DISABLE (R337). -/
def execGridDisable (init grid : Nat) (v : W) (s : State) : Host.Outcome State Fault Refusal :=
  if grid < 16 ∧ !bit v 0 then wordRow init (gridBase grid) v s else .next s

/-- PAIR_WORD_WRITE (R326). -/
def execPairWordWrite (init : Nat) (v : W) (s : State) : Host.Outcome State Fault Refusal := wordRow init ingBase v s

/-- SIMMODE_WRITE (R339). -/
def execSimmodeWrite (init : Nat) (v : W) (s : State) : Host.Outcome State Fault Refusal :=
  wordRow init (ingBase + 0x10) v s

/-- SUBSCRIPTION_COUNTER_CLEAR (R338). -/
def execSubscriptionCounterClear (init : Nat) (v : W) (s : State) : Host.Outcome State Fault Refusal :=
  wordRow init (ingBase + 0x20) v s

/-- INGRESS_COUNTER_CLEAR (R338). -/
def execIngressCounterClear (init : Nat) (v : W) (s : State) : Host.Outcome State Fault Refusal :=
  wordRow init (ingBase + 0x28) v s

end Sys2Proof.Machine
end

