-- ==== Sys2Proof/Machine/ExecLink.lean ====
section
/-! DEFINITION. The Dunzia link (R494 to R518). -/

namespace Sys2Proof.Machine

/-- OPEN (R502). -/
def execOpenMsg (msg : Msg) (s : State) : Host.Outcome State Fault Refusal := .next (dzMessage (ofType 1) msg s)

/-- CLOSE (R504). -/
def execCloseMsg (msg : Msg) (s : State) : Host.Outcome State Fault Refusal := .next (dzMessage (ofType 2) msg s)

/-- PING (R504). -/
def execPingMsg (msg : Msg) (s : State) : Host.Outcome State Fault Refusal := .next (dzMessage (ofType 3) msg s)

/-- AUTH_STEP_1 (R514). -/
def execAuthStep1 (msg : Msg) (s : State) : Host.Outcome State Fault Refusal := .next (dzMessage (isAuth false) msg s)

/-- AUTH_STEP_2 (R515). -/
def execAuthStep2 (msg : Msg) (s : State) : Host.Outcome State Fault Refusal := .next (dzMessage (isAuth true) msg s)

/-- READ (R509). -/
def execReadMsg (msg : Msg) (s : State) : Host.Outcome State Fault Refusal := .next (dzMessage (ofType 5) msg s)

/-- WRITE (R509). -/
def execWriteMsg (msg : Msg) (s : State) : Host.Outcome State Fault Refusal := .next (dzMessage (ofType 6) msg s)

/-- UPLOAD (R510). -/
def execUploadMsg (msg : Msg) (s : State) : Host.Outcome State Fault Refusal := .next (dzMessage (ofType 7) msg s)

/-- DOWNLOAD (R510). -/
def execDownloadMsg (msg : Msg) (s : State) : Host.Outcome State Fault Refusal := .next (dzMessage (ofType 8) msg s)

/-- SEGMENT (R512). -/
def execSegmentMsg (msg : Msg) (s : State) : Host.Outcome State Fault Refusal := .next (dzMessage (ofType 9) msg s)

/-- ACK (R512). -/
def execAckMsg (msg : Msg) (s : State) : Host.Outcome State Fault Refusal := .next (dzMessage (ofType 0xA) msg s)

/-- ABORT (R508). -/
def execAbortMsg (msg : Msg) (s : State) : Host.Outcome State Fault Refusal := .next (dzMessage (ofType 0xC) msg s)

/-- SESSION_IDLE_TIMEOUT (R504). -/
def execSessionIdleTimeout (sess : Nat) (s : State) : Host.Outcome State Fault Refusal := .next (sessionIdle sess s)

/-- SEGMENT_RESEND_TIMEOUT (R513). -/
def execSegmentResendTimeout (sess : Nat) (tid : BitVec 16) (seg : Nat) (s : State) : Host.Outcome State Fault Refusal :=
  .next (segResend sess tid.toNat seg s)

/-- TRANSFER_TIMEOUT (R513). -/
def execTransferTimeout (sess : Nat) (tid : BitVec 16) (s : State) : Host.Outcome State Fault Refusal :=
  .next (transferTimeout sess tid.toNat s)

/-- QUARANTINE_END (R506). -/
def execQuarantineEnd (sess : Nat) (tid : BitVec 16) (s : State) : Host.Outcome State Fault Refusal :=
  .next (quarEnd sess tid.toNat s)

/-- AUTH_LOCKOUT_END (R518). -/
def execAuthLockoutEnd (car : Carrier) (s : State) : Host.Outcome State Fault Refusal := .next (lockoutEnd car s)

/-- RSPACK (R497). -/
def execRspack (v : W) (s : State) : Host.Outcome State Fault Refusal :=
  .next (if s.hw.pcie ∧ bit v 0 then mailboxAck s else s)

/-- CAN_BUS_OFF (R495). -/
def execCanBusOff (ctl : Bool) (s : State) : Host.Outcome State Fault Refusal := .next (canBusOff ctl s)

/-- PCIE_LINK_DOWN (R497). -/
def execPcieLinkDown (s : State) : Host.Outcome State Fault Refusal := .next (pcieDown s)

end Sys2Proof.Machine
end

