-- ==== Sys2Proof/Machine/ExecMem.lean ====
section
/-! DEFINITION. Commands of the mem and cap units, and the events of loads, stores, blocks and fetches (R140 to R152). -/

namespace Sys2Proof.Machine

/-- MEM_T_LDB (R140). -/
def execMemTLdb (m : Iss) (s : State) : Host.Outcome State Fault Refusal := bundleRow 0x0D0 m s

/-- MEM_T_LDBU (R140). -/
def execMemTLdbu (m : Iss) (s : State) : Host.Outcome State Fault Refusal := bundleRow 0x0D1 m s

/-- MEM_T_LDH (R140). -/
def execMemTLdh (m : Iss) (s : State) : Host.Outcome State Fault Refusal := bundleRow 0x0D2 m s

/-- MEM_T_LDHU (R140). -/
def execMemTLdhu (m : Iss) (s : State) : Host.Outcome State Fault Refusal := bundleRow 0x0D3 m s

/-- MEM_T_LDW (R140). -/
def execMemTLdw (m : Iss) (s : State) : Host.Outcome State Fault Refusal := bundleRow 0x0D4 m s

/-- MEM_T_LDWU (R140). -/
def execMemTLdwu (m : Iss) (s : State) : Host.Outcome State Fault Refusal := bundleRow 0x0D5 m s

/-- MEM_T_LDD (R140). -/
def execMemTLdd (m : Iss) (s : State) : Host.Outcome State Fault Refusal := bundleRow 0x0D6 m s

/-- MEM_T_LDC (R60). -/
def execMemTLdc (m : Iss) (s : State) : Host.Outcome State Fault Refusal := bundleRow 0x0D7 m s

/-- MEM_T_STB (R143). -/
def execMemTStb (m : Iss) (s : State) : Host.Outcome State Fault Refusal := bundleRow 0x0D8 m s

/-- MEM_T_STH (R143). -/
def execMemTSth (m : Iss) (s : State) : Host.Outcome State Fault Refusal := bundleRow 0x0D9 m s

/-- MEM_T_STW (R143). -/
def execMemTStw (m : Iss) (s : State) : Host.Outcome State Fault Refusal := bundleRow 0x0DA m s

/-- MEM_T_STD (R143). -/
def execMemTStd (m : Iss) (s : State) : Host.Outcome State Fault Refusal := bundleRow 0x0DB m s

/-- MEM_T_STC (R59). -/
def execMemTStc (m : Iss) (s : State) : Host.Outcome State Fault Refusal := bundleRow 0x0DC m s

/-- MEM_T_SMM (R147). -/
def execMemTSmm (m : Iss) (s : State) : Host.Outcome State Fault Refusal := bundleRow 0x0DD m s

/-- MEM_T_LMM (R147). -/
def execMemTLmm (m : Iss) (s : State) : Host.Outcome State Fault Refusal := bundleRow 0x0DE m s

/-- MEM_T_PF (R142). -/
def execMemTPf (m : Iss) (s : State) : Host.Outcome State Fault Refusal := bundleRow 0x0DF m s

/-- BLOCK_ELEMENT (R148). -/
def execBlockElement (core : Nat) (r : EventRet) (s : State) : Host.Outcome State Fault Refusal :=
  faultRow core (blockElement core r) s

/-- LOAD_DATA_RETURN (R140). -/
def execLoadDataReturn (core : Nat) (r : EventRet) (s : State) : Host.Outcome State Fault Refusal :=
  faultRow core (loadReturn core r) s

/-- INSTRUCTION_FETCH_FILL (R176). -/
def execInstructionFetchFill (core : Nat) (r : EventRet) (s : State) : Host.Outcome State Fault Refusal :=
  coreRow core (fun s => afterIssue core s (fetchIssue core r s)) s

/-- STORE_PERFORMED (R278): entry `i` of the store buffer; a store may reach the words of a thread slot (R435), and a command
of the trip unit (R388). -/
def execStorePerformed (core i : Nat) (r : BusRet) (s : State) : Host.Outcome State Fault Refusal :=
  coreRow core (withBusLost r.bus (withQErr r.q (fun s => watchAll s (storePerformed core i r.ret s)))) s

/-- CAP_T_SETADDR (R67). -/
def execCapTSetaddr (m : Iss) (s : State) : Host.Outcome State Fault Refusal := bundleRow 0x108 m s

/-- CAP_T_INCADDR (R67). -/
def execCapTIncaddr (m : Iss) (s : State) : Host.Outcome State Fault Refusal := bundleRow 0x109 m s

/-- CAP_T_BND (R56). -/
def execCapTBnd (m : Iss) (s : State) : Host.Outcome State Fault Refusal := bundleRow 0x10A m s

/-- CAP_T_BNDE (R56). -/
def execCapTBnde (m : Iss) (s : State) : Host.Outcome State Fault Refusal := bundleRow 0x10B m s

/-- CAP_T_ANDPERM (R67). -/
def execCapTAndperm (m : Iss) (s : State) : Host.Outcome State Fault Refusal := bundleRow 0x10C m s

/-- CAP_T_SEAL (R63). -/
def execCapTSeal (m : Iss) (s : State) : Host.Outcome State Fault Refusal := bundleRow 0x10D m s

/-- CAP_T_UNSEAL (R64). -/
def execCapTUnseal (m : Iss) (s : State) : Host.Outcome State Fault Refusal := bundleRow 0x10E m s

/-- CAP_T_LAND (R65). -/
def execCapTLand (m : Iss) (s : State) : Host.Outcome State Fault Refusal := bundleRow 0x10F m s

/-- CAP_T_GRAIN (R57). -/
def execCapTGrain (m : Iss) (s : State) : Host.Outcome State Fault Refusal := bundleRow 0x110 m s

/-- CAP_T_COVER (R57). -/
def execCapTCover (m : Iss) (s : State) : Host.Outcome State Fault Refusal := bundleRow 0x111 m s

/-- CAP_T_GETBASE (R53). -/
def execCapTGetbase (m : Iss) (s : State) : Host.Outcome State Fault Refusal := bundleRow 0x112 m s

/-- CAP_T_GETLEN (R53). -/
def execCapTGetlen (m : Iss) (s : State) : Host.Outcome State Fault Refusal := bundleRow 0x113 m s

/-- CAP_T_GETMETA (R67). -/
def execCapTGetmeta (m : Iss) (s : State) : Host.Outcome State Fault Refusal := bundleRow 0x114 m s

/-- CAP_T_SUBSET (R67). -/
def execCapTSubset (m : Iss) (s : State) : Host.Outcome State Fault Refusal := bundleRow 0x115 m s

/-- CAP_T_CHK (R70). -/
def execCapTChk (m : Iss) (s : State) : Host.Outcome State Fault Refusal := bundleRow 0x116 m s

/-- CAP_RESULT (R152). -/
def execCapResult (core : Nat) (s : State) : Host.Outcome State Fault Refusal := coreRow core (latResult .cap core) s

end Sys2Proof.Machine
end

