-- ==== Sys2Proof/Machine/Epoch.lean ====
section
/-! DEFINITION. The end of an epoch (R436 to R439, R443 to R446, R450 to R454): its decisions in their order. What the rules
determine, levels, block states, mirror copies and the handling of a removal, follows from the state; what they leave to
Monarch's choice comes with the command and is checked. -/

namespace Sys2Proof.Machine

/-- The order of the decisions of an epoch. -/
def actRank : MonarchAct → Nat
  | .restart .. => 1
  | .replace .. => 1
  | .leave .. => 1
  | .handOver .. => 1
  | .abandon .. => 1
  | .restartCell .. => 1
  | .act .. => 3
  | .migrate .. => 4
  | .ring .. => 4
  | .propose .. => 4
  | .level .. => 5
  | .blockState .. => 6

/-- The criticality of the compartment that a forced decision concerns (R453); what concerns none comes first. -/
def actCrit (s : State) (a : MonarchAct) : Nat :=
  let of := fun (cid : Nat) => match compOf s cid with | some c => mCrit c.man | none => 0
  match a with
  | .restart cid _ => of cid
  | .replace cid _ => of cid
  | .leave cid => of cid
  | .handOver cid => of cid
  | _ => 8

/-- Forced decisions in descending order of criticality. -/
def byCrit (s : State) (l : List MonarchAct) : List MonarchAct :=
  (List.range 9).reverse.flatMap (fun k => l.filter (fun a => actCrit s a == k))

/-! Levels and block states (R437 to R439). -/

/-- Every cell of a block passes admission at a level with the budgets (R430, R444). -/
def levelAdmits (s : State) (b k : Nat) : Bool :=
  (List.range 16).all (fun c => admits s.mon.par.ucap (levelMhz k) (cellLoads s (16 * b + c) 1024))

/-- The level at which a block is to run: raised to the lowest that qualifies, one level at a time after a thermal
lowering, or lowered to the lowest that has qualified for 10 consecutive epochs. -/
def levelTarget (s : State) (b : Nat) : Nat :=
  let now := lvlOf s b
  if !levelQualifies s s.mon.comps b now then
    (if (monBlk s b).low then now - 1 else min now (lowestLevel s s.mon.comps b))
  else (([3, 2, 1] : List Nat).find? (fun k => decide (now < k) && decide (10 ≤ (monBlk s b).qual.getD k 0))).getD now

/-- A block set to its level, once in an epoch, where the thermal limits and the mode allow it: a raise needed for admission always, any other
raise in advisory mode once confirmed, a lowering as the mode has it (R437, R438, R444). -/
def levelAct (b k : Nat) (s : State) : State :=
  let now := lvlOf s b
  let ok := decide (b < 16) && k == levelTarget s b && k != now && instLive s (b / 4)
    && (monBlk s b).at_ != s.mon.epoch + 1
    && (if k < now then !blockHot s b && (!(monBlk s b).low || decide (10 ≤ (monBlk s b).cool))
          && (!levelAdmits s b now || s.mon.par.mode != 1 || allowed s 2 b k)
        else allowed s 2 b k)
  if ok then
    let s := proposalUsed 2 b (blockRequest b (fun w => setFld w 1 0 k) s)
    let s := setMonBlk b { monBlk s b with at_ := s.mon.epoch + 1 } s
    if k < now ∧ levelQualifies s s.mon.comps b k then setMonBlk b { monBlk s b with low := false } s else s
  else s

/-- A block state that Monarch sets (R439): idle or below only without threads, nap after 10 epochs when contents
are kept, off after 100, and never beyond the spare blocks. Cells are connected only in full mode (R531). -/
def stateAct (b bst cen : Nat) (s : State) : State :=
  let x := monBlk s b
  let spare := decide (s.mon.par.sparebl < spares s (b / 4)) || decide (2 ≤ astOf s b)
  let ok : Bool := match bst with
    | 0 => bit (reg s (regStat b)) 6 || cen == 0
    | 1 => blockThreads s b == 0
    | 2 => blockThreads s b == 0 && decide (10 ≤ x.idle) && blockKeeps s b && spare && allowed s 3 b bst
    | _ => blockThreads s b == 0 && decide (100 ≤ x.idle) && !blockKeeps s b && spare && allowed s 3 b bst
  if b < 16 ∧ bst < 4 ∧ ok then
    proposalUsed 3 b (blockRequest b (fun w => setFld (setFld w 31 16 cen) 5 4 bst) s)
  else s

/-- The cells of an empty block are stopped, which idle asks (R531). -/
def parkCells (s : State) (b : Nat) : State :=
  (List.range 16).foldl (fun s i =>
    let n := 16 * b + i
    let c := cellOf s n
    if c.powered && !c.stopped && instLive s (n / 64) then
      instPoke (n / 64) (ctlBase n + 8) (wd (b2n c.vtm * 2))
        { s with mon := { s.mon with parked := n :: s.mon.parked.filter (fun x => x != n) } }
    else s) s

/-- A block without threads: idle at once, its cells first stopped; after 10 epochs nap when it keeps contents, after 100
off. -/
def emptyStep (s : State) (b : Nat) : State :=
  if blockThreads s b ≠ 0 ∨ s.offline.contains b then s
  else match bstOf s b with
    | 0 => if runningCell s b then parkCells s b else blockRequest b (fun w => setFld w 5 4 1) s
    | 1 => if blockKeeps s b then stateAct b 2 0 s else stateAct b 3 0 s
    | _ => s

/-! Moves (R431, R440, R443). -/

/-- The cell that a proposal names for a migration. -/
def moveCell (p : Placement) : Nat := match p.seats.head? with | some x => x.cell | none => 0

/-- A soft action stands to be made: a migration whose gain has lasted 8 epochs, a block's level, or nap or off of a block
without threads (R431, R438, R439). -/
def mayPropose (s : State) (kind target arg : Nat) (place : Option Placement) : Bool :=
  match kind, place with
  | 1, some p =>
    (match compOf s target with
     | some c => c.state == 1 && arg == moveCell p && (match c.gain with
         | some (q, n, e) => q == p && decide (8 ≤ n) && e == s.mon.epoch
         | none => false)
     | none => false)
  | 2, none => decide (target < 16) && arg == levelTarget s target && arg != lvlOf s target
  | 3, none => decide (target < 16) && (arg == 2 || arg == 3) && blockThreads s target == 0
      && decide ((if arg = 2 then 10 else 100) ≤ (monBlk s target).idle)
  | _, _ => false

/-- A proposal posted in advisory mode, one at a time (R445). -/
def proposeAct (kind target arg : Nat) (gain : BitVec 32) (place : Option Placement) (s : State) : State :=
  if s.mon.par.mode = 1 ∧ s.mon.prop.isNone ∧ mayPropose s kind target arg place then
    let n := (s.mon.propSeq + 1) % 2 ^ 32
    let p : Proposal :=
      { seq := n, kind := kind, target := target, arg := arg, gain := gain, posted := s.time.dur, ok := false, place := place }
    { s with mon := { s.mon with propSeq := n, prop := some p } }
  else s

/-- A migration may start now: in its window, within migmax, the ASID, virtual addresses and tags staying as they are (R440,
R441), and out of no region whose instance is lost (R425). -/
def mayMigrate (s : State) (c : Comp) (cid : Nat) (p : Placement) : Bool :=
  c.state == 1 && c.move.isNone && s.twin.rm == 0 && decide (migrating s < s.mon.par.migmax)
    && allowed s 1 cid (moveCell p) (some p) && c.thr.all (fun t => instLive s (t.seat.cell / 64)) && sameView c p
    && windowOpen s c && freezeOpen s c.man cid p && placeOk s c.man false p

/-- A migration towards the soft goals (R431): once its gain has lasted 8 epochs. -/
def migrateAct (cid : Nat) (p : Placement) (s : State) : State :=
  match compOf s cid with
  | none => s
  | some c =>
    let n := gainEpochs s c cid p
    let c := { c with gain := if n = 0 then none else some (p, n, s.mon.epoch) }
    let s := setComp cid c s
    if 8 ≤ n ∧ mayMigrate s c cid p then proposalUsed 1 cid (migrationStart cid c p s) else s

/-- A confirmed proposal: a migration starts in the next window, a level or a block state follows with the decisions of the
epoch. One that can no longer be carried out is dropped (R445; DESIGN CHOICE, log entry 109). -/
def proposalStep (s : State) : State :=
  let drop := { s with mon := { s.mon with prop := none } }
  match s.mon.prop with
  | some x =>
    if !x.ok then s
    else match x.kind, x.place, compOf s x.target with
      | 1, some p, some c =>
        if mayMigrate s c x.target p then proposalUsed 1 x.target (migrationStart x.target c p s)
        else if c.state = 1 ∧ sameView c p ∧ placeOk s c.man false p then s else drop
      | 2, _, _ => if x.arg = levelTarget s x.target ∧ x.arg ≠ lvlOf s x.target then s else drop
      | 3, _, _ => if blockThreads s x.target = 0 then s else drop
      | _, _, _ => drop
  | none => s

/-- The ring and header array of a grid moved (R350, R443): the words rewritten, the new place guarded, the contents copied by
the hub core, which alone the regions of both rings admit (R433), and mapped anew into every
address space that holds a grant of the grid. The new place is taken only when all of this can be done. -/
def ringAct (g rbase hbase : Nat) (writes : List (Nat × Nat × W)) (s : State) : State :=
  if 16 ≤ g ∨ !gridEn s g ∨ !instLive s (coordinator s) then s
  else
    let t := ringGates g
      (instPoke (coordinator s) (gridBase g + 0x10) (wd hbase) (instPoke (coordinator s) (gridBase g + 8) (wd rbase) s))
    let z := hubCopy (gridF s g 0x08 47 9 * 512) rbase (512 * gridNch s g) t
    let y := hubCopy (gridF s g 0x10 47 12 * 4096) hbase 4096 z.2
    let t := tableWrites writes y.2
    let users := t.mon.comps.filter (fun e => (List.range (mNgr e.2.man)).any (fun k =>
      gKind e.2.man k == 4 && gRef e.2.man k / 65536 == g))
    if z.1 && y.1 && gridF t g 0x08 47 9 * 512 == rbase && gridF t g 0x10 47 12 * 4096 == hbase
        && users.all (fun e => ringsMapped t e.2.man e.2.asid e.2.rings) then
      users.foldl (fun t e => dropAsid e.2.asid t) t
    else s

/-! Lost compartments (R453). -/

/-- A compartment that has lost its place, or is to be restarted, has no place here. -/
def placeless (s : State) (c : Comp) : Bool :=
  migrating s == 0 && (c.state == 3 || compLost s c) && !hasPlace s c.man

/-- Such a compartment is left stopped for good: it can neither be placed nor taken over (R430, R453, 4). -/
def leaveAct (cid : Nat) (s : State) : State :=
  match compOf s cid with
  | some c =>
    if placeless s c ∧ !c.halt ∧ !(mTwin c.man != 0 && s.twin.state == 1) then
      monEvent 0x0E cid cid (stopComp cid (setComp cid { c with halt := true } s))
    else s
  | none => s

/-- A lost compartment handed to the partner: a hot one that ran here first of all, any other mirrored one when it cannot be
placed here (R453, 1 and 3). Its own copy is stopped. -/
def handAct (cid : Nat) (s : State) : State :=
  match compOf s cid with
  | some c =>
    if migrating s = 0 ∧ (partnerTakes s c || placeless s c) ∧ mTwin c.man ≠ 0 ∧ s.twin.state = 1 then
      goStandby cid (handOver cid s)
    else s
  | none => s

/-- The instance of a region may write an address (R423): its own region's, the coordinator also what belongs to none; but no
gate region of a ring in use (R433), and no regulator, whose levels and states have their own decisions (R437 to R439). -/
def actPlace (s : State) (r a : Nat) : Bool :=
  (match placeRegion s a with | some q => q == r | none => coordinator s == r)
    && (match gateAt a with
        | some g => let o := a - gateBlock g
          !(decide (0x1000 ≤ o) && ringSpan s g ((o - 0x1000) / 0x100))
        | none => !(List.range 16).any (fun b => a == regAddr b))

/-- One decision of an epoch carried out. -/
def actDo (a : MonarchAct) (s : State) : State :=
  match a with
  | .restart cid p => compRestart cid p s
  | .replace cid p => compReplace cid p s
  | .leave cid => leaveAct cid s
  | .handOver cid => handAct cid s
  | .abandon cid => migrationAbandon cid s
  | .restartCell n => cellUnpark n s
  | .act r a v => if actPlace s r a then instPoke r a v s else s
  | .migrate cid p => migrateAct cid p s
  | .ring g rb hb w => ringAct g rb hb w s
  | .propose k t g x p => proposeAct k t g x p s
  | .level b k => levelAct b k s
  | .blockState b x c => stateAct b x c s

/-! Mirror copies (R446). -/

/-- The hot compartments to be copied at the end of this epoch, from the one whose turn it is. -/
def mirrorsDue (s : State) : List (Nat × Comp) :=
  let l := s.mon.comps.filter (fun e => mTwin e.2.man == 2 && e.2.state == 1 && allBlocked s e.2)
  l.filter (fun e => decide (s.mon.turn ≤ e.1)) ++ l.filter (fun e => decide (e.1 < s.mon.turn))

/-- Copies sent in turn while the 8 MiB of an epoch last; the first that does not fit has the next turn. -/
def mirrorRun : Nat → List (Nat × Comp) → State → State
  | _, [], s => s
  | left, (cid, c) :: l, s =>
    if mirBytes c.man ≤ left then mirrorRun (left - mirBytes c.man) l (mirrorSend cid s)
    else { s with mon := { s.mon with turn := cid } }

/-- The mirror copies of an epoch's end. -/
def mirrorStep (s : State) : State := if s.twin.state = 1 then mirrorRun (8 * 2 ^ 20) (mirrorsDue s) s else s

/-! The epoch. -/

/-- The measures of the epoch that ends, and the next one's begun (R434, R435). -/
def measureStep (s : State) : State :=
  { s with mon := { s.mon with comps := s.mon.comps.map (fun (e : Nat × Comp) =>
      (e.1, { e.2 with last := e.2.slack.getD e.2.last, slack := none,
                       thr := e.2.thr.map (fun t =>
                         let n := (slotOf (cellOf s t.seat.cell) t.seat.slot).nobank
                         { t with ran := false, waits := n - t.nob, nob := n }) })) } }

/-- The forced decisions of an epoch (R436, step 1): migrations abandoned, lost compartments, waits on queues of a fenced region
and stopped cells. -/
def forcedStep (acts : List MonarchAct) (s : State) : State :=
  let s := lostStep (migrationsCheck s)
  let s := (byCrit s (acts.filter (fun a => actRank a == 1))).foldl (fun s a => actDo a s) s
  (List.range 256).foldl cellRestart (queueLostStep s)

/-- Every compartment that is to be decided on has been, unless a migration in progress has it wait (R443, R451 to R454). -/
def decided (s : State) : Bool := migrating s != 0 || s.mon.comps.all (fun e => !mustDecide s e.2)

/-- The decisions of an epoch after the forced ones. -/
def softStep (acts : List MonarchAct) (s : State) : State :=
  let run := fun (r : Nat) (s : State) => (acts.filter (fun a => actRank a == r)).foldl (fun s a => actDo a s) s
  let s := (List.range 16).foldl thermalStep s
  let s := { s with mon := { s.mon with taken := s.mon.wait.map (fun w => w.1) } }
  let s := run 5 (run 4 (proposalStep (run 3 s)))
  let s := run 6 ((List.range 16).foldl (fun s b => levelAct b (levelTarget s b) s) s)
  measureStep (noteCells ((List.range 16).foldl idleStep ((List.range 16).foldl emptyStep s)))

/-- The end of an epoch of 1 ms (R436), when the coordinator acts: mirror copies; forced re-placements and the removal; thermal
limits; waiting manifests taken up; moves; levels; block states; and the measures. A command that leaves a forced decision
out is no epoch's end, and changes nothing. -/
def epochEnd (acts : List MonarchAct) (s : State) : State :=
  if s.time.dur < s.mon.start + (s.mon.epoch + 1) * tMs ∨ !instLive s (coordinator s)
      ∨ !decided (forcedStep acts (mirrorStep s)) then s
  else
    let s := softStep acts (removalStep (forcedStep acts (mirrorStep s)))
    { s with mon := { s.mon with epoch := s.mon.epoch + 1, par := monParams s } }

end Sys2Proof.Machine
end

