-- ==== Sys2Proof/Machine/ExecMonarch.lean ====
section
/-! DEFINITION. Placement, migration, proposals, the twin and removal (R425 to R450, R578). -/

namespace Sys2Proof.Machine

/-- MANIFEST_LOAD (R426). -/
def execManifestLoad (sess : Nat) (bytes : List Byte) (s : State) : Host.Outcome State Fault Refusal :=
  sessRow sess 0x6010 1 bytes s

/-- MANIFEST_PLACED (R429). -/
def execManifestPlaced (cid : Nat) (choice : Placement) (s : State) : Host.Outcome State Fault Refusal :=
  monarchRow (fun s => persist 10 (pairPlaced cid s (manifestPlaced cid choice s))) s

/-- M_UNLOAD (R429). -/
def execMUnload (sess cid : Nat) (s : State) : Host.Outcome State Fault Refusal :=
  sessRow sess 0x6010 2 (leBytes 2 cid) s

/-- EPOCH_END (R436). -/
def execEpochEnd (acts : List MonarchAct) (s : State) : Host.Outcome State Fault Refusal := monarchRow (epochEnd acts) s

/-- MIGRATION_INSTALL (R440). -/
def execMigrationInstall (cid : Nat) (s : State) : Host.Outcome State Fault Refusal :=
  monarchRow (migrationInstall cid) s

/-- BLOCK_TEMPERATURE_SAMPLE (R434). -/
def execBlockTemperatureSample (block : Nat) (t0 t1 t2 t3 : BitVec 16) (s : State) : Host.Outcome State Fault Refusal :=
  .next (sensorsRead block [t0, t1, t2, t3] s)

/-- ACTIVATION_RELEASE (R435). -/
def execActivationRelease (cid thread : Nat) (s : State) : Host.Outcome State Fault Refusal :=
  chipRow (activationRelease cid thread) s

/-- HUB_CORE_LOST (R425). -/
def execHubCoreLost (region : Nat) (s : State) : Host.Outcome State Fault Refusal := chipRow (hubCoreLost region) s

/-- PROPOSAL_CONFIRM (R445). -/
def execProposalConfirm (sess : Nat) (num : W32) (s : State) : Host.Outcome State Fault Refusal :=
  sessRow sess 0x6020 3 (leBytes 4 num.toNat) s

/-- PROPOSAL_LAPSE (R445). -/
def execProposalLapse (s : State) : Host.Outcome State Fault Refusal := chipRow proposalLapse s

/-- TWIN_HEARTBEAT_SEND (R448). -/
def execTwinHeartbeatSend (s : State) : Host.Outcome State Fault Refusal := chipRow heartbeatSend s

/-- TWIN_PAIR_FORM (R447). -/
def execTwinPairForm (p : Partner) (s : State) : Host.Outcome State Fault Refusal := chipRow (orWaits (pairForm p)) s

/-- TWIN_PAIR_TIMEOUT (R447). -/
def execTwinPairTimeout (s : State) : Host.Outcome State Fault Refusal := chipRow (orWaits pairTimeout) s

/-- TWIN_HEARTBEAT_LOSS (R448). -/
def execTwinHeartbeatLoss (s : State) : Host.Outcome State Fault Refusal := chipRow (orWaits heartbeatLoss) s

/-- TWIN_LINK_RESTORED (R449). -/
def execTwinLinkRestored (stopped : List Nat) (s : State) : Host.Outcome State Fault Refusal :=
  chipRow (orWaits (linkRestored stopped)) s

/-- MIRROR_APPLY (R446). -/
def execMirrorApply (cid : Nat) (copy : MirrorCopy) (s : State) : Host.Outcome State Fault Refusal :=
  chipRow (orWaits (mirrorApply cid copy.stage copy.objs)) s

/-- REMOVE_REQ (R450). -/
def execRemoveReq (s : State) : Host.Outcome State Fault Refusal := .next (removeReq s)

/-- REMOVE_CANCEL (R578). -/
def execRemoveCancel (s : State) : Host.Outcome State Fault Refusal := .next (removeCancel s)

/-- RM_CONSENT (R450). -/
def execRmConsent (sess : Nat) (v : Byte) (s : State) : Host.Outcome State Fault Refusal :=
  sessRow sess 0x6040 2 [v] s

/-- TWIN_HEARTBEAT_RECEIVE (R448). -/
def execTwinHeartbeatReceive (lane : Nat) (s : State) : Host.Outcome State Fault Refusal :=
  chipRow (heartbeatReceive lane) s

/-- TWIN_TAKEOVER_REQUEST (R450). -/
def execTwinTakeoverRequest (cids : List Nat) (s : State) : Host.Outcome State Fault Refusal :=
  chipRow (orWaits (takeoverRequest cids)) s

/-- TWIN_TAKEOVER_ACK (R450). -/
def execTwinTakeoverAck (cid : Nat) (s : State) : Host.Outcome State Fault Refusal := chipRow (orWaits (takeoverAck cid)) s

end Sys2Proof.Machine
end

