-- ==== Sys2Proof/Machine/ExecPower.lean ====
section
/-! DEFINITION. Regulators, standby, hibernate, wakes and supplies (R523 to R545, R582 to R584). -/

namespace Sys2Proof.Machine

/-- LEVEL_CHANGE_REQUEST (R524). -/
def execLevelChangeRequest (init block : Nat) (v : W) (s : State) : Host.Outcome State Fault Refusal :=
  if block < 16 then wordRow init (regAddr block) v s else .next s

/-- DIVIDER_SWITCH (R32). -/
def execDividerSwitch (block : Nat) (s : State) : Host.Outcome State Fault Refusal := .next (dividerSwitch block s)

/-- REGULATOR_SLEW_DONE (R524). -/
def execRegulatorSlewDone (block : Nat) (s : State) : Host.Outcome State Fault Refusal := .next (slewDone block s)

/-- VIN_CORE_CHANGE_DONE (R529). -/
def execVinCoreChangeDone (meas : BitVec 16) (s : State) : Host.Outcome State Fault Refusal :=
  .next (vinDone meas.toNat s)

/-- VIN_CORE_CHANGE_TIMEOUT (R529). -/
def execVinCoreChangeTimeout (meas : BitVec 16) (s : State) : Host.Outcome State Fault Refusal :=
  .next (vinTimeout meas.toNat s)

/-- VIN_CORE_RETRY (R529). -/
def execVinCoreRetry (s : State) : Host.Outcome State Fault Refusal := .next (vinRetry s)

/-- BLOCK_RUN (R530). -/
def execBlockRun (init block : Nat) (v : W) (s : State) : Host.Outcome State Fault Refusal :=
  blockStateRow init block 0 v s

/-- BLOCK_IDLE (R530). -/
def execBlockIdle (init block : Nat) (v : W) (s : State) : Host.Outcome State Fault Refusal :=
  blockStateRow init block 1 v s

/-- BLOCK_NAP (R531). -/
def execBlockNap (init block : Nat) (v : W) (s : State) : Host.Outcome State Fault Refusal :=
  blockStateRow init block 2 v s

/-- BLOCK_OFF (R531). -/
def execBlockOff (init block : Nat) (v : W) (s : State) : Host.Outcome State Fault Refusal :=
  blockStateRow init block 3 v s

/-- FULL_MODE_READY (R531). -/
def execFullModeReady (block : Nat) (s : State) : Host.Outcome State Fault Refusal := .next (fullReady block s)

/-- NAP_ENTRY_COMPLETE (R531). -/
def execNapEntryComplete (block : Nat) (s : State) : Host.Outcome State Fault Refusal := .next (napEntered block s)

/-- CEN_WRITE (R531). -/
def execCenWrite (init block : Nat) (v : W) (s : State) : Host.Outcome State Fault Refusal :=
  if block < 16 then wordRow init (regAddr block) v s else .next s

/-- RCLR (R527). -/
def execRclr (init block : Nat) (v : W) (s : State) : Host.Outcome State Fault Refusal :=
  if block < 16 then wordRow init (blockBase block + 0x1028) v s else .next s

/-- THERMAL_FORCE (R526). -/
def execThermalForce (block : Nat) (t0 t1 t2 t3 : BitVec 16) (s : State) : Host.Outcome State Fault Refusal :=
  .next (thermalForce block [t0, t1, t2, t3] s)

/-- THERMAL_FORCE_RELEASE (R526). -/
def execThermalForceRelease (block : Nat) (s : State) : Host.Outcome State Fault Refusal :=
  .next (thermalRelease block s)

/-- NAP_MONITOR (R532). -/
def execNapMonitor (block : Nat) (imon : BitVec 16) (s : State) : Host.Outcome State Fault Refusal :=
  .next (napMonitor block imon.toNat s)

/-- BLOCK_BROWN_OUT (R532). -/
def execBlockBrownOut (block : Nat) (imon vout : BitVec 16) (s : State) : Host.Outcome State Fault Refusal :=
  .next (brownOut block imon.toNat vout.toNat s)

/-- STANDBY (R535). -/
def execStandby (sess : Nat) (s : State) : Host.Outcome State Fault Refusal := sessRow sess 0x2020 2 [1] s

/-- HIBERNATE (R538). -/
def execHibernate (sess : Nat) (s : State) : Host.Outcome State Fault Refusal := sessRow sess 0x2020 2 [2] s

/-- WAKE (R541). -/
def execWake (sess : Nat) (s : State) : Host.Outcome State Fault Refusal := sessRow sess 0x2020 2 [3] s

/-- WAKE_TIMER (R543). -/
def execWakeTimer (s : State) : Host.Outcome State Fault Refusal := .next (wakeTimer s)

/-- CAN_WAKE (R543). -/
def execCanWake (ctl : Bool) (canId : Nat) (s : State) : Host.Outcome State Fault Refusal :=
  .next (canWake ctl canId s)

/-- WAKE_STEP_DONE (R541). -/
def execWakeStepDone (e : BootEnv) (s : State) : Host.Outcome State Fault Refusal := .next (orWaits (stepDone e) s)

/-- WAKE_STEP_TIMEOUT (R542). -/
def execWakeStepTimeout (s : State) : Host.Outcome State Fault Refusal := .next (stepTimeout s)

/-- WAKE_RETRY (R542). -/
def execWakeRetry (s : State) : Host.Outcome State Fault Refusal := .next (wakeRetry s)

/-- THERMAL_STANDBY (R537). -/
def execThermalStandby (block : Nat) (t : BitVec 16) (s : State) : Host.Outcome State Fault Refusal :=
  .next (thermalStandby block t s)

/-- MAIN_SUPPLY_LOSS (R584). -/
def execMainSupplyLoss (s : State) : Host.Outcome State Fault Refusal := .next (mainsLoss s)

/-- MAIN_SUPPLY_APPLY (R582). -/
def execMainSupplyApply (s : State) : Host.Outcome State Fault Refusal := .next (mainsApply s)

/-- AUX_SUPPLY_APPLY (R582). -/
def execAuxSupplyApply (slotId : BitVec 7) (slotPar : Bool) (s : State) : Host.Outcome State Fault Refusal :=
  .next (auxApply slotId slotPar s)

/-- AUX_SUPPLY_LOSS (R534). -/
def execAuxSupplyLoss (s : State) : Host.Outcome State Fault Refusal := .next (auxLoss s)

/-- ISLAND_BROWN_OUT (R540). -/
def execIslandBrownOut (s : State) : Host.Outcome State Fault Refusal := .next (islandBrownOut s)

end Sys2Proof.Machine
end

