-- ==== Sys2Proof/Machine/ExecQueue.lean ====
section
/-! DEFINITION. Commands of the q and trp units, and what the queue managers and the trip unit do with them (R163 to R167, R307 to R321, R372 to R376). -/

namespace Sys2Proof.Machine

/-- Q_T_ENQ (R164). -/
def execQTEnq (m : Iss) (s : State) : Host.Outcome State Fault Refusal := bundleRow 0x180 m s

/-- Q_T_ENQD (R163). -/
def execQTEnqd (m : Iss) (s : State) : Host.Outcome State Fault Refusal := bundleRow 0x181 m s

/-- Q_T_DEQ (R164). -/
def execQTDeq (m : Iss) (s : State) : Host.Outcome State Fault Refusal := bundleRow 0x182 m s

/-- Q_T_DEQD (R163). -/
def execQTDeqd (m : Iss) (s : State) : Host.Outcome State Fault Refusal := bundleRow 0x183 m s

/-- Q_T_WAIT (R166). -/
def execQTWait (m : Iss) (s : State) : Host.Outcome State Fault Refusal := bundleRow 0x184 m s

/-- Q_T_ARM (R313). -/
def execQTArm (m : Iss) (s : State) : Host.Outcome State Fault Refusal := bundleRow 0x185 m s

/-- Q_T_STAT (R163). -/
def execQTStat (m : Iss) (s : State) : Host.Outcome State Fault Refusal := bundleRow 0x186 m s

/-- How a manager writes a dequeued message: a word of the control space may change a thread's state (R435). -/
def watchedPut (a : Nat) (bs : List Byte) (s : State) : State × Bool :=
  let p := putBytes a bs s
  if inControl a then (watchAll s p.1, p.2) else p

/-- QUEUE_OPERATION (R307). -/
def execQueueOperation (region : Nat) (e : QErr) (s : State) : Host.Outcome State Fault Refusal :=
  chipRow (fun s => if region < 4 then queueOperation watchedPut region e s else s) s

/-- Q_ANSWER (R164). A thread that the answer blocks completes its activation (R435). -/
def execQAnswer (e : CoreRead) (s : State) : Host.Outcome State Fault Refusal :=
  coreRow e.core (fun s => watch e.core s none (qAnswer e.core e.ret s)) s

/-- THREAD_WAKE (R196). The thread that becomes ready has an activation released (R435). -/
def execThreadWake (core : Nat) (s : State) : Host.Outcome State Fault Refusal :=
  coreRow core (fun s => watch core s none (threadWake core s)) s

/-- TRP_T_INV (R167). -/
def execTrpTInv (m : Iss) (s : State) : Host.Outcome State Fault Refusal := bundleRow 0x198 m s

/-- TRP_T_REL (R167). -/
def execTrpTRel (m : Iss) (s : State) : Host.Outcome State Fault Refusal := bundleRow 0x199 m s

/-- TRP_T_QUERY (R167). -/
def execTrpTQuery (m : Iss) (s : State) : Host.Outcome State Fault Refusal := bundleRow 0x19A m s

/-- TRP_ACK (R167). -/
def execTrpAck (core : Nat) (s : State) : Host.Outcome State Fault Refusal := faultRow core (trpAck core) s

/-- TRIP_INVOCATION (R372). -/
def execTripInvocation (core : BusRun) (s : State) : Host.Outcome State Fault Refusal :=
  coreRow core.n (withBusLost core.bus (tripArrive core.n .inv)) s

/-- TRIP_RELEASE (R375). -/
def execTripRelease (core : BusRun) (s : State) : Host.Outcome State Fault Refusal :=
  coreRow core.n (withBusLost core.bus (tripArrive core.n .rel)) s

/-- TRIP_QUERY (R376). -/
def execTripQuery (core : Nat) (s : State) : Host.Outcome State Fault Refusal :=
  coreRow core (tripArrive core .query) s

end Sys2Proof.Machine
end

