-- ==== Sys2Proof/Machine/ExecQueueBlock.lean ====
section
/-! DEFINITION. Commands on the queue manager blocks, and hardware postings (R315, R318, R319). -/

namespace Sys2Proof.Machine

/-- QBASE_WRITE (R318). -/
def execQbaseWrite (init region : Nat) (v : W) (s : State) : Host.Outcome State Fault Refusal :=
  if region < 4 then wordRow init (qBlockAt region) v s else .next s

/-- QBASE_IN_FORCE (R318). -/
def execQbaseInForce (s : State) : Host.Outcome State Fault Refusal := chipRow qbaseInForce s

/-- QUEUE_CREATE (R319). -/
def execQueueCreate (init region : Nat) (queue : QRun) (s : State) : Host.Outcome State Fault Refusal :=
  queueCommandRow init region queue 1 s

/-- QUEUE_DISABLE (R319). -/
def execQueueDisable (init region : Nat) (queue : QRun) (s : State) : Host.Outcome State Fault Refusal :=
  queueCommandRow init region queue 2 s

/-- QUEUE_READ (R319). -/
def execQueueRead (init region : Nat) (queue : QRun) (s : State) : Host.Outcome State Fault Refusal :=
  queueCommandRow init region queue 3 s

/-- QUEUE_RETARGET (R319). -/
def execQueueRetarget (init region : Nat) (queue : QRun) (s : State) : Host.Outcome State Fault Refusal :=
  queueCommandRow init region queue 4 s

/-- QUEUE_CLEAR_COUNTERS (R319). -/
def execQueueClearCounters (init region : Nat) (queue : QRun) (s : State) : Host.Outcome State Fault Refusal :=
  queueCommandRow init region queue 5 s

/-- HARDWARE_POSTING (R315). -/
def execHardwarePosting (producer : Nat) (e : QErr) (s : State) : Host.Outcome State Fault Refusal :=
  chipRow (hardwarePosting producer e) s

end Sys2Proof.Machine
end

