-- ==== Sys2Proof/Machine/ExecSched.lean ====
section
/-! DEFINITION. Scheduling, exceptions and the control block of a cell (R196 to R220, R243). -/

namespace Sys2Proof.Machine

/-- EXCEPTION_ENTRY (R208). -/
def execExceptionEntry (e : CoreRead) (s : State) : Host.Outcome State Fault Refusal :=
  coreRow e.core (exceptionEntry e.core e.ret) s

/-- THREAD_SWITCH (R196). -/
def execThreadSwitch (core : Nat) (s : State) : Host.Outcome State Fault Refusal := coreRow core (threadSwitch core) s

/-- QUANTUM_EXPIRY (R196). -/
def execQuantumExpiry (core : Nat) (s : State) : Host.Outcome State Fault Refusal :=
  coreRow core (quantumExpiry core) s

/-- COCOON_RESTORE (R197). -/
def execCocoonRestore (core asid : Nat) (r : Ret) (g : Nat) (s : State) : Host.Outcome State Fault Refusal :=
  coreRow core (cocoonRestore core asid r g) s

/-- SPILL_COMPLETE (R198). -/
def execSpillComplete (core : Nat) (r : Ret) (g : Nat) (s : State) : Host.Outcome State Fault Refusal :=
  coreRow core (spillComplete core r g) s

/-- TCMP_WRITE (R215). -/
def execTcmpWrite (init core : Nat) (v : W) (s : State) : Host.Outcome State Fault Refusal :=
  coreWordRow init core 0x088 v s

/-- TCMP_FIRE (R215). -/
def execTcmpFire (core : Nat) (s : State) : Host.Outcome State Fault Refusal := coreRow core (tcmpFire core) s

/-- SWI (R215). -/
def execSwi (init core : Nat) (v : W) (s : State) : Host.Outcome State Fault Refusal :=
  coreWordRow init core 0x080 v s

/-- IMAP_CLR (R216): a write of a map entry with clr set. -/
def execImapClr (init core src : Nat) (v : W) (s : State) : Host.Outcome State Fault Refusal :=
  if src < 128 ∧ bit v 4 then coreWordRow init core (0x400 + 8 * src) v s else .next s

/-- ENTRY_WRITE (R209). -/
def execEntryWrite (init core : Nat) (v : EntryVal) (s : State) : Host.Outcome State Fault Refusal :=
  entryRow init core v.v v.ret s

/-- CCTL_RUN_START (R219): cctl written with run = 1 and rst = 0. -/
def execCctlRunStart (init core : Nat) (v : EntryVal) (s : State) : Host.Outcome State Fault Refusal :=
  if bit v.v 0 ∧ !bit v.v 2 then cctlRow init core v.v v.ret s else .next s

/-- CCTL_STOP_REQUEST (R217): cctl written with run = 0 and rst = 0. -/
def execCctlStopRequest (init core : Nat) (v : W) (s : State) : Host.Outcome State Fault Refusal :=
  if !bit v 0 ∧ !bit v 2 then coreWordRow init core 0x008 v s else .next s

/-- CCTL_RST (R219): cctl written with rst = 1. -/
def execCctlRst (init core : Nat) (v : W) (s : State) : Host.Outcome State Fault Refusal :=
  if bit v 2 then slotWordRow init core 0x008 v s else .next s

/-- CELL_STOP (R217). -/
def execCellStop (core : Nat) (s : State) : Host.Outcome State Fault Refusal :=
  coreRow core (fun s => lossSeen (cellStop core s)) s

/-- CELL_STOP_FLUSH_DONE (R217). -/
def execCellStopFlushDone (e : FlushRead) (s : State) : Host.Outcome State Fault Refusal :=
  coreRow e.core (fun s => watch e.core s none (flushDone e s)) s

/-- BKLD (R218). -/
def execBkld (init core : Nat) (v : W) (s : State) : Host.Outcome State Fault Refusal :=
  coreWordRow init core 0x108 v s

/-- BKLD_COMPLETE (R218). -/
def execBkldComplete (core : Nat) (r : Ret) (s : State) : Host.Outcome State Fault Refusal :=
  coreRow core (bkldComplete core r) s

/-- SLOT_STATE_WRITE (R201). -/
def execSlotStateWrite (init core slot : Nat) (v : W) (s : State) : Host.Outcome State Fault Refusal :=
  if slot < 64 then slotWordRow init core (0x1000 + 64 * slot) v s else .next s

/-- SLOT_CTX_INSTALL (R201). -/
def execSlotCtxInstall (init core slot : Nat) (v : W) (s : State) : Host.Outcome State Fault Refusal :=
  if slot < 64 then
    if (slotOf (cellOf s core) slot).state = 0 ∧ reqWaits s core (fld v 47 0 / 16 * 16) = true then .next s
    else slotWordRow init core (0x1010 + 64 * slot) v s
  else .next s

/-- TRANSLATION_WALK (R243). -/
def execTranslationWalk (core : Nat) (va : W) (acc : Acc) (r : WalkRead) (s : State) :
    Host.Outcome State Fault Refusal :=
  faultRow core (translationWalk core va acc r) s

end Sys2Proof.Machine
end

