-- ==== Sys2Proof/Machine/ExecSec.lean ====
section
/-! DEFINITION. SHA-256 engines and the debug port (R567 to R572). -/

namespace Sys2Proof.Machine

/-- SHA256_JOB (R567). -/
def execSha256Job (init engine lane : Nat) (v : W) (s : State) : Host.Outcome State Fault Refusal :=
  if isEngine engine lane ∧ bit v 0 then wordRow init (shaLane engine lane + 0x10) v s else .next s

/-- SHA256_JOB_DONE (R567). -/
def execSha256JobDone (engine lane : Nat) (r : Ret) (s : State) : Host.Outcome State Fault Refusal :=
  chipRow (shaDone engine lane r) s

/-- BYPASS (R569). -/
def execBypassInst (tdi : Bool) (s : State) : Host.Outcome State Fault Refusal := .next (jtagBypass tdi s)

/-- IDCODE (R569). -/
def execIdcodeInst (s : State) : Host.Outcome State Fault Refusal := .next (jtagShift 32 Config.idcode.toNat s)

/-- STATUS (R569). -/
def execStatusInst (s : State) : Host.Outcome State Fault Refusal := .next (jtagShift 8 (debugState s) s)

/-- NONCE (R571). -/
def execNonceInst (s : State) : Host.Outcome State Fault Refusal := .next (jtagShift 128 (leNat (dbgNonce s)) s)

/-- TOKEN (R571). -/
def execTokenInst (sess : Option Nat) (bytes : List Byte) (s : State) : Host.Outcome State Fault Refusal :=
  tokenRow sess bytes s

/-- MEMAP (R570). -/
def execMemapInst (addr : Nat) (wide write : Bool) (data : BitVec 128) (s : State) : Host.Outcome State Fault Refusal :=
  .next (watchAll s (memap addr wide write data s))

/-- DEBUG_UNLOCK_EXPIRY (R572). -/
def execDebugUnlockExpiry (s : State) : Host.Outcome State Fault Refusal := .next (unlockExpiry s)

end Sys2Proof.Machine
end

