-- ==== Sys2Proof/Machine/ExecSys.lean ====
section
/-! DEFINITION. Commands of the sys unit, invalidations and fences (R169 to R177, R251 to R253, R266, R281, R523). -/

namespace Sys2Proof.Machine

/-- SYS_T_INVLEAF (R251). -/
def execSysTInvleaf (m : Iss) (s : State) : Host.Outcome State Fault Refusal := bundleRow 0x1B0 m s

/-- SYS_T_INVWALK (R251). -/
def execSysTInvwalk (m : Iss) (s : State) : Host.Outcome State Fault Refusal := bundleRow 0x1B1 m s

/-- INVALIDATION_RELEASE (R252). -/
def execInvalidationRelease (core : Nat) (s : State) : Host.Outcome State Fault Refusal :=
  coreRow core (invRelease core) s

/-- INVALIDATION_ACK (R253). -/
def execInvalidationAck (issuer target : Nat) (s : State) : Host.Outcome State Fault Refusal :=
  coreRow issuer (invAck issuer target) s

/-- SYS_T_INVSYNC (R253). -/
def execSysTInvsync (m : Iss) (s : State) : Host.Outcome State Fault Refusal := bundleRow 0x1B2 m s

/-- INVSYNC_COMPLETE (R253). -/
def execInvsyncComplete (core : Nat) (s : State) : Host.Outcome State Fault Refusal :=
  faultRow core (invsyncComplete core) s

/-- SYS_T_FENCE (R281). -/
def execSysTFence (m : Iss) (s : State) : Host.Outcome State Fault Refusal := bundleRow 0x1B4 m s

/-- FENCE_COMPLETE (R281). -/
def execFenceComplete (core : Nat) (s : State) : Host.Outcome State Fault Refusal :=
  faultRow core (fenceComplete core) s

/-- SYS_T_GFENCE (R266). -/
def execSysTGfence (m : Iss) (s : State) : Host.Outcome State Fault Refusal := bundleRow 0x1B5 m s

/-- GATE_FENCE_COMPLETE (R266). -/
def execGateFenceComplete (core : Nat) (s : State) : Host.Outcome State Fault Refusal :=
  faultRow core (gateFenceComplete core) s

/-- SYS_T_KRSET (R171). -/
def execSysTKrset (m : Iss) (s : State) : Host.Outcome State Fault Refusal := bundleRow 0x1B8 m s

/-- SYS_T_CTLRD (R172). -/
def execSysTCtlrd (m : Iss) (s : State) : Host.Outcome State Fault Refusal := bundleRow 0x1BC m s

/-- SYS_T_CTLWR (R172). -/
def execSysTCtlwr (m : Iss) (s : State) : Host.Outcome State Fault Refusal := bundleRow 0x1BD m s

/-- SYS_T_PWR (R523). -/
def execSysTPwr (m : Iss) (s : State) : Host.Outcome State Fault Refusal := bundleRow 0x1C0 m s

/-- SYS_T_YIELD (R169). -/
def execSysTYield (m : Iss) (s : State) : Host.Outcome State Fault Refusal := bundleRow 0x1C1 m s

/-- SYS_T_CYC (R177). -/
def execSysTCyc (m : Iss) (s : State) : Host.Outcome State Fault Refusal := bundleRow 0x1C4 m s

/-- SYS_T_TIME (R169). -/
def execSysTTime (m : Iss) (s : State) : Host.Outcome State Fault Refusal := bundleRow 0x1C5 m s

/-- SYS_RESULT (R170); a control write may reach the words of a thread slot (R435), and a command of the trip unit
(R388). -/
def execSysResult (e : CoreRead) (s : State) : Host.Outcome State Fault Refusal :=
  coreRow e.core (withBusLost e.bus (withQErr e.q (fun s => watchAll s (sysArrives e.core e.ret s)))) s

end Sys2Proof.Machine
end

