-- ==== Sys2Proof/Machine/ExecTime.lean ====
section
/-! DEFINITION. The timebase, PTP, IRIG-B and 1PPS (R400 to R418). -/

namespace Sys2Proof.Machine

/-- SOURCE_INVALID (R405). -/
def execSourceInvalid (src : Nat) (s : State) : Host.Outcome State Fault Refusal := chipRow (sourceInvalid src) s

/-- HOLDLIM_EXPIRY (R400). -/
def execHoldlimExpiry (s : State) : Host.Outcome State Fault Refusal := chipRow holdlimExpiry s

/-- SOURCE_TAKEOVER (R405). -/
def execSourceTakeover (src : Nat) (s : State) : Host.Outcome State Fault Refusal := chipRow (sourceTakeover src) s

/-- TGO (R404). -/
def execTgo (init : Nat) (v : W) (s : State) : Host.Outcome State Fault Refusal := wordRow init (partTime + 0x40) v s

/-- PTP_PORT_WRITE (R411). -/
def execPtpPortWrite (init port : Nat) (v : W) (s : State) : Host.Outcome State Fault Refusal :=
  if port < 16 then wordRow init (ptpBase port) v s else .next s

/-- PTP_TRANSMIT (R406). -/
def execPtpTransmit (port : Nat) (kind : PtpSend) (s : State) : Host.Outcome State Fault Refusal :=
  chipRow (ptpTransmit port kind) s

/-- IRIG_B_FRAME (R413). -/
def execIrigBFrame (f : IrigFrame) (s : State) : Host.Outcome State Fault Refusal := chipRow (irigReceive f) s

/-- ONE_PPS_EDGE (R415). -/
def execOnePpsEdge (stamp : Nat) (rising : Bool) (s : State) : Host.Outcome State Fault Refusal :=
  chipRow (ppsEdge stamp rising) s

/-- IRIG_B_OUTPUT_FRAME (R414). -/
def execIrigBOutputFrame (s : State) : Host.Outcome State Fault Refusal := chipRow irigOutput s

/-- ONE_PPS_OUTPUT_PULSE (R415). -/
def execOnePpsOutputPulse (rise : Bool) (s : State) : Host.Outcome State Fault Refusal := chipRow (ppsOutput rise) s

/-- TBASE_IN_FORCE (R367). -/
def execTbaseInForce (core : Nat) (s : State) : Host.Outcome State Fault Refusal := coreRow core (tbaseInForce core) s

/-- REFERENCE_FAILURE (R405). -/
def execReferenceFailure (fail : Bool) (s : State) : Host.Outcome State Fault Refusal :=
  chipRow (referenceFailure fail) s

/-- ANNOUNCE_RECEIPT_TIMEOUT (R406). -/
def execAnnounceReceiptTimeout (port : Nat) (s : State) : Host.Outcome State Fault Refusal :=
  chipRow (announceTimeout port) s

end Sys2Proof.Machine
end

