-- ==== Sys2Proof/Machine/ExecTrip.lean ====
section
/-! DEFINITION. Trip unit, GOOSE and binary inputs (R367 to R394). -/

namespace Sys2Proof.Machine

/-- TBASE_WRITE (R367). -/
def execTbaseWrite (init : Nat) (v : W) (s : State) : Host.Outcome State Fault Refusal := wordRow init tripBlock v s

/-- TRIP_ENABLE (R388). -/
def execTripEnable (init : Nat) (idx : BusRun) (publication bad : Bool) (s : State) : Host.Outcome State Fault Refusal :=
  if idx.n < 4096 then tripCommandRow bad init idx 1 publication s else .next s

/-- TRIP_DISABLE (R388). -/
def execTripDisable (init : Nat) (idx : BusRun) (publication : Bool) (s : State) : Host.Outcome State Fault Refusal :=
  if idx.n < 4096 then tripCommandRow false init idx 2 publication s else .next s

/-- LOCKOUT_RESET (R375). -/
def execLockoutReset (init : Nat) (idx : BusRun) (s : State) : Host.Outcome State Fault Refusal :=
  if idx.n < 4096 then tripCommandRow false init idx 3 false s else .next s

/-- TRIP_CLEAR_COUNTERS (R388). -/
def execTripClearCounters (init idx : Nat) (publication : Bool) (s : State) : Host.Outcome State Fault Refusal :=
  if idx < 4096 then tripCommandRow false init ⟨idx, []⟩ 4 publication s else .next s

/-- TPULSE_EXPIRY (R375). -/
def execTpulseExpiry (obj : BusRun) (s : State) : Host.Outcome State Fault Refusal :=
  chipRow (withBusLost obj.bus (tpulseExpiry obj.n)) s

/-- GOOSE_RETRANSMIT (R385). -/
def execGooseRetransmit (pub : Nat) (bad : BitVec 4) (s : State) : Host.Outcome State Fault Refusal :=
  chipRow (gooseRetransmit pub bad.toNat) s

/-- GOOSE_TIMEOUT (R392). -/
def execGooseTimeout (sub : Nat) (s : State) : Host.Outcome State Fault Refusal := chipRow (gooseTimeout sub) s

/-- GOOSE_SUBSCRIPTION_COMMIT (R390). -/
def execGooseSubscriptionCommit (init sub : Nat) (v : W) (s : State) : Host.Outcome State Fault Refusal :=
  if sub < 2048 then wordRow init (gsubBase sub) v s else .next s

/-- FORCE_WRITE (R379). -/
def execForceWrite (init : Nat) (v : W) (s : State) : Host.Outcome State Fault Refusal :=
  wordRow init (toutBlock + 8) v s

/-- BINARY_INPUT_CHANGE (R393). -/
def execBinaryInputChange (k : Nat) (level : Bool) (stamp : Nat) (s : State) : Host.Outcome State Fault Refusal :=
  chipRow (binChange k level stamp) s

/-- BINARY_INPUT_GLITCH (R393). -/
def execBinaryInputGlitch (e : Excursion) (s : State) : Host.Outcome State Fault Refusal := chipRow (binGlitch e.k e.len) s

/-- CHATTER_SUPPRESSION_END (R394). -/
def execChatterSuppressionEnd (k : Nat) (s : State) : Host.Outcome State Fault Refusal := chipRow (chatterEnd k) s

end Sys2Proof.Machine
end

