-- ==== Sys2Proof/Machine/Dispatch.lean ====
section
/-! DEFINITION. One arm per command: its meaning. -/

namespace Sys2Proof.Machine

def exec (i : Instr) (s : State) : Host.Outcome State Fault Refusal :=
  match i with
  | .registerMove dst m => Sys2Proof.Machine.execRegisterMove dst m s
  | .aluTAdd unit1 m => Sys2Proof.Machine.execAluTAdd unit1 m s
  | .aluTSub unit1 m => Sys2Proof.Machine.execAluTSub unit1 m s
  | .aluTAnd unit1 m => Sys2Proof.Machine.execAluTAnd unit1 m s
  | .aluTOr unit1 m => Sys2Proof.Machine.execAluTOr unit1 m s
  | .aluTXor unit1 m => Sys2Proof.Machine.execAluTXor unit1 m s
  | .aluTAndn unit1 m => Sys2Proof.Machine.execAluTAndn unit1 m s
  | .aluTNeg unit1 m => Sys2Proof.Machine.execAluTNeg unit1 m s
  | .aluTMin unit1 m => Sys2Proof.Machine.execAluTMin unit1 m s
  | .aluTMax unit1 m => Sys2Proof.Machine.execAluTMax unit1 m s
  | .aluTMinu unit1 m => Sys2Proof.Machine.execAluTMinu unit1 m s
  | .aluTMaxu unit1 m => Sys2Proof.Machine.execAluTMaxu unit1 m s
  | .aluTEq unit1 m => Sys2Proof.Machine.execAluTEq unit1 m s
  | .aluTNe unit1 m => Sys2Proof.Machine.execAluTNe unit1 m s
  | .aluTLt unit1 m => Sys2Proof.Machine.execAluTLt unit1 m s
  | .aluTLtu unit1 m => Sys2Proof.Machine.execAluTLtu unit1 m s
  | .aluTGe unit1 m => Sys2Proof.Machine.execAluTGe unit1 m s
  | .aluTGeu unit1 m => Sys2Proof.Machine.execAluTGeu unit1 m s
  | .aluTTst unit1 m => Sys2Proof.Machine.execAluTTst unit1 m s
  | .aluTTstz unit1 m => Sys2Proof.Machine.execAluTTstz unit1 m s
  | .mulTMul m => Sys2Proof.Machine.execMulTMul m s
  | .mulTMulh m => Sys2Proof.Machine.execMulTMulh m s
  | .mulTMulhu m => Sys2Proof.Machine.execMulTMulhu m s
  | .mulTMulhsu m => Sys2Proof.Machine.execMulTMulhsu m s
  | .mulResult core => Sys2Proof.Machine.execMulResult core s
  | .divTDivs m => Sys2Proof.Machine.execDivTDivs m s
  | .divTDivu m => Sys2Proof.Machine.execDivTDivu m s
  | .divResult core => Sys2Proof.Machine.execDivResult core s
  | .shfTShl m => Sys2Proof.Machine.execShfTShl m s
  | .shfTShr m => Sys2Proof.Machine.execShfTShr m s
  | .shfTSar m => Sys2Proof.Machine.execShfTSar m s
  | .shfTRol m => Sys2Proof.Machine.execShfTRol m s
  | .shfTRor m => Sys2Proof.Machine.execShfTRor m s
  | .shfTExt m => Sys2Proof.Machine.execShfTExt m s
  | .shfTExts m => Sys2Proof.Machine.execShfTExts m s
  | .shfTIns m => Sys2Proof.Machine.execShfTIns m s
  | .shfTClz m => Sys2Proof.Machine.execShfTClz m s
  | .shfTCtz m => Sys2Proof.Machine.execShfTCtz m s
  | .shfTPopc m => Sys2Proof.Machine.execShfTPopc m s
  | .shfTBswap m => Sys2Proof.Machine.execShfTBswap m s
  | .memTLdb m => Sys2Proof.Machine.execMemTLdb m s
  | .memTLdbu m => Sys2Proof.Machine.execMemTLdbu m s
  | .memTLdh m => Sys2Proof.Machine.execMemTLdh m s
  | .memTLdhu m => Sys2Proof.Machine.execMemTLdhu m s
  | .memTLdw m => Sys2Proof.Machine.execMemTLdw m s
  | .memTLdwu m => Sys2Proof.Machine.execMemTLdwu m s
  | .memTLdd m => Sys2Proof.Machine.execMemTLdd m s
  | .memTLdc m => Sys2Proof.Machine.execMemTLdc m s
  | .memTStb m => Sys2Proof.Machine.execMemTStb m s
  | .memTSth m => Sys2Proof.Machine.execMemTSth m s
  | .memTStw m => Sys2Proof.Machine.execMemTStw m s
  | .memTStd m => Sys2Proof.Machine.execMemTStd m s
  | .memTStc m => Sys2Proof.Machine.execMemTStc m s
  | .memTSmm m => Sys2Proof.Machine.execMemTSmm m s
  | .memTLmm m => Sys2Proof.Machine.execMemTLmm m s
  | .memTPf m => Sys2Proof.Machine.execMemTPf m s
  | .blockElement core r => Sys2Proof.Machine.execBlockElement core r s
  | .loadDataReturn core r => Sys2Proof.Machine.execLoadDataReturn core r s
  | .instructionFetchFill core r => Sys2Proof.Machine.execInstructionFetchFill core r s
  | .storePerformed core n r => Sys2Proof.Machine.execStorePerformed core n r s
  | .capTSetaddr m => Sys2Proof.Machine.execCapTSetaddr m s
  | .capTIncaddr m => Sys2Proof.Machine.execCapTIncaddr m s
  | .capTBnd m => Sys2Proof.Machine.execCapTBnd m s
  | .capTBnde m => Sys2Proof.Machine.execCapTBnde m s
  | .capTAndperm m => Sys2Proof.Machine.execCapTAndperm m s
  | .capTSeal m => Sys2Proof.Machine.execCapTSeal m s
  | .capTUnseal m => Sys2Proof.Machine.execCapTUnseal m s
  | .capTLand m => Sys2Proof.Machine.execCapTLand m s
  | .capTGrain m => Sys2Proof.Machine.execCapTGrain m s
  | .capTCover m => Sys2Proof.Machine.execCapTCover m s
  | .capTGetbase m => Sys2Proof.Machine.execCapTGetbase m s
  | .capTGetlen m => Sys2Proof.Machine.execCapTGetlen m s
  | .capTGetmeta m => Sys2Proof.Machine.execCapTGetmeta m s
  | .capTSubset m => Sys2Proof.Machine.execCapTSubset m s
  | .capTChk m => Sys2Proof.Machine.execCapTChk m s
  | .capResult core => Sys2Proof.Machine.execCapResult core s
  | .brTBr m => Sys2Proof.Machine.execBrTBr m s
  | .brTCall m => Sys2Proof.Machine.execBrTCall m s
  | .brTJmp m => Sys2Proof.Machine.execBrTJmp m s
  | .brTJc m => Sys2Proof.Machine.execBrTJc m s
  | .brTCallc m => Sys2Proof.Machine.execBrTCallc m s
  | .brTGate m => Sys2Proof.Machine.execBrTGate m s
  | .brTGret m => Sys2Proof.Machine.execBrTGret m s
  | .brTEret m => Sys2Proof.Machine.execBrTEret m s
  | .brTRep m => Sys2Proof.Machine.execBrTRep m s
  | .brTRepn m => Sys2Proof.Machine.execBrTRepn m s
  | .repetition core => Sys2Proof.Machine.execRepetition core s
  | .macTDot m => Sys2Proof.Machine.execMacTDot m s
  | .macTDotn m => Sys2Proof.Machine.execMacTDotn m s
  | .macTCre m => Sys2Proof.Machine.execMacTCre m s
  | .macTCim m => Sys2Proof.Machine.execMacTCim m s
  | .macTMul m => Sys2Proof.Machine.execMacTMul m s
  | .macTSet m => Sys2Proof.Machine.execMacTSet m s
  | .macTSar m => Sys2Proof.Machine.execMacTSar m s
  | .macTRds m => Sys2Proof.Machine.execMacTRds m s
  | .macTRdw m => Sys2Proof.Machine.execMacTRdw m s
  | .macTRdr m => Sys2Proof.Machine.execMacTRdr m s
  | .macTRdt m => Sys2Proof.Machine.execMacTRdt m s
  | .macTStclr m => Sys2Proof.Machine.execMacTStclr m s
  | .macAccumulateWrite core => Sys2Proof.Machine.execMacAccumulateWrite core s
  | .macReadoutWrite core => Sys2Proof.Machine.execMacReadoutWrite core s
  | .phTDft m => Sys2Proof.Machine.execPhTDft m s
  | .phTTrk m => Sys2Proof.Machine.execPhTTrk m s
  | .phResult core => Sys2Proof.Machine.execPhResult core s
  | .qTEnq m => Sys2Proof.Machine.execQTEnq m s
  | .qTEnqd m => Sys2Proof.Machine.execQTEnqd m s
  | .qTDeq m => Sys2Proof.Machine.execQTDeq m s
  | .qTDeqd m => Sys2Proof.Machine.execQTDeqd m s
  | .qTWait m => Sys2Proof.Machine.execQTWait m s
  | .qTArm m => Sys2Proof.Machine.execQTArm m s
  | .qTStat m => Sys2Proof.Machine.execQTStat m s
  | .queueOperation region e => Sys2Proof.Machine.execQueueOperation region e s
  | .qAnswer e => Sys2Proof.Machine.execQAnswer e s
  | .threadWake core => Sys2Proof.Machine.execThreadWake core s
  | .trpTInv m => Sys2Proof.Machine.execTrpTInv m s
  | .trpTRel m => Sys2Proof.Machine.execTrpTRel m s
  | .trpTQuery m => Sys2Proof.Machine.execTrpTQuery m s
  | .trpAck core => Sys2Proof.Machine.execTrpAck core s
  | .tripInvocation core => Sys2Proof.Machine.execTripInvocation core s
  | .tripRelease core => Sys2Proof.Machine.execTripRelease core s
  | .tripQuery core => Sys2Proof.Machine.execTripQuery core s
  | .sysTInvleaf m => Sys2Proof.Machine.execSysTInvleaf m s
  | .sysTInvwalk m => Sys2Proof.Machine.execSysTInvwalk m s
  | .invalidationRelease core => Sys2Proof.Machine.execInvalidationRelease core s
  | .invalidationAck issuer target => Sys2Proof.Machine.execInvalidationAck issuer target s
  | .sysTInvsync m => Sys2Proof.Machine.execSysTInvsync m s
  | .invsyncComplete core => Sys2Proof.Machine.execInvsyncComplete core s
  | .sysTFence m => Sys2Proof.Machine.execSysTFence m s
  | .fenceComplete core => Sys2Proof.Machine.execFenceComplete core s
  | .sysTGfence m => Sys2Proof.Machine.execSysTGfence m s
  | .gateFenceComplete core => Sys2Proof.Machine.execGateFenceComplete core s
  | .sysTKrset m => Sys2Proof.Machine.execSysTKrset m s
  | .sysTCtlrd m => Sys2Proof.Machine.execSysTCtlrd m s
  | .sysTCtlwr m => Sys2Proof.Machine.execSysTCtlwr m s
  | .sysTPwr m => Sys2Proof.Machine.execSysTPwr m s
  | .sysTYield m => Sys2Proof.Machine.execSysTYield m s
  | .sysTCyc m => Sys2Proof.Machine.execSysTCyc m s
  | .sysTTime m => Sys2Proof.Machine.execSysTTime m s
  | .sysResult e => Sys2Proof.Machine.execSysResult e s
  | .exceptionEntry e => Sys2Proof.Machine.execExceptionEntry e s
  | .threadSwitch core => Sys2Proof.Machine.execThreadSwitch core s
  | .quantumExpiry core => Sys2Proof.Machine.execQuantumExpiry core s
  | .cocoonRestore core asid r g => Sys2Proof.Machine.execCocoonRestore core asid r g s
  | .spillComplete core r g => Sys2Proof.Machine.execSpillComplete core r g s
  | .tcmpWrite init core v => Sys2Proof.Machine.execTcmpWrite init core v s
  | .tcmpFire core => Sys2Proof.Machine.execTcmpFire core s
  | .swi init core v => Sys2Proof.Machine.execSwi init core v s
  | .imapClr init core src v => Sys2Proof.Machine.execImapClr init core src v s
  | .entryWrite init core v => Sys2Proof.Machine.execEntryWrite init core v s
  | .cctlRunStart init core v => Sys2Proof.Machine.execCctlRunStart init core v s
  | .cctlStopRequest init core v => Sys2Proof.Machine.execCctlStopRequest init core v s
  | .cctlRst init core v => Sys2Proof.Machine.execCctlRst init core v s
  | .cellStop core => Sys2Proof.Machine.execCellStop core s
  | .cellStopFlushDone e => Sys2Proof.Machine.execCellStopFlushDone e s
  | .bkld init core v => Sys2Proof.Machine.execBkld init core v s
  | .bkldComplete core r => Sys2Proof.Machine.execBkldComplete core r s
  | .slotStateWrite init core slot v => Sys2Proof.Machine.execSlotStateWrite init core slot v s
  | .slotCtxInstall init core slot v => Sys2Proof.Machine.execSlotCtxInstall init core slot v s
  | .translationWalk core va acc r => Sys2Proof.Machine.execTranslationWalk core va acc r s
  | .gateAttrWrite init gate region v => Sys2Proof.Machine.execGateAttrWrite init gate region v s
  | .gateConfigApply gate => Sys2Proof.Machine.execGateConfigApply gate s
  | .gateClear init gate v => Sys2Proof.Machine.execGateClear init gate v s
  | .controlSpaceWrite init addr v => Sys2Proof.Machine.execControlSpaceWrite init addr v s
  | .dmaDescriptor region engine => Sys2Proof.Machine.execDmaDescriptor region engine s
  | .dmaCompletion region engine failAt => Sys2Proof.Machine.execDmaCompletion region engine failAt s
  | .wayConfigWrite init block v => Sys2Proof.Machine.execWayConfigWrite init block v s
  | .wayChangeComplete block => Sys2Proof.Machine.execWayChangeComplete block s
  | .wkick init core v => Sys2Proof.Machine.execWkick init core v s
  | .watchdogHalfPeriod core => Sys2Proof.Machine.execWatchdogHalfPeriod core s
  | .watchdogExpiry core => Sys2Proof.Machine.execWatchdogExpiry core s
  | .arbitrationTimeout block init addr => Sys2Proof.Machine.execArbitrationTimeout block init addr s
  | .patrolScrub region corrected passDone => Sys2Proof.Machine.execPatrolScrub region corrected passDone s
  | .flitReplay link => Sys2Proof.Machine.execFlitReplay link s
  | .retrainComplete link => Sys2Proof.Machine.execRetrainComplete link s
  | .linkFailed link => Sys2Proof.Machine.execLinkFailed link s
  | .fatalError code => Sys2Proof.Machine.execFatalError code s
  | .eclr init record v => Sys2Proof.Machine.execEclr init record v s
  | .qbaseWrite init region v => Sys2Proof.Machine.execQbaseWrite init region v s
  | .qbaseInForce => Sys2Proof.Machine.execQbaseInForce s
  | .queueCreate init region queue => Sys2Proof.Machine.execQueueCreate init region queue s
  | .queueDisable init region queue => Sys2Proof.Machine.execQueueDisable init region queue s
  | .queueRead init region queue => Sys2Proof.Machine.execQueueRead init region queue s
  | .queueRetarget init region queue => Sys2Proof.Machine.execQueueRetarget init region queue s
  | .queueClearCounters init region queue => Sys2Proof.Machine.execQueueClearCounters init region queue s
  | .hardwarePosting producer e => Sys2Proof.Machine.execHardwarePosting producer e s
  | .frameReceive f => Sys2Proof.Machine.execFrameReceive f s
  | .planeDeadline grid => Sys2Proof.Machine.execPlaneDeadline grid s
  | .duplicateEntryForget pair smac seq => Sys2Proof.Machine.execDuplicateEntryForget pair smac seq s
  | .supervisionTransmit pair => Sys2Proof.Machine.execSupervisionTransmit pair s
  | .streamLost sub => Sys2Proof.Machine.execStreamLost sub s
  | .subscriptionCommit init sub v => Sys2Proof.Machine.execSubscriptionCommit init sub v s
  | .subscriptionDisable init sub v => Sys2Proof.Machine.execSubscriptionDisable init sub v s
  | .gridCommit init grid v => Sys2Proof.Machine.execGridCommit init grid v s
  | .gridDisable init grid v => Sys2Proof.Machine.execGridDisable init grid v s
  | .pairWordWrite init v => Sys2Proof.Machine.execPairWordWrite init v s
  | .simmodeWrite init v => Sys2Proof.Machine.execSimmodeWrite init v s
  | .subscriptionCounterClear init v => Sys2Proof.Machine.execSubscriptionCounterClear init v s
  | .ingressCounterClear init v => Sys2Proof.Machine.execIngressCounterClear init v s
  | .tbaseWrite init v => Sys2Proof.Machine.execTbaseWrite init v s
  | .tripEnable init idx publication bad => Sys2Proof.Machine.execTripEnable init idx publication bad s
  | .tripDisable init idx publication => Sys2Proof.Machine.execTripDisable init idx publication s
  | .lockoutReset init idx => Sys2Proof.Machine.execLockoutReset init idx s
  | .tripClearCounters init idx publication => Sys2Proof.Machine.execTripClearCounters init idx publication s
  | .tpulseExpiry obj => Sys2Proof.Machine.execTpulseExpiry obj s
  | .gooseRetransmit pub bad => Sys2Proof.Machine.execGooseRetransmit pub bad s
  | .gooseTimeout sub => Sys2Proof.Machine.execGooseTimeout sub s
  | .gooseSubscriptionCommit init sub v => Sys2Proof.Machine.execGooseSubscriptionCommit init sub v s
  | .forceWrite init v => Sys2Proof.Machine.execForceWrite init v s
  | .binaryInputChange k level stamp => Sys2Proof.Machine.execBinaryInputChange k level stamp s
  | .binaryInputGlitch e => Sys2Proof.Machine.execBinaryInputGlitch e s
  | .chatterSuppressionEnd k => Sys2Proof.Machine.execChatterSuppressionEnd k s
  | .sourceInvalid src => Sys2Proof.Machine.execSourceInvalid src s
  | .holdlimExpiry => Sys2Proof.Machine.execHoldlimExpiry s
  | .sourceTakeover src => Sys2Proof.Machine.execSourceTakeover src s
  | .tgo init v => Sys2Proof.Machine.execTgo init v s
  | .ptpPortWrite init port v => Sys2Proof.Machine.execPtpPortWrite init port v s
  | .ptpTransmit port kind => Sys2Proof.Machine.execPtpTransmit port kind s
  | .irigBFrame f => Sys2Proof.Machine.execIrigBFrame f s
  | .onePpsEdge stamp rising => Sys2Proof.Machine.execOnePpsEdge stamp rising s
  | .irigBOutputFrame => Sys2Proof.Machine.execIrigBOutputFrame s
  | .onePpsOutputPulse rise => Sys2Proof.Machine.execOnePpsOutputPulse rise s
  | .manifestLoad sess bytes => Sys2Proof.Machine.execManifestLoad sess bytes s
  | .manifestPlaced cid choice => Sys2Proof.Machine.execManifestPlaced cid choice s
  | .mUnload sess cid => Sys2Proof.Machine.execMUnload sess cid s
  | .epochEnd acts => Sys2Proof.Machine.execEpochEnd acts s
  | .migrationInstall cid => Sys2Proof.Machine.execMigrationInstall cid s
  | .blockTemperatureSample block t0 t1 t2 t3 => Sys2Proof.Machine.execBlockTemperatureSample block t0 t1 t2 t3 s
  | .activationRelease cid thread => Sys2Proof.Machine.execActivationRelease cid thread s
  | .hubCoreLost region => Sys2Proof.Machine.execHubCoreLost region s
  | .proposalConfirm sess num => Sys2Proof.Machine.execProposalConfirm sess num s
  | .proposalLapse => Sys2Proof.Machine.execProposalLapse s
  | .twinHeartbeatSend => Sys2Proof.Machine.execTwinHeartbeatSend s
  | .twinPairForm p => Sys2Proof.Machine.execTwinPairForm p s
  | .twinPairTimeout => Sys2Proof.Machine.execTwinPairTimeout s
  | .twinHeartbeatLoss => Sys2Proof.Machine.execTwinHeartbeatLoss s
  | .twinLinkRestored stopped => Sys2Proof.Machine.execTwinLinkRestored stopped s
  | .mirrorApply cid copy => Sys2Proof.Machine.execMirrorApply cid copy s
  | .removeReq => Sys2Proof.Machine.execRemoveReq s
  | .removeCancel => Sys2Proof.Machine.execRemoveCancel s
  | .rmConsent sess v => Sys2Proof.Machine.execRmConsent sess v s
  | .commit sess => Sys2Proof.Machine.execCommit sess s
  | .autorunCommit => Sys2Proof.Machine.execAutorunCommit s
  | .enterMaintenance sess => Sys2Proof.Machine.execEnterMaintenance sess s
  | .leaveMaintenance sess => Sys2Proof.Machine.execLeaveMaintenance sess s
  | .resetCommand sess => Sys2Proof.Machine.execResetCommand sess s
  | .factoryRestore sess => Sys2Proof.Machine.execFactoryRestore sess s
  | .journalPersist ok => Sys2Proof.Machine.execJournalPersist ok s
  | .evClear sess => Sys2Proof.Machine.execEvClear sess s
  | .fwActivate sess => Sys2Proof.Machine.execFwActivate sess s
  | .fieldSecure sess => Sys2Proof.Machine.execFieldSecure sess s
  | .decommission sess => Sys2Proof.Machine.execDecommission sess s
  | .secretWrite sess mnt v => Sys2Proof.Machine.execSecretWrite sess mnt v s
  | .attNonce sess v => Sys2Proof.Machine.execAttNonce sess v s
  | .attestationSigned => Sys2Proof.Machine.execAttestationSigned s
  | .openMsg msg => Sys2Proof.Machine.execOpenMsg msg s
  | .closeMsg msg => Sys2Proof.Machine.execCloseMsg msg s
  | .pingMsg msg => Sys2Proof.Machine.execPingMsg msg s
  | .authStep1 msg => Sys2Proof.Machine.execAuthStep1 msg s
  | .authStep2 msg => Sys2Proof.Machine.execAuthStep2 msg s
  | .readMsg msg => Sys2Proof.Machine.execReadMsg msg s
  | .writeMsg msg => Sys2Proof.Machine.execWriteMsg msg s
  | .uploadMsg msg => Sys2Proof.Machine.execUploadMsg msg s
  | .downloadMsg msg => Sys2Proof.Machine.execDownloadMsg msg s
  | .segmentMsg msg => Sys2Proof.Machine.execSegmentMsg msg s
  | .ackMsg msg => Sys2Proof.Machine.execAckMsg msg s
  | .abortMsg msg => Sys2Proof.Machine.execAbortMsg msg s
  | .sessionIdleTimeout sess => Sys2Proof.Machine.execSessionIdleTimeout sess s
  | .segmentResendTimeout sess tid seg => Sys2Proof.Machine.execSegmentResendTimeout sess tid seg s
  | .transferTimeout sess tid => Sys2Proof.Machine.execTransferTimeout sess tid s
  | .quarantineEnd sess tid => Sys2Proof.Machine.execQuarantineEnd sess tid s
  | .authLockoutEnd car => Sys2Proof.Machine.execAuthLockoutEnd car s
  | .rspack v => Sys2Proof.Machine.execRspack v s
  | .canBusOff ctl => Sys2Proof.Machine.execCanBusOff ctl s
  | .pcieLinkDown => Sys2Proof.Machine.execPcieLinkDown s
  | .levelChangeRequest init block v => Sys2Proof.Machine.execLevelChangeRequest init block v s
  | .dividerSwitch block => Sys2Proof.Machine.execDividerSwitch block s
  | .regulatorSlewDone block => Sys2Proof.Machine.execRegulatorSlewDone block s
  | .vinCoreChangeDone meas => Sys2Proof.Machine.execVinCoreChangeDone meas s
  | .vinCoreChangeTimeout meas => Sys2Proof.Machine.execVinCoreChangeTimeout meas s
  | .vinCoreRetry => Sys2Proof.Machine.execVinCoreRetry s
  | .blockRun init block v => Sys2Proof.Machine.execBlockRun init block v s
  | .blockIdle init block v => Sys2Proof.Machine.execBlockIdle init block v s
  | .blockNap init block v => Sys2Proof.Machine.execBlockNap init block v s
  | .blockOff init block v => Sys2Proof.Machine.execBlockOff init block v s
  | .fullModeReady block => Sys2Proof.Machine.execFullModeReady block s
  | .cenWrite init block v => Sys2Proof.Machine.execCenWrite init block v s
  | .rclr init block v => Sys2Proof.Machine.execRclr init block v s
  | .thermalForce block t0 t1 t2 t3 => Sys2Proof.Machine.execThermalForce block t0 t1 t2 t3 s
  | .thermalForceRelease block => Sys2Proof.Machine.execThermalForceRelease block s
  | .napMonitor block imon => Sys2Proof.Machine.execNapMonitor block imon s
  | .blockBrownOut block imon vout => Sys2Proof.Machine.execBlockBrownOut block imon vout s
  | .standby sess => Sys2Proof.Machine.execStandby sess s
  | .hibernate sess => Sys2Proof.Machine.execHibernate sess s
  | .wake sess => Sys2Proof.Machine.execWake sess s
  | .wakeTimer => Sys2Proof.Machine.execWakeTimer s
  | .canWake ctl canId => Sys2Proof.Machine.execCanWake ctl canId s
  | .wakeStepDone e => Sys2Proof.Machine.execWakeStepDone e s
  | .wakeStepTimeout => Sys2Proof.Machine.execWakeStepTimeout s
  | .wakeRetry => Sys2Proof.Machine.execWakeRetry s
  | .thermalStandby block t => Sys2Proof.Machine.execThermalStandby block t s
  | .mainSupplyLoss => Sys2Proof.Machine.execMainSupplyLoss s
  | .mainSupplyApply => Sys2Proof.Machine.execMainSupplyApply s
  | .auxSupplyApply slotId slotPar => Sys2Proof.Machine.execAuxSupplyApply slotId slotPar s
  | .auxSupplyLoss => Sys2Proof.Machine.execAuxSupplyLoss s
  | .islandBrownOut => Sys2Proof.Machine.execIslandBrownOut s
  | .sha256Job init engine lane v => Sys2Proof.Machine.execSha256Job init engine lane v s
  | .sha256JobDone engine lane r => Sys2Proof.Machine.execSha256JobDone engine lane r s
  | .bypassInst tdi => Sys2Proof.Machine.execBypassInst tdi s
  | .idcodeInst => Sys2Proof.Machine.execIdcodeInst s
  | .statusInst => Sys2Proof.Machine.execStatusInst s
  | .nonceInst => Sys2Proof.Machine.execNonceInst s
  | .tokenInst sess bytes => Sys2Proof.Machine.execTokenInst sess bytes s
  | .memapInst addr wide write data => Sys2Proof.Machine.execMemapInst addr wide write data s
  | .debugUnlockExpiry => Sys2Proof.Machine.execDebugUnlockExpiry s
  | .pcieInboundRequest offset width write data => Sys2Proof.Machine.execPcieInboundRequest offset width write data s
  | .perstN high => Sys2Proof.Machine.execPerstN high s
  | .hotSwapConnect => Sys2Proof.Machine.execHotSwapConnect s
  | .hotSwapOvercurrent => Sys2Proof.Machine.execHotSwapOvercurrent s
  | .hotSwapRetry => Sys2Proof.Machine.execHotSwapRetry s
  | .hotSwapDisconnect => Sys2Proof.Machine.execHotSwapDisconnect s
  | .cageOvercurrent cage => Sys2Proof.Machine.execCageOvercurrent cage s
  | .cageRetry cage => Sys2Proof.Machine.execCageRetry cage s
  | .pluggableInsert cage milliwatt => Sys2Proof.Machine.execPluggableInsert cage milliwatt s
  | .ocxoWarm => Sys2Proof.Machine.execOcxoWarm s
  | .tcxoHold => Sys2Proof.Machine.execTcxoHold s
  | .tbaseInForce core => Sys2Proof.Machine.execTbaseInForce core s
  | .twinHeartbeatReceive lane => Sys2Proof.Machine.execTwinHeartbeatReceive lane s
  | .twinTakeoverRequest cids => Sys2Proof.Machine.execTwinTakeoverRequest cids s
  | .twinTakeoverAck cid => Sys2Proof.Machine.execTwinTakeoverAck cid s
  | .laneLinkChange lane up => Sys2Proof.Machine.execLaneLinkChange lane up s
  | .pcieLinkUp => Sys2Proof.Machine.execPcieLinkUp s
  | .referenceFailure fail => Sys2Proof.Machine.execReferenceFailure fail s
  | .announceReceiptTimeout port => Sys2Proof.Machine.execAnnounceReceiptTimeout port s
  | .napEntryComplete block => Sys2Proof.Machine.execNapEntryComplete block s
  | .identitySignatureDone => Sys2Proof.Machine.execIdentitySignatureDone s
  | .fwImageWritten ok => Sys2Proof.Machine.execFwImageWritten ok s

end Sys2Proof.Machine
end

