-- ==== Sys2Proof/Safety.lean ====
section
/-! DEFINITION. What a safe run is, and the terms that the statements are written in: commands that complete, the
canonical form of memory, a core that is ready for a command's bundle, and the cell as such a bundle leaves it. -/

namespace Sys2Proof.Machine

/-- The outcome is a next state. -/
def completes (o : Host.Outcome State Fault Refusal) : Bool :=
  match o with
  | .next _ => true
  | _ => false

/-- Granule numbers strictly rising, from above `lo`. -/
def tagsWfFrom : Option Nat → List Nat → Bool
  | _, [] => true
  | lo, g :: l => (match lo with | none => true | some x => decide (x < g)) && tagsWfFrom (some g) l

/-- The canonical form of memory and of its tags. -/
def State.memWf (s : State) : Bool := Memory.wf s.mem && tagsWfFrom none s.tags

/-! A command's bundle. -/

/-- Nothing of an earlier bundle is still to come: no result in flight, no division, no fit, no load. -/
structure Quiet (c : Cell) : Prop where
  fly   : c.fly = []
  div   : c.div.cur = none
  ph    : c.ph.cur = none
  loads : c.loads = []

/-- The value that a command's source yields: a port's, the sign-extended immediate, or the sign-extended
literal (R94, R95, R105). -/
def srcVal (m : Iss) (s : State) : Val :=
  match m.src with
  | .port p => readPort (isHub m.core) (cellOf s m.core) (cellOf s m.core).run p.toNat
  | .imm i => .d (i.signExtend 64)
  | .lit l => .d (l.signExtend 64)

/-- A command's own move. -/
def ownMove (m : Iss) (dst : BitVec 10) (s : State) : Move :=
  { slotB := (match m.src with | .lit _ => false | _ => m.slotB), word := slotWord m.gsel m.ginv dst m.src,
    dst := dst.toNat, src := (match m.src with | .port p => p.toNat | _ => srcImm), val := srcVal m s }

/-- The core is ready for the command's bundle: it may issue, nothing of an earlier bundle is still to come, no repeated
bundle is held but this one (R185), no command in progress holds a request of it, no walk's stall is still to be counted (R177), no change asked of an interrupted
thread takes effect at this point (R201), its register bank meets no parity error
(R214), the bundle passes the fetch check (R83) and has no reserved encoding (R119), and the command's own move is the one
move that its guards let execute (R97, R98). Either slot, every guard and every source is allowed. -/
structure Ready (m : Iss) (dst : BitVec 10) (s : State) : Prop where
  core  : isCore m.core = true
  ret   : m.ret ≠ .parity
  held  : heldBundle (cellOf s m.core) (issSlots m dst).1 (issSlots m dst).2 = true
  free  : (cellOf s m.core).heldUp = false
  calm  : (cellOf s m.core).walked = false
  want  : pointWant (cellOf s m.core) = cellOf s m.core
  may   : mayIssue s m.core = true
  quiet : Quiet (cellOf s m.core)
  fetch : fetchFail (runBank (cellOf s m.core)) = none
  enc   : staticUndefs (isHub m.core) (levelOf (cellOf s m.core)) (runBank (cellOf s m.core))
            (issSlots m dst).1 (issSlots m dst).2 = []
  alone : activeMoves (isHub m.core) (cellOf s m.core) (issSlots m dst).1 (issSlots m dst).2 = [ownMove m dst s]

/-- The events of a core happen: the chip is on, and the core is in service (R43, R534). -/
abbrev serves (core : Nat) (s : State) : Prop := pstateOf s = 0 ∧ isCore core = true ∧ coreInService s core = true

/-- How the requests of a command's bundle end. -/
def issueRet (m : Iss) : BundleRet := { ret := m.ret, fret := m.fret, vret := m.vret }

/-- The running bank of the command's core, as the command finds it. -/
def issueBank (m : Iss) (s : State) : Bank := runBank (cellOf s m.core)

/-- The context in which the command's move is checked and carried out. -/
def issueCtx (m : Iss) (dst : BitVec 10) (s : State) : Ctx :=
  { core := m.core, n := (cellOf s m.core).now, b := (cellOf s m.core).run,
    k := operandView (isHub m.core) [ownMove m dst s] (issueBank m s), ret := m.ret, fret := m.fret }

/-- The core as its bundle's checks find it. -/
def issueStart (m : Iss) (s : State) : State :=
  setCell m.core { cellOf s m.core with issueT := s.time.dur, yielded := none } s

/-- The core with the cycle of the bundle counted (R177), before what the bundle does. -/
def issueCell (m : Iss) (s : State) : Cell :=
  passCycles 1 { cellOf s m.core with issueT := s.time.dur, yielded := none }

/-- What undoes the bundle when it is withheld at its wait (R159, R194). -/
def issueUndo (m : Iss) (dst : BitVec 10) (s : State) : Undo :=
  { undoOf (cellOf s m.core).run (cellOf s m.core) with wrote := moveGroups (isHub m.core) [ownMove m dst s] }

/-- The core at the end of the bundle: `c` is the core with what the bundle did; the bank goes on to the next
bundle, delay bundle or repetition (R109 to R117). -/
def endsBundle (m : Iss) (dst : BitVec 10) (s : State) (c : Cell) : Cell :=
  let hub := isHub m.core
  let k0 := issueBank m s
  let b := (cellOf s m.core).run
  let sl := issSlots m dst
  let k := advance k0 (repZero hub (ownMove m dst s))
    (slotDelayed hub sl.1 || (sl.1.form != 2 && slotDelayed hub sl.2)) (bankOf c b)
  { setBank b k c with held := if k.ract && k0.ract then some (sl.1.word, sl.2.word) else none,
                       stallPc := if c.stall = .none then none else some k0.pcc.addr }

/-- The state after a bundle that changed nothing but its core: `f` is what the bundle did to the core. -/
def afterBundle (m : Iss) (dst : BitVec 10) (s : State) (f : Cell → Cell) : State :=
  setCell m.core (endsBundle m dst s (f (issueCell m s))) s

end Sys2Proof.Machine
end

