-- ==== Sys2Proof/Certificates/Slice0/Obligations.lean ====
section
/-! DEFINITION. The statements for the provers, with the terms they need beside those of Safety. -/

open Sys2Proof Sys2Proof.Machine

/-! ## The block as a whole -/

/-- A step of a block whose queue has a command at its front is that command, with the rest of the queue. -/
def Obligations.StepRunsFront : Prop :=
  ∀ (i : Instr) (s : State), step { s with pending := i :: s.pending } = exec i s

namespace Sys2Proof.Machine

/-- An operation with a latency of `lat` starts in the bundle: what it will write, in the bank that triggered it, is due
`lat - 1` cycles after the bundle's cycle (R123). -/
def starts (m : Iss) (s : State) (lat : Nat) (u : LatUnit) (w : Wr) (c : Cell) : Cell :=
  { c with fly := [{ due := (cellOf s m.core).now + lat - 1, bank := (cellOf s m.core).run, unit := u, wr := w }] }

/-- A check of the command's operands passes with `r`, both where the bundle's checks stand and in the bundle's cycle, and
leaves the state as it is (its translation walks nothing: bare mode, or the TLB holds it). -/
def Steady {α : Type} (f : State → State × Except Flt α) (m : Iss) (s : State) (r : α) : Prop :=
  f (issueStart m s) = (issueStart m s, .ok r)
    ∧ f (setCell m.core (issueCell m s) s) = (setCell m.core (issueCell m s) s, .ok r)

/-! ## Integer arithmetic (R127 to R137) -/

/-- The alu commands. -/
def aluInstr (unit1 : Bool) (op : AluOp) (m : Iss) : Instr :=
  match op with
  | .add => .aluTAdd unit1 m | .sub => .aluTSub unit1 m | .and => .aluTAnd unit1 m | .or => .aluTOr unit1 m
  | .xor => .aluTXor unit1 m | .andn => .aluTAndn unit1 m | .neg => .aluTNeg unit1 m | .min => .aluTMin unit1 m
  | .max => .aluTMax unit1 m | .minu => .aluTMinu unit1 m | .maxu => .aluTMaxu unit1 m | .eq => .aluTEq unit1 m
  | .ne => .aluTNe unit1 m | .lt => .aluTLt unit1 m | .ltu => .aluTLtu unit1 m | .ge => .aluTGe unit1 m
  | .geu => .aluTGeu unit1 m | .tst => .aluTTst unit1 m | .tstz => .aluTTstz unit1 m

/-- The trigger port of an alu operation: 0x048 to 0x05F for alu0, 0x20 above for alu1. -/
def aluTrigPort (unit1 : Bool) (op : AluOp) : BitVec 10 :=
  (match op with
   | .add => 0x048 | .sub => 0x049 | .and => 0x04A | .or => 0x04B | .xor => 0x04C | .andn => 0x04D | .neg => 0x04E
   | .min => 0x04F | .max => 0x050 | .minu => 0x051 | .maxu => 0x052 | .eq => 0x058 | .ne => 0x059 | .lt => 0x05A
   | .ltu => 0x05B | .ge => 0x05C | .geu => 0x05D | .tst => 0x05E | .tstz => 0x05F)
  + (if unit1 then 0x020 else 0x000)

/-- The number that an alu operation gives, before it is taken modulo 2^64 (R127). -/
def aluNumber (op : AluOp) (o t : W) : Int :=
  match op with
  | .add => o.toInt + t.toInt
  | .sub => o.toInt - t.toInt
  | .and => (o.toNat &&& t.toNat : Nat)
  | .or => (o.toNat ||| t.toNat : Nat)
  | .xor => (o.toNat ^^^ t.toNat : Nat)
  | .andn => (o.toNat - (o.toNat &&& t.toNat) : Nat)
  | .neg => -t.toInt
  | .min => min o.toInt t.toInt
  | .max => max o.toInt t.toInt
  | .minu => (min o.toNat t.toNat : Nat)
  | .maxu => (max o.toNat t.toNat : Nat)
  | .eq => if o.toNat = t.toNat then 1 else 0
  | .ne => if o.toNat = t.toNat then 0 else 1
  | .lt => if o.toInt < t.toInt then 1 else 0
  | .ltu => if o.toNat < t.toNat then 1 else 0
  | .ge => if t.toInt ≤ o.toInt then 1 else 0
  | .geu => if t.toNat ≤ o.toNat then 1 else 0
  | .tst => if o.toNat &&& t.toNat = 0 then 0 else 1
  | .tstz => if o.toNat &&& t.toNat = 0 then 1 else 0

/-- The operations that are compares (R127). -/
def isCompare (op : AluOp) : Bool := [.eq, .ne, .lt, .ltu, .ge, .geu, .tst, .tstz].contains op

/-- What an alu operation writes: its number to the result port, and a compare's truth to the guard that og[2:0]
selects, 0 selecting none (R127, R128). -/
def aluWrites (unit1 : Bool) (op : AluOp) (t : W) (k : Bank) : Bank :=
  let base := if unit1 then 0x060 else 0x040
  let v := aluNumber op (portX k base) t
  let g := (portX k (base + 1)).toNat % 8
  let k := setX (base + 2) (BitVec.ofInt 64 v) k
  if isCompare op ∧ g ≠ 0 then { k with g := if v = 1 then k.g ||| BitVec.ofNat 8 (2 ^ g)
                                             else k.g &&& ~~~ BitVec.ofNat 8 (2 ^ g) } else k

end Sys2Proof.Machine

/-- Every alu operation, on either alu, writes its result in the cycle of its bundle, and nothing but its core
changes: the result port, the selected guard of a compare, and what every bundle changes. -/
def Sys2Proof.Machine.AluResults : Prop :=
  ∀ (unit1 : Bool) (op : AluOp) (m : Iss) (s : State), Ready m (aluTrigPort unit1 op) s →
    exec (aluInstr unit1 op m) s =
      .next (afterBundle m (aluTrigPort unit1 op) s
        (modRun (fun k => markDirty 7 (aluWrites unit1 op (valD (srcVal m s)) k))))

namespace Sys2Proof.Machine

/-- The shf commands. -/
def shfInstr (op : ShfOp) (m : Iss) : Instr :=
  match op with
  | .shl => .shfTShl m | .shr => .shfTShr m | .sar => .shfTSar m | .rol => .shfTRol m | .ror => .shfTRor m
  | .ext => .shfTExt m | .exts => .shfTExts m | .ins => .shfTIns m | .clz => .shfTClz m | .ctz => .shfTCtz m
  | .popc => .shfTPopc m | .bswap => .shfTBswap m

/-- The trigger port of a shf operation. -/
def shfTrigPort (op : ShfOp) : BitVec 10 :=
  match op with
  | .shl => 0x0A8 | .shr => 0x0A9 | .sar => 0x0AA | .rol => 0x0AB | .ror => 0x0AC | .ext => 0x0AD | .exts => 0x0AE
  | .ins => 0x0AF | .clz => 0x0B0 | .ctz => 0x0B1 | .popc => 0x0B2 | .bswap => 0x0B3

/-- The first bit of the field that a descriptor names, and how many of its bits lie in the word (R135, R136). -/
def fieldPos (t : W) : Nat := t.toNat % 64
def fieldWidth (t : W) : Nat := min (t.toNat / 64 % 128) (64 - t.toNat % 64)

/-- The number that a shf operation gives, before it is taken modulo 2^64 (R135, R136). -/
def shfNumber (op : ShfOp) (o om t : W) : Int :=
  let p := fieldPos t
  let w := fieldWidth t
  let r := t.toNat % 64
  match op with
  | .shl => (o.toNat * 2 ^ t.toNat : Nat)
  | .shr => (o.toNat / 2 ^ t.toNat : Nat)
  | .sar => o.toInt / 2 ^ t.toNat
  | .rol => (o.toNat * 2 ^ r + o.toNat / 2 ^ (64 - r) : Nat)
  | .ror => (o.toNat / 2 ^ r + o.toNat * 2 ^ (64 - r) : Nat)
  | .ext => (o.toNat / 2 ^ p % 2 ^ w : Nat)
  | .exts => if 0 < w ∧ (o.toNat / 2 ^ (p + w - 1)) % 2 = 1 then (o.toNat / 2 ^ p % 2 ^ w : Nat) - (2 ^ w : Int)
             else (o.toNat / 2 ^ p % 2 ^ w : Nat)
  | .ins => (o.toNat % 2 ^ p + (om.toNat % 2 ^ w) * 2 ^ p + (o.toNat / 2 ^ (p + w)) * 2 ^ (p + w) : Nat)
  | .clz => (64 - Nat.size t.toNat : Nat)
  | .ctz => (if t = 0 then 64 else padicValNat 2 t.toNat : Nat)
  | .popc => ((List.range 64).countP (fun i => t.getLsbD i) : Nat)
  | .bswap => (((List.range 8).map (fun i => t.toNat / 256 ^ i % 256 * 256 ^ (7 - i))).sum : Nat)

end Sys2Proof.Machine

/-- Every shf operation writes its result to port 0x0A2 in the cycle of its bundle, from o (0x0A0), om (0x0A1) and t,
and nothing but its core changes. -/
def Sys2Proof.Machine.ShfResults : Prop :=
  ∀ (op : ShfOp) (m : Iss) (s : State), Ready m (shfTrigPort op) s →
    exec (shfInstr op m) s =
      .next (afterBundle m (shfTrigPort op) s
        (modRun (fun k => markDirty 7 (setX 0x0A2
          (BitVec.ofInt 64 (shfNumber op (portX k 0x0A0) (portX k 0x0A1) (valD (srcVal m s)))) k))))

/-- Every alu and every shf operation writes its result in the cycle of its bundle, and nothing but its core changes. -/
def Obligations.SingleCycleResults : Prop := AluResults ∧ ShfResults

namespace Sys2Proof.Machine

/-- The mul commands. -/
def mulInstr (op : MulOp) (m : Iss) : Instr :=
  match op with
  | .mul => .mulTMul m | .mulh => .mulTMulh m | .mulhu => .mulTMulhu m | .mulhsu => .mulTMulhsu m

/-- The trigger port of a mul operation. -/
def mulTrigPort (op : MulOp) : BitVec 10 :=
  match op with
  | .mul => 0x088 | .mulh => 0x089 | .mulhu => 0x08A | .mulhsu => 0x08B

/-- The half of the exact product that a mul operation gives (R129). -/
def mulNumber (op : MulOp) (o t : W) : Int :=
  match op with
  | .mul => (o.toNat : Int) * t.toNat
  | .mulh => o.toInt * t.toInt / 2 ^ 64
  | .mulhu => (o.toNat : Int) * t.toNat / 2 ^ 64
  | .mulhsu => o.toInt * t.toNat / 2 ^ 64

end Sys2Proof.Machine

/-- A mul operation starts: its half of the exact product of o (0x080) and t will be written to 0x081 two cycles after
the cycle of its bundle (a latency of 3), in the bank that triggered it; nothing else but the core's bundle changes. -/
def Sys2Proof.Machine.MulStarts : Prop :=
  ∀ (op : MulOp) (m : Iss) (s : State), Ready m (mulTrigPort op) s →
    exec (mulInstr op m) s =
      .next (afterBundle m (mulTrigPort op) s (starts m s 3 .mul
        (.ports [(0x081, BitVec.ofInt 64 (mulNumber op (portX (issueBank m s) 0x080) (valD (srcVal m s))))])))

namespace Sys2Proof.Machine

/-- Quotient and remainder, rounding towards zero (R130). -/
def divNumbers (signed : Bool) (o t : W) : Int × Int :=
  if signed then
    let q : Int := (o.toInt.natAbs / t.toInt.natAbs : Nat)
    let q := if (o.toInt < 0) = (t.toInt < 0) then q else -q
    (q, o.toInt - q * t.toInt)
  else ((o.toNat / t.toNat : Nat), (o.toNat % t.toNat : Nat))

/-- The latency of a division by t ≠ 0: 18 cycles, and 3 for every 4 bits or part of them by which the dividend's
magnitude is longer than the divisor's, and one bit (R131). -/
def divCycles (signed : Bool) (o t : W) : Nat :=
  let len : W → Nat := fun w => Nat.size (if signed then w.toInt.natAbs else w.toNat)
  18 + 3 * ((len o + 1 - len t + 3) / 4)

end Sys2Proof.Machine

/-- A division with a divisor other than 0 starts, its results to be written to 0x091 and 0x092 together at its
latency; by 0 it takes the exception DIVZ, which says where the bundle traps; a fault that reaches the level-1 handler has its
compartment stopped (R454). -/
def Sys2Proof.Machine.DivStarts : Prop :=
  (∀ (signed : Bool) (m : Iss) (s : State), Ready m (if signed then 0x098 else 0x099) s → valD (srcVal m s) ≠ 0 →
    exec (if signed then .divTDivs m else .divTDivu m) s =
      .next (afterBundle m (if signed then 0x098 else 0x099) s (fun c =>
        let o := portX (issueBank m s) 0x090
        let t := valD (srcVal m s)
        { c with div := { cur := some ((cellOf s m.core).now + divCycles signed o t - 1,
                            { bank := (cellOf s m.core).run, lat := divCycles signed o t,
                              wr := [(0x091, BitVec.ofInt 64 (divNumbers signed o t).1),
                                     (0x092, BitVec.ofInt 64 (divNumbers signed o t).2)] }),
                          wait := [] } })))
  ∧ (∀ (signed : Bool) (m : Iss) (s : State), Ready m (if signed then 0x098 else 0x099) s → valD (srcVal m s) = 0 →
    exec (if signed then .divTDivs m else .divTDivu m) s =
      .next (noteFault m.core s (raiseSync m.core
        { code := causeDivz, faddr := (issueBank m s).pcc.addr,
          finfo := BitVec.ofNat 64 ((if signed then 0x098 else 0x099) * 256) } (issueStart m s) m.vret)))

/-- A mul operation and a division start, their results to be written at their latencies; a division by 0 takes DIVZ. -/
def Obligations.MulAndDivStart : Prop := MulStarts ∧ DivStarts

/-! ## Register moves, cap, mac and ph (R104, R67, R155 to R161) -/

namespace Sys2Proof.Machine

/-- A value as a word, as a capability, as an accumulator's 80 bits and as a guard bit: the cross-class moves (R104). -/
def asWord (v : Val) : W :=
  match v with
  | .d w => w | .c c => c.addr | .a x => BitVec.ofNat 64 x.toNat | .g b => if b then 1 else 0
def asCap (v : Val) : Cap :=
  match v with
  | .c c => c
  | v => { addr := asWord v, hi := 0, tag := false }
def asAcc (v : Val) : BitVec 80 :=
  match v with
  | .a x => x
  | .g b => if b then 1 else 0
  | v => BitVec.ofInt 80 (asWord v).toInt
def asGuard (v : Val) : Bool :=
  match v with
  | .d w => decide (w ≠ 0) | .c c => c.tag | .a x => decide (x ≠ 0) | .g b => b

end Sys2Proof.Machine

/-- A move to a d or c register, an accumulator, a guard, an operand port or a control port gives it the source's value,
converted to its class, marks its register group dirty, and changes nothing else but what every bundle changes. g0 is no
destination (R98), and cap operands of mem remember the register they came from (R139). -/
def Obligations.RegisterMoves : Prop :=
  ∀ (dst : BitVec 10) (m : Iss) (s : State), Ready m dst s →
    let p := dst.toNat
    let v := srcVal m s
    let done := fun (f : Bank → Bank) =>
      exec (.registerMove dst m) s = .next (afterBundle m dst s (modRun (fun k => markDirty (groupOf p) (f k))))
    (p < 0x20 → done (setX p (asWord v)))
    ∧ (0x20 ≤ p ∧ p < 0x30 → done (setC p (asCap v)))
    ∧ (0x30 ≤ p ∧ p < 0x34 → done (setA (p - 0x30) (asAcc v)))
    ∧ (0x39 ≤ p ∧ p < 0x40 → done (fun k => { k with g := if asGuard v then k.g ||| BitVec.ofNat 8 (2 ^ (p - 0x38))
                                                        else k.g &&& ~~~ BitVec.ofNat 8 (2 ^ (p - 0x38)) }))
    ∧ (p ∈ [0x040, 0x041, 0x060, 0x061, 0x080, 0x090, 0x0A0, 0x0A1, 0x0C1, 0x140, 0x141, 0x161, 0x172, 0x190, 0x1A0, 0x1A1] →
        done (setX p (asWord v)))
    ∧ (p ∈ [0x0C2, 0x100, 0x160, 0x170, 0x171, 0x1A2] → done (setC p (asCap v)))
    ∧ (p = 0x0C0 → done (fun k => setC 0x0C0 (asCap v) { k with memSrc :=
        match m.src with | .port q => (if 0x20 ≤ q.toNat ∧ q.toNat < 0x30 then q.toNat - 0x20 else 0x1F) | _ => 0x1F }))
    ∧ (p = 0x210 → done (fun k => { k with mask := (asWord v).toNat / 16 % 8, asid := (asWord v).toNat / 256 % 256 }))
    ∧ (p = 0x214 → done (fun k => { k with fpcc := asCap v, fpLim := none, fpccW := true }))
    ∧ (p = 0x220 → done (fun k => { k with krrl := asWord v }))
    ∧ (p = 0x221 → done (fun k => { k with krrh := asWord v }))

namespace Sys2Proof.Machine

/-- The cap commands. -/
def capInstr (op : CapOp) (m : Iss) : Instr :=
  match op with
  | .setaddr => .capTSetaddr m | .incaddr => .capTIncaddr m | .bnd => .capTBnd m | .bnde => .capTBnde m
  | .andperm => .capTAndperm m | .seal => .capTSeal m | .unseal => .capTUnseal m | .land => .capTLand m
  | .grain => .capTGrain m | .cover => .capTCover m | .getbase => .capTGetbase m | .getlen => .capTGetlen m
  | .getmeta => .capTGetmeta m | .subset => .capTSubset m | .chk => .capTChk m

/-- The trigger port of a cap operation. -/
def capTrigPort (op : CapOp) : BitVec 10 :=
  match op with
  | .setaddr => 0x108 | .incaddr => 0x109 | .bnd => 0x10A | .bnde => 0x10B | .andperm => 0x10C | .seal => 0x10D
  | .unseal => 0x10E | .land => 0x10F | .grain => 0x110 | .cover => 0x111 | .getbase => 0x112 | .getlen => 0x113
  | .getmeta => 0x114 | .subset => 0x115 | .chk => 0x116

/-- A capability with tag, no seal, for a derivation (R62, R69). -/
def plainCap (c : Cap) : Prop := c.tag = true ∧ capOtype c = 0

/-- An address lies in the representable region (R54). -/
def inRegion (c : Cap) (a : Int) : Prop := capBase c ≤ a ∧ a < capBase c + 2 ^ (capExp c + 14)

/-- What a cap operation that succeeds gives: a capability with the named fields, or a word (R54 to R57, R63 to R67). -/
def capGives (op : CapOp) (oc : Cap) (td : W) (tc : Cap) (r : CapRes) : Prop :=
  match op with
  | .setaddr => ¬(oc.tag = true ∧ capOtype oc ≠ 0) →
      ∃ g : Bool, r = .cap { oc with addr := td, tag := g } ∧ (g = true ↔ oc.tag = true ∧ inRegion oc td.toNat)
  | .incaddr => ¬(oc.tag = true ∧ capOtype oc ≠ 0) →
      ∃ g : Bool, r = .cap { oc with addr := oc.addr + td, tag := g } ∧
        (g = true ↔ oc.tag = true ∧ inRegion oc ((oc.addr.toNat + td.toNat) % 2 ^ 64 : Nat))
  | .bnd => plainCap oc →
      ∃ e b t : Nat, (2 ^ e ∣ b) ∧ (2 ^ e ∣ t) ∧ b ≤ oc.addr.toNat ∧ oc.addr.toNat < b + 2 ^ e
        ∧ oc.addr.toNat + td.toNat ≤ t ∧ t < oc.addr.toNat + td.toNat + 2 ^ e ∧ t - b ≤ 2 ^ (e + 14)
        ∧ (capBase oc ≤ b ∧ t ≤ capTop oc →
            ∃ c : Cap, r = .cap c ∧ c.tag = true ∧ c.addr = oc.addr ∧ capBase c = b ∧ capTop c = t
              ∧ capPerms c = capPerms oc ∧ capOtype c = 0)
        ∧ (¬(capBase oc ≤ b ∧ t ≤ capTop oc) → r = .fail .operand ⟨0x05, 0x6, 0⟩)
  | .bnde => plainCap oc → capBase oc ≤ oc.addr.toNat → (oc.addr.toNat + td.toNat : Int) ≤ capTop oc →
      2 ^ expFor td.toNat ∣ oc.addr.toNat → 2 ^ expFor td.toNat ∣ td.toNat →
        ∃ c : Cap, r = .cap c ∧ c.tag = true ∧ c.addr = oc.addr ∧ capBase c = oc.addr.toNat
          ∧ capTop c = oc.addr.toNat + td.toNat ∧ capPerms c = capPerms oc ∧ capOtype c = 0
  | .andperm => plainCap oc →
      ∃ c : Cap, r = .cap c ∧ c.tag = true ∧ c.addr = oc.addr ∧ capBase c = capBase oc ∧ capTop c = capTop oc
        ∧ capOtype c = 0 ∧ (∀ i < 12, (capPerms c).getLsbD i = ((capPerms oc).getLsbD i && td.getLsbD i && i != 11))
  | .seal => plainCap oc → plainCap tc → (capPerms tc).getLsbD 7 = true →
      capBase tc ≤ tc.addr.toNat → (tc.addr.toNat : Int) < capTop tc → sealableOtype tc.addr.toNat = true →
        ∃ c : Cap, r = .cap c ∧ c.tag = true ∧ c.addr = oc.addr ∧ capBase c = capBase oc ∧ capTop c = capTop oc
          ∧ capPerms c = capPerms oc ∧ (capOtype c).toNat = tc.addr.toNat
  | .unseal => oc.tag = true → capOtype oc ≠ 0 → plainCap tc → (capPerms tc).getLsbD 8 = true →
      capBase tc ≤ tc.addr.toNat → (tc.addr.toNat : Int) < capTop tc → tc.addr.toNat = (capOtype oc).toNat →
        ∃ c : Cap, r = .cap c ∧ c.tag = true ∧ c.addr = oc.addr ∧ capBase c = capBase oc ∧ capTop c = capTop oc
          ∧ capOtype c = 0 ∧ (∀ i < 12, (capPerms c).getLsbD i = ((capPerms oc).getLsbD i
                && (i != 0 || (capPerms tc).getLsbD 0)))
  | .land => plainCap oc → (capPerms oc).getLsbD 1 = true → oc.addr.toNat % 8 = 0 → capBase oc ≤ oc.addr.toNat →
      (oc.addr.toNat : Int) + 8 ≤ capTop oc →
        ∃ c : Cap, r = .cap c ∧ c.tag = true ∧ c.addr = oc.addr ∧ capBase c = capBase oc ∧ capTop c = capTop oc
          ∧ capPerms c = capPerms oc ∧ capOtype c = 0x001
  | .grain => ∃ e : Nat, r = .word (BitVec.ofNat 64 (2 ^ e)) ∧
      (td.toNat ≤ 16384 → e = 0) ∧ (16384 < td.toNat → td.toNat ≤ 2 ^ (e + 14) ∧ 2 ^ (e + 13) < td.toNat)
  | .cover => ∀ e b t : Nat, bndOf oc.addr.toNat td.toNat = (e, b, t) → t - b < 2 ^ 64 →
      r = .word (BitVec.ofNat 64 (t - b))
  | .getbase => r = .word (BitVec.ofInt 64 (capBase oc))
  | .getlen => r = .word (BitVec.ofNat 64 (if capTop oc - capBase oc < 2 ^ 64 then (capTop oc - capBase oc).toNat
      else 2 ^ 64 - 1))
  | .getmeta => r = .word (BitVec.ofNat 64 ((capPerms oc).toNat + (capOtype oc).toNat * 65536
      + (if oc.tag then 2 ^ 32 else 0)))
  | .subset => ∃ g : Bool, r = .word (if g then 1 else 0) ∧ (g = true ↔ oc.tag = true ∧ capBase tc ≤ capBase oc
      ∧ capTop oc ≤ capTop tc ∧ ∀ i < 12, (capPerms oc).getLsbD i = true → (capPerms tc).getLsbD i = true)
  | .chk => ∃ n : Nat, r = .word (BitVec.ofNat 64 n) ∧ (n = 0 ↔ capCheck oc
      ((oc.addr.toNat + td.toNat / 2 ^ 32 + (if td.toNat / 2 ^ 63 = 1 then 2 ^ 64 - 2 ^ 32 else 0)) % 2 ^ 64)
      (td.toNat % 256) (BitVec.ofNat 12 (td.toNat / 256)) (td.getLsbD 20) (td.getLsbD 21) = none)

end Sys2Proof.Machine

/-- Each cap operation, when its checks pass, gives the capability or the word that the spec's rule names; the
operands are cap.oc (0x100) and the trigger's. Of cap.t.cover, lengths below 2^64 are stated (log entry 12). -/
def Obligations.CapValues : Prop :=
  ∀ (op : CapOp) (oc tc : Cap) (td : W), capGives op oc td tc (capOp op oc td tc)

/-- Every derivation is monotonic: a tagged result comes only from a tagged operand, and has no bounds outside its
operand's and no permission that its operand lacks (of R68, what one operation shows). R69: the address operations and the
read-only operations accept untagged operands and return untagged results without a fault, and the derivation operations fault
with TAG (0x02), reason kind 0xA, when the operand, or for cap.t.seal and cap.t.unseal the authority, is untagged. -/
def Obligations.CapMonotonic : Prop :=
  (∀ (op : CapOp) (oc tc c : Cap) (td : W), capOp op oc td tc = .cap c → c.tag = true →
    oc.tag = true ∧ capBase oc ≤ capBase c ∧ capTop c ≤ capTop oc
      ∧ ∀ i < 12, (capPerms c).getLsbD i = true → (capPerms oc).getLsbD i = true)
  ∧ (∀ (op : CapOp) (oc tc : Cap) (td : W),
    (op ∈ [CapOp.setaddr, .incaddr] → oc.tag = false → ∃ c, capOp op oc td tc = .cap c ∧ c.tag = false)
    ∧ (op ∈ [CapOp.grain, .cover, .getbase, .getlen, .getmeta, .subset, .chk] → ∃ w, capOp op oc td tc = .word w)
    ∧ (op ∈ [CapOp.bnd, .bnde, .andperm, .seal, .unseal, .land] →
        oc.tag = false ∨ (tc.tag = false ∧ op ∈ [CapOp.seal, .unseal]) →
          ∃ who, capOp op oc td tc = .fail who ⟨0x02, 0xA, 0⟩))

/-- A cap operation whose value is a capability writes it to cap.rc (0x101), and one whose value is a word to cap.rd (0x102),
one cycle after its bundle's cycle (a latency of 2); one whose check fails takes its exception, with no move of its bundle in
effect. -/
def Obligations.CapStarts : Prop :=
  ∀ (op : CapOp) (m : Iss) (s : State), Ready m (capTrigPort op) s →
    let fly := fun (w : Wr) => afterBundle m (capTrigPort op) s (starts m s 2 .cap w)
    match capOp op (portC (issueBank m s) 0x100) (valD (srcVal m s)) (valC (srcVal m s)) with
    | .cap c => exec (capInstr op m) s = .next (fly (.cport 0x101 c))
    | .word w => exec (capInstr op m) s = .next (fly (.ports [(0x102, w)]))
    | .fail who f => exec (capInstr op m) s =
        .next (noteFault m.core s (raiseSync m.core
          (match who with
           | .operand => capFault 0x1F (portC (issueBank m s) 0x100).addr 0 f
           | .authority => capFault (srcCode (ownMove m (capTrigPort op) s).src) (valC (srcVal m s)).addr 0 f)
          (issueStart m s) m.vret))

namespace Sys2Proof.Machine

/-- The mac commands that write an accumulator, and the read-outs. -/
def macInstr (op : MacOp) (m : Iss) : Instr :=
  match op with
  | .dot => .macTDot m | .dotn => .macTDotn m | .cre => .macTCre m | .cim => .macTCim m | .mul => .macTMul m
  | .set => .macTSet m | .sar => .macTSar m
def macTrigPort (op : MacOp) : BitVec 10 :=
  match op with
  | .dot => 0x148 | .dotn => 0x149 | .cre => 0x14A | .cim => 0x14B | .mul => 0x14C | .set => 0x14D | .sar => 0x14E
def macReadInstr (op : MacRd) (m : Iss) : Instr :=
  match op with
  | .rds => .macTRds m | .rdw => .macTRdw m | .rdr => .macTRdr m | .rdt => .macTRdt m
def macReadPort (op : MacRd) : BitVec 10 :=
  match op with
  | .rds => 0x150 | .rdw => 0x151 | .rdr => 0x152 | .rdt => 0x153

/-- A number limited to `n` bits, signed. -/
def saturate (n : Nat) (v : Int) : Int := max (-2 ^ (n - 1)) (min (2 ^ (n - 1) - 1) v)

/-- The signed 32-bit lane `i` of a word. -/
def lane (w : W) (i : Nat) : Int := (BitVec.ofNat 32 (w.toNat / 2 ^ (32 * i))).toInt

/-- The exact result of an accumulate on an accumulator that holds `a` (R155). -/
def macNumber (op : MacOp) (a : Int) (o t : W) : Int :=
  match op with
  | .dot => a + lane o 0 * lane t 0 + lane o 1 * lane t 1
  | .dotn => a - lane o 0 * lane t 0 - lane o 1 * lane t 1
  | .cre => a + lane o 0 * lane t 0 - lane o 1 * lane t 1
  | .cim => a + lane o 0 * lane t 1 + lane o 1 * lane t 0
  | .mul => lane o 0 * lane t 0 + lane o 1 * lane t 1
  | .set => t.toInt
  | .sar => a / 2 ^ (t.toNat % 128)

/-- What a read-out of an accumulator that holds `a` gives (R156). -/
def macReadNumber (op : MacRd) (a : Int) (t : W) : Int :=
  let n := t.toNat % 128
  match op with
  | .rds => saturate 64 (a / 2 ^ n)
  | .rdw => saturate 32 (a / 2 ^ n)
  | .rdr => saturate 64 ((2 * a + 2 ^ n) / (2 * 2 ^ n))
  | .rdt => a / 2 ^ n

end Sys2Proof.Machine

/-- A mac operation starts on the accumulator that mac.sel[1:0] (0x141) names: an accumulate or a write of the accumulator
is due three cycles after its bundle's (a latency of 4), a read-out of the value at the trigger is due at mac.r (0x142) one
cycle after (a latency of 2), and mac.t.stclr clears the sticky flags that t[3:0] names at once. -/
def Sys2Proof.Machine.MacStarts : Prop :=
  (∀ (op : MacOp) (m : Iss) (s : State), Ready m (macTrigPort op) s →
    exec (macInstr op m) s = .next (afterBundle m (macTrigPort op) s (starts m s 4 .macAcc
      (.acc op ((portX (issueBank m s) 0x141).toNat % 4) (portX (issueBank m s) 0x140) (valD (srcVal m s))))))
  ∧ (∀ (op : MacRd) (m : Iss) (s : State), Ready m (macReadPort op) s →
    exec (macReadInstr op m) s = .next (afterBundle m (macReadPort op) s (starts m s 2 .macRd
      (.ports [(0x142, BitVec.ofInt 64 (macReadNumber op
        (tblGet 0 (issueBank m s).a ((portX (issueBank m s) 0x141).toNat % 4)).toInt (valD (srcVal m s))))]))))
  ∧ (∀ (m : Iss) (s : State), Ready m 0x154 s →
    exec (.macTStclr m) s = .next (afterBundle m 0x154 s (modRun (fun k =>
      markDirty 7 (setX 0x143 (portX k 0x143 &&& ~~~ BitVec.ofNat 64 ((valD (srcVal m s)).toNat % 16)) k)))))

namespace Sys2Proof.Machine

/-- What an operation in flight leaves in its bank when it is due: a port's word, a port's capability, or an accumulator's
new value, saturated to 80 bits with its sticky flag in mac.st (0x143) set when it saturates (R123, R155); an element that a
restore has read becomes its register, an accumulator by its low 80 bits (R147). -/
def arrives (w : Wr) (k : Bank) : Bank :=
  match w with
  | .ports l => markDirty 7 (l.foldl (fun k e => setX e.1 e.2 k) k)
  | .cport p v => markDirty 7 (setC p v k)
  | .acc op sel o t =>
    let v := macNumber op (tblGet 0 k.a sel).toInt o t
    let k := markDirty 6 (setA sel (BitVec.ofInt 80 (saturate 80 v)) k)
    if saturate 80 v = v then k else markDirty 7 (setX 0x143 (portX k 0x143 ||| BitVec.ofNat 64 (2 ^ sel)) k)
  | .elem i bs tag =>
    if i < 32 then markDirty (i / 8) (setX i (BitVec.ofNat 64 (leNat bs)) k)
    else if i < 48 then markDirty (i / 8) (setC i { addr := BitVec.ofNat 64 (leNat (bs.take 8)),
                                                    hi := BitVec.ofNat 64 (leNat (bs.drop 8)), tag := tag } k)
    else markDirty 6 (setA (i - 48) (BitVec.ofNat 80 (leNat (bs.take 10))) k)

/-- The commands for the results of the pipelined units, each with its unit. -/
def resultRows (core : Nat) : List (LatUnit × Instr) :=
  [(.mul, .mulResult core), (.cap, .capResult core), (.macAcc, .macAccumulateWrite core), (.macRd, .macReadoutWrite core)]

end Sys2Proof.Machine

/-- The oldest operation in flight of a unit writes its result in its cycle, in the bank that triggered it: the cycles up
to its own pass, it leaves the operations in flight, and nothing but its core changes. -/
def Sys2Proof.Machine.ResultsArrive : Prop :=
  ∀ (core : Nat) (r : LatUnit × Instr) (s : State) (f : FlyOp), serves core s → r ∈ resultRows core →
    f.unit = r.1 → (cellOf s core).fly.filter (fun g => decide (g.due ≤ f.due)) = [f] →
    (cellOf s core).div.cur = none → (cellOf s core).ph.cur = none →
      let c := passCycles (f.due + 1 - (cellOf s core).now) (cellOf s core)
      exec r.2 s = .next (setCell core
        { setBank f.bank (arrives f.wr (bankOf c f.bank)) c with
          fly := (cellOf s core).fly.filter (fun g => decide (f.due < g.due)) } s)

/-- A division or a fit in progress with none waiting writes both its results together in its last cycle, in the bank that
triggered it, and its unit is free. -/
def Sys2Proof.Machine.DivisionAndFitArrive : Prop :=
  ∀ (core due : Nat) (j : NpJob) (s : State), serves core s → (cellOf s core).fly = [] →
    let c := passCycles (due + 1 - (cellOf s core).now) (cellOf s core)
    ((cellOf s core).div = { cur := some (due, j), wait := [] } → (cellOf s core).ph.cur = none →
      exec (.divResult core) s = .next (setCell core
        { setBank j.bank (arrives (.ports j.wr) (bankOf c j.bank)) c with div := {} } s))
    ∧ ((cellOf s core).ph = { cur := some (due, j), wait := [] } → (cellOf s core).div.cur = none →
      exec (.phResult core) s = .next (setCell core
        { setBank j.bank (arrives (.ports j.wr) (bankOf c j.bank)) c with ph := {} } s))

/-- What the units with a latency have in flight is written in its cycle, in the bank that triggered it. -/
def Obligations.LatentResultsArrive : Prop := ResultsArrive ∧ DivisionAndFitArrive

/-- A fit over a window that the unit accepts and the core can reach starts; the window is read at the trigger, and the
fit's two results will be written to 0x162 and 0x163 at its latency, which is 8 and a cycle for every 4 samples for a DFT,
and 16 and a cycle for every 2 samples for a track (R159 to R161). A window that is not wholly in the cell's store or its
data cache takes longer, by a free value, and its lines are taken into the caches (R161, R277). -/
def Sys2Proof.Machine.FitStarts : Prop :=
  ∀ (track : Bool) (m : Iss) (s : State) (ps : List (Nat × Nat)) (ok : Bool),
    let dst : BitVec 10 := if track then 0x169 else 0x168
    let t := valD (srcVal m s)
    Ready m dst s → t.toNat < 65536 → 32 ≤ t.toNat % 512 → t.toNat % 512 ≤ 256 →
    (t.getLsbD 9 = true → t.toNat % 512 ≤ 64) →
    Steady (phReach (issueCtx m dst s) t) m s (ps, ok) → m.ret = .ok → piecesBad s false 0 (partPieces ps) = none →
      let near := phNear s m.core ps
      let w := phWindow t (partsRead (setCell m.core (issueCell m s) s) ps)
      let r := phResult track ((portX (issueBank m s) 0x161).toNat % 2 ^ 32) w.1 w.2.1 w.2.2
      let lat := (if track then 16 + (t.toNat % 512 + 1) / 2 else 8 + (t.toNat % 512 + 3) / 4)
        + (if near then 0 else Config.phFetch s.fresh)
      exec (if track then .phTTrk m else .phTDft m) s =
        .next (afterBundle m dst (linesFill m.core ps (if near then s else bumpFresh s)) (fun c =>
        { c with ph := { cur := some ((cellOf s m.core).now + lat - 1,
                           { bank := (cellOf s m.core).run, lat := lat, wr := [(0x162, r.1), (0x163, r.2)] }),
                         wait := [] } }))

/-- The mac operations start, read an accumulator out or clear its sticky flags, and a fit of the ph unit starts. What a fit
gives is computed from the equations of R159 to the precision of log entry 13. -/
def Obligations.MacAndPhStart : Prop := MacStarts ∧ FitStarts

/-! ## Loads, stores and blocks (R59, R60, R138 to R151, R278, R279) -/

namespace Sys2Proof.Machine

/-- The `n` bytes from `a` lie in on-chip memory or in DDR4 (R35). -/
def inRam (a n : Nat) : Prop :=
  (0x40000000 ≤ a ∧ a < 0x60000000 ∧ a + n ≤ 0x60000000)
  ∨ (0x1000000000 ≤ a ∧ a < 0x5000000000 ∧ a + n ≤ 0x5000000000)

/-- The data loads: command, trigger port, bytes, and whether the value is sign-extended (R138, R140). -/
def loadRows (m : Iss) : List (Instr × BitVec 10 × Nat × Bool) :=
  [(.memTLdb m, 0x0D0, 1, true), (.memTLdbu m, 0x0D1, 1, false), (.memTLdh m, 0x0D2, 2, true),
   (.memTLdhu m, 0x0D3, 2, false), (.memTLdw m, 0x0D4, 4, true), (.memTLdwu m, 0x0D5, 4, false),
   (.memTLdd m, 0x0D6, 8, false)]

/-- The data stores: command, trigger port, bytes (R138, R143). -/
def storeRows (m : Iss) : List (Instr × BitVec 10 × Nat) :=
  [(.memTStb m, 0x0D8, 1), (.memTSth m, 0x0D9, 2), (.memTStw m, 0x0DA, 4), (.memTStd m, 0x0DB, 8)]

/-- The access address of mem: mem.oc's address and the trigger's operand (R139). -/
def memVa (m : Iss) (s : State) : W := (portC (issueBank m s) 0x0C0).addr + valD (srcVal m s)

/-- The address space of the command's accesses: bare mode at a hub core (R22, R228). -/
def accessSpace (m : Iss) (s : State) : Nat := if 256 ≤ m.core then 0 else (issueBank m s).asid

/-- The load that a command starts: due 2 cycles after its bundle's cycle when every byte lies in the cell's own cell
store, else 3, and one more when it crosses a 64-byte line (R140); its data is forwarded from the youngest overlapping
store that holds all of it, or read from memory, and is there at once when the cell's own store or its data cache holds
it (R140, R277); or the load waits for the buffer (R144), or at a gate that drains (R265). -/
def loadOf (m : Iss) (dst : BitVec 10) (s : State) (n : Nat) (signed isCap keep : Bool) (ps : List (Nat × Nat)) : PLoad :=
  let c := cellOf s m.core
  let own := ownStore m.core ps
  let hit := partsHit s m.core ps
  let l : PLoad := {
    due := c.now + (if own then 2 else 3) + (if 64 < (memVa m s).toNat % 64 + n then 1 else 0),
    bank := c.run, va := memVa m s, parts := ps, signed := signed, isCap := isCap, keep := keep, own := false, hit := false,
    arr := false, got := none, ahead := c.sb.length, undo := issueUndo m dst s, asid := accessSpace m s }
  match sbServe c.sb isCap ps with
  | .wait => l
  | .forward bs tag => { l with arr := true, fwd := true, got := some (bs, tag) }
  | .memory =>
    if ps.any (fun p => gateHolds s p.1) then l
    else { l with own := own, hit := hit, arr := own || hit,
                  got := some (ps.flatMap (fun p => memRead s.mem p.1 p.2), ps.any (fun p => memTag s p.1)) }

/-- The chip as the start of a load leaves it: only a load that finds its lines in the data cache makes them the most
recently used there. -/
def loadTouches (m : Iss) (s : State) (isCap : Bool) (ps : List (Nat × Nat)) : State :=
  match sbServe (cellOf s m.core).sb isCap ps with
  | .memory =>
    if !ps.any (fun p => gateHolds s p.1) && partsHit s m.core ps then linesFill m.core ps s else s
  | _ => s

end Sys2Proof.Machine

/-- A load whose checks pass (LD in mem.oc; translation; the gates) is started and nothing else but its core and the
order of its data cache's lines changes. The
capability load keeps the loaded tag only when mem.oc holds LDC and the page lets tags pass (R60). -/
def Sys2Proof.Machine.LoadsStart : Prop :=
  (∀ (m : Iss) (s : State) (r : Instr × BitVec 10 × Nat × Bool) (ps : List (Nat × Nat)) (ok : Bool), r ∈ loadRows m →
    Ready m r.2.1 s → Steady (loadParts (issueCtx m r.2.1 s) (valD (srcVal m s)) r.2.2.1 false) m s (ps, ok) →
    (∀ p ∈ ps, inRam p.1 p.2) →
      exec r.1 s = .next (afterBundle m r.2.1 (loadTouches m s false ps) (fun c =>
        { c with loads := [loadOf m r.2.1 s r.2.2.1 r.2.2.2 false false ps] })))
  ∧ (∀ (m : Iss) (s : State) (ps : List (Nat × Nat)) (ok : Bool),
    Ready m 0x0D7 s → Steady (loadParts (issueCtx m 0x0D7 s) (valD (srcVal m s)) 16 true) m s (ps, ok) →
    (∀ p ∈ ps, inRam p.1 p.2) →
      exec (.memTLdc m) s = .next (afterBundle m 0x0D7 (loadTouches m s true ps) (fun c =>
        { c with loads := [loadOf m 0x0D7 s 16 false true
          (ok && (capPerms (portC (issueBank m s) 0x0C0)).getLsbD 4) ps] })))

/-- What the store buffer gives a load (R144): nothing when no buffered store overlaps it; the bytes of the youngest store that
overlaps it when that store holds all of them (and is a capability store, for a capability load); else the load waits. -/
def Obligations.StoreForwarding : Prop :=
  ∀ (sb : List SbEntry) (isCap : Bool) (a n : Nat), inRam a n →
    ((∀ e ∈ sb, ¬(e.pa < a + n ∧ a < e.pa + e.data.length)) → sbServe sb isCap [(a, n)] = .memory)
    ∧ (∀ (old new : List SbEntry) (e : SbEntry), sb = old ++ e :: new → (e.pa < a + n ∧ a < e.pa + e.data.length) →
        (∀ f ∈ new, ¬(f.pa < a + n ∧ a < f.pa + f.data.length)) →
          sbServe sb isCap [(a, n)] =
            (if e.pa ≤ a ∧ a + n ≤ e.pa + e.data.length ∧ (isCap = true → e.isCap = true)
              then .forward ((e.data.drop (a - e.pa)).take n) (e.isCap && e.tag) else .wait))

namespace Sys2Proof.Machine

/-- The value of a load's bytes: little-endian, sign-extended when the load is signed (R11, R138). -/
def loadNumber (signed : Bool) (bs : List Byte) : Int :=
  let n : Int := leNat bs
  if signed ∧ 2 ^ (8 * bs.length) ≤ 2 * n then n - 2 ^ (8 * bs.length) else n

/-- What a load leaves in its bank: mem.r (0x0C8) or, for a capability load, mem.rc (0x0C9). -/
def loadLeaves (l : PLoad) (bs : List Byte) (tag : Bool) (k : Bank) : Bank :=
  if l.isCap then
    markDirty 7 (setC 0x0C9 { addr := BitVec.ofNat 64 (leNat (bs.take 8)), hi := BitVec.ofNat 64 (leNat (bs.drop 8)),
                              tag := tag && l.keep } k)
  else markDirty 7 (setX 0x0C8 (BitVec.ofInt 64 (loadNumber l.signed bs)) k)

end Sys2Proof.Machine

namespace Sys2Proof.Machine

/-- A load that is due ends a stall of the core, of a free length, a cycle at least (R140, R176; log entries 56 and 99); no
other load takes a cycle as it returns. -/
def loadWaited (core : Nat) (l : PLoad) (s : State) : State :=
  if l.due ≤ (cellOf s core).now ∧ (cellOf s core).stopped = false then
    { setCell core { passCycles (1 + Config.stallCycles s.fresh) (cellOf s core) with walked := false } s with
      fresh := s.fresh + 1 }
  else s

/-- The core with the result of its one load written, and no load left. -/
def loadDone (core : Nat) (l : PLoad) (bs : List Byte) (tag : Bool) (s : State) : State :=
  setCell core { setBank l.bank (loadLeaves l bs tag (bankOf (cellOf s core) l.bank)) (cellOf s core) with loads := [] } s

end Sys2Proof.Machine

/-- Load data returns to a core with one load, which waits for no store, link or gate and meets no error: the result is
written at once when the load is due by now, else the data is
held until it is, and the caches may take its lines; a load that waited for the store buffer reads its bytes as the
buffer's drain has left them; when the
data is there already, the cycles pass until the load is due and the result is written (R140, R144). -/
def Obligations.LoadDataReturns : Prop :=
  ∀ (core : Nat) (v : Ret) (s : State) (l : PLoad), serves core s → (cellOf s core).loads = [l] →
    (cellOf s core).after = none → loadWaits s core l = false → piecesBad s false 0 (partPieces l.parts) = none →
    (∀ bs tag, l.arr = false → l.got = some (bs, tag) → l.due ≤ (cellOf s core).now →
      exec (.loadDataReturn core ⟨.ok, v⟩) s = .next (loadDone core l bs tag (linesFill core l.parts (loadWaited core l s))))
    ∧ (∀ bs tag, l.arr = false → l.got = some (bs, tag) → (cellOf s core).now < l.due →
      exec (.loadDataReturn core ⟨.ok, v⟩) s = .next (setCell core
        { cellOf s core with loads := [{ l with arr := true }] } (linesFill core l.parts s)))
    ∧ (l.arr = false → l.got = none → l.due ≤ (cellOf s core).now → (∀ p ∈ l.parts, inRam p.1 p.2) →
      partsDenied s core .read 0 l.parts = none →
      exec (.loadDataReturn core ⟨.ok, v⟩) s = .next (loadDone core l (l.parts.flatMap (fun p => memRead s.mem p.1 p.2))
        (l.parts.any (fun p => memTag s p.1)) (linesFill core l.parts (loadWaited core l s))))
    ∧ (∀ bs tag, l.arr = true → l.got = some (bs, tag) → (cellOf s core).fly = [] →
      (cellOf s core).div.cur = none → (cellOf s core).ph.cur = none →
      let c := passCycles (l.due - (cellOf s core).now) (cellOf s core)
      exec (.loadDataReturn core ⟨.ok, v⟩) s = .next (setCell core
        { setBank l.bank (loadLeaves l bs tag (bankOf c l.bank)) c with loads := [] } s))

namespace Sys2Proof.Machine

/-- The entries that a store of the bytes `bs` at the physical parts `ps` adds to the store buffer: one a part. -/
def storeEntries (m : Iss) (s : State) (va : W) (isCap tag : Bool) (ps : List (Nat × Nat)) (bs : List Byte) : List SbEntry :=
  let c := cellOf s m.core
  let slot := if c.run ≤ 4 then c.cur.getD 0 else 0
  match ps with
  | [p] => [{ pa := p.1, data := bs.take p.2, isCap := isCap, tag := tag, va := va, bank := c.run, slot := slot,
              split := false, asid := accessSpace m s }]
  | [p, q] =>
    [{ pa := p.1, data := bs.take p.2, isCap := isCap, tag := tag, va := va, bank := c.run, slot := slot, split := true,
       asid := accessSpace m s },
     { pa := q.1, data := (bs.drop p.2).take q.2, isCap := isCap, tag := tag, va := va + BitVec.ofNat 64 p.2, bank := c.run,
       slot := slot, split := true, asid := accessSpace m s }]
  | _ => []

end Sys2Proof.Machine

/-- The core whose next bundle waits for this many free entries of the store buffer (R143, R176). -/
def Sys2Proof.Machine.waitsRoom (m : Iss) (s : State) (need : Nat) : State :=
  setCell m.core { cellOf s m.core with stall := .room need, stallPc := some (issueBank m s).pcc.addr,
                                        issueT := s.time.dur } s

/-- A store whose checks pass, and for which the buffer of 16 has room, is placed in the store buffer: mem.od's low bytes, or
mem.ocd with its tag. Memory does not change before the store is performed, and nothing else but its core changes. Where the
buffer has no room the bundle waits for it, with none of its effects. -/
def Sys2Proof.Machine.StoresStart : Prop :=
  (∀ (m : Iss) (s : State) (r : Instr × BitVec 10 × Nat) (ps : List (Nat × Nat)) (ok : Bool), r ∈ storeRows m →
    Ready m r.2.1 s → Steady (storeParts (issueCtx m r.2.1 s) (valD (srcVal m s)) r.2.2) m s (ps, ok) →
    (cellOf s m.core).sb.length + (if 0x1000 < (memVa m s).toNat % 0x1000 + r.2.2 then 2 else 1) ≤ 16 →
      exec r.1 s = .next (afterBundle m r.2.1 s (fun c =>
        { c with sb := c.sb ++ storeEntries m s (memVa m s) false false ps
                   (leBytes r.2.2 (portX (issueBank m s) 0x0C1).toNat) })))
  ∧ (∀ (m : Iss) (s : State) (ps : List (Nat × Nat)) (ok : Bool), Ready m 0x0DC s →
    Steady (stcParts (issueCtx m 0x0DC s) (valD (srcVal m s))) m s (ps, ok) → (cellOf s m.core).sb.length + 1 ≤ 16 →
      exec (.memTStc m) s = .next (afterBundle m 0x0DC s (fun c =>
        { c with sb := c.sb ++ storeEntries m s (memVa m s) true (portC (issueBank m s) 0x0C2).tag ps
                   (leBytes 8 (portC (issueBank m s) 0x0C2).addr.toNat
                     ++ leBytes 8 (portC (issueBank m s) 0x0C2).hi.toNat) })))
  ∧ (∀ (m : Iss) (s : State) (r : Instr × BitVec 10 × Nat) (ps : List (Nat × Nat)) (ok : Bool), r ∈ storeRows m →
    Ready m r.2.1 s → Steady (storeParts (issueCtx m r.2.1 s) (valD (srcVal m s)) r.2.2) m s (ps, ok) →
    let need := if 0x1000 < (memVa m s).toNat % 0x1000 + r.2.2 then 2 else 1
    16 < (cellOf s m.core).sb.length + need → exec r.1 s = .next (waitsRoom m s need))
  ∧ (∀ (m : Iss) (s : State) (ps : List (Nat × Nat)) (ok : Bool), Ready m 0x0DC s →
    Steady (stcParts (issueCtx m 0x0DC s) (valD (srcVal m s))) m s (ps, ok) → 16 < (cellOf s m.core).sb.length + 1 →
      exec (.memTStc m) s = .next (waitsRoom m s 1))

/-- A store to memory is performed: the entry's bytes lie at its address and every other byte reads as before; a data store
clears the tag of every granule it touches and a capability store sets its granule's tag to its own, no other granule's
tag changing; the entry leaves the buffer. The conditions are that memory is in its canonical form, that the entry may go now,
that no link or gate holds it, that the core holds no request and no fence that the buffer's drain releases, and that the gate
admits each of its requests, none of which meets a poison code. -/
def Sys2Proof.Machine.StorePerformed : Prop :=
  ∀ (core : Nat) (s : State) (e : SbEntry) (rest : List SbEntry), serves core s → s.memWf = true →
    (cellOf s core).sb = e :: rest → storeReady s (cellOf s core) 0 e = true → reqWaits s core e.pa = false →
    (∀ q ans undo, (cellOf s core).stall ≠ .q q false ans undo) → (∀ g, (cellOf s core).stall ≠ .gfence g false) →
    inRam e.pa e.data.length → 0 < e.data.length →
    (e.isCap = true → e.pa % 16 = 0 ∧ e.data.length = 16) →
    (∀ p ∈ linePieces (e.data.length / 64 + 2) e.pa e.data.length,
      (∃ x, gateCheck s core p.1 p.2 .write = .ok x) ∧ poisoned s p.1 = false) →
      ∃ t, exec (.storePerformed core 0 ⟨.ok, [], .none⟩) s = .next t
        ∧ (∀ i, i < e.data.length → memGet t.mem (e.pa + i) = e.data.getD i 0)
        ∧ (∀ a, a < e.pa ∨ e.pa + e.data.length ≤ a → memGet t.mem a = memGet s.mem a)
        ∧ (∀ a, 16 * (a / 16) + 16 ≤ e.pa ∨ e.pa + e.data.length ≤ 16 * (a / 16) → memTag t a = memTag s a)
        ∧ (∀ i, i < e.data.length → memTag t (e.pa + i) = (e.isCap && e.tag))
        ∧ (cellOf t core).sb = rest
        ∧ t.regs = s.regs ∧ t.log = s.log ∧ (∀ c, c ≠ core → cellOf t c = cellOf s c)

/-- A store whose checks pass is buffered, or waits for room, and memory changes when it is performed. -/
def Obligations.StoresStartAndPerform : Prop := StoresStart ∧ StorePerformed

/-- A block save or restore whose base is 16-byte aligned and whose mask has no bit above 51 begins: it holds issue, with
act and dir set and done kept only when it resumes (R147 to R149). -/
def Sys2Proof.Machine.BlocksStart : Prop :=
  ∀ (restore : Bool) (m : Iss) (s : State),
    let dst : BitVec 10 := if restore then 0x0DE else 0x0DD
    Ready m dst s → (portX (issueBank m s) 0x0C1).toNat < 2 ^ 52 → (memVa m s).toNat % 16 = 0 →
      ∃ t, exec (if restore then .memTLmm m else .memTSmm m) s = .next t
        ∧ t = setCell m.core (cellOf t m.core) s
        ∧ (∃ o, (cellOf t m.core).stall = .blk o ∧ o.restore = restore ∧ o.base = memVa m s
            ∧ o.mask.toNat = (portX (issueBank m s) 0x0C1).toNat ∧ o.oc = portC (issueBank m s) 0x0C0 ∧ o.other = none
            ∧ o.held = false)
        ∧ (cellOf t m.core).run = (cellOf s m.core).run ∧ (cellOf t m.core).now = (cellOf s m.core).now
        ∧ (let k := bankOf (cellOf t m.core) (cellOf s m.core).run
           k.act = true ∧ k.dir = restore ∧ k.done = (if (issueBank m s).act then (issueBank m s).done else 0)
             ∧ k.x = (issueBank m s).x ∧ k.c = (issueBank m s).c ∧ k.a = (issueBank m s).a ∧ k.g = (issueBank m s).g
             ∧ k.pcc = (issueBank m s).pcc)

namespace Sys2Proof.Machine

/-- The address of element `i` of a block: d registers at 8 bytes each, then c registers and accumulators at 16 (R147). -/
def elemAt (i : Nat) : Nat := if i < 32 then 8 * i else if i < 48 then 256 + 16 * (i - 32) else 512 + 16 * (i - 48)

end Sys2Proof.Machine

/-- The next element of a block that is not done, the lowest bit of the mask, is done in one cycle: a save places the
register in the store buffer; a restore reads it, from further away than its own store and data cache in a free number of
cycles more, and its register is written two cycles later; its done bit is set. The last element, where the bundle has no
other move, ends the operation with done and act clear and the bank at its next bundle, a restore two cycles later, with its
register written (R147 to R150). Stated of d registers; the conditions are that no event, stop or choice comes first, that
the element has not waited, and that a restore's request waits for nothing and meets no poison code. -/
def Sys2Proof.Machine.BlockElements : Prop :=
  ∀ (core i : Nat) (v : Ret) (s : State) (o : BlkOp) (ps : List (Nat × Nat)) (ok : Bool), serves core s →
    (cellOf s core).stall = .blk o → i < 32 → o.mask.getLsbD i = true → (runBank (cellOf s core)).done.getLsbD i = false →
    (∀ j < i, o.mask.getLsbD j = true → (runBank (cellOf s core)).done.getLsbD j = true) →
    Quiet (cellOf s core) → (elemPoint (cellOf s core) o = true → comesFirst s core = false) → o.held = false →
    (cellOf s core).heldUp = false → (cellOf s core).walked = false →
    (cellOf s core).stopped = false → (cellOf s core).waiting = false → hasContext (cellOf s core) = true →
    let c := cellOf s core
    let x : Ctx := { core := core, n := c.now, b := c.run, k := runBank c }
    let va : W := o.base + BitVec.ofNat 64 (elemAt i)
    let more := ∃ j, i < j ∧ j < 52 ∧ o.mask.getLsbD j = true ∧ (runBank c).done.getLsbD j = false
    let near := ownStore core ps || partsHit s core ps
    (o.restore = false → (c.sb.length + ps.length ≤ 16) → more →
      accessParts x o.oc o.src va 8 permST false false .store s = (s, .ok (ps, ok)) →
      ∃ t, exec (.blockElement core ⟨.ok, v⟩) s = .next t ∧ t = setCell core (cellOf t core) s
        ∧ (cellOf t core).sb = c.sb ++ sbEntries x (ctxSlot s x) va false false (decide (1 < ps.length)) ps
            (leBytes 8 (portX (runBank c) i).toNat)
        ∧ (runBank (cellOf t core)).done = (runBank c).done ||| BitVec.ofNat 52 (2 ^ i)
        ∧ (cellOf t core).stall = .blk o ∧ (cellOf t core).now = c.now + 1
        ∧ (runBank (cellOf t core)).x = (runBank c).x)
    ∧ (o.restore = false → (c.sb.length + ps.length ≤ 16) → ¬ more → o.other = none → o.start < c.now →
      o.k0.ract = false → o.k0.dly = 0 →
      accessParts x o.oc o.src va 8 permST false false .store s = (s, .ok (ps, ok)) →
      ∃ t, exec (.blockElement core ⟨.ok, v⟩) s = .next t ∧ t = setCell core (cellOf t core) s
        ∧ (cellOf t core).sb = c.sb ++ sbEntries x (ctxSlot s x) va false false (decide (1 < ps.length)) ps
            (leBytes 8 (portX (runBank c) i).toNat)
        ∧ (runBank (cellOf t core)).done = 0 ∧ (runBank (cellOf t core)).act = false
        ∧ (cellOf t core).stall = .none ∧ (cellOf t core).now = c.now + 1
        ∧ (runBank (cellOf t core)).pcc = { (runBank c).pcc with addr := (runBank c).pcc.addr + 8 }
        ∧ (runBank (cellOf t core)).x = (runBank c).x)
    ∧ (o.restore = true → more → restoreParts x o i s = (s, .ok (ps, ok)) →
      sbServe c.sb false ps = .memory → (∀ p ∈ ps, inRam p.1 p.2 ∧ reqWaits s core p.1 = false ∧ poisoned s p.1 = false) →
      ∃ t, exec (.blockElement core ⟨.ok, v⟩) s = .next t
        ∧ t = setCell core (cellOf t core) (linesFill core ps (if near then s else bumpFresh s))
        ∧ (cellOf t core).sb = c.sb
        ∧ (runBank (cellOf t core)).done = (runBank c).done ||| BitVec.ofNat 52 (2 ^ i)
        ∧ (cellOf t core).stall = .blk o
        ∧ (cellOf t core).now = c.now + 1 + (if near then 0 else Config.stallCycles s.fresh)
        ∧ (∃ g, (cellOf t core).fly =
            [⟨(cellOf t core).now + 1, c.run, .lmm, .elem i (ps.flatMap (fun p => memRead s.mem p.1 p.2)) g⟩])
        ∧ (runBank (cellOf t core)).x = (runBank c).x)
    ∧ (o.restore = true → ¬ more → o.other = none → o.start < c.now → o.k0.ract = false → o.k0.dly = 0 →
      restoreParts x o i s = (s, .ok (ps, ok)) →
      sbServe c.sb false ps = .memory → (∀ p ∈ ps, inRam p.1 p.2 ∧ reqWaits s core p.1 = false ∧ poisoned s p.1 = false) →
      ∃ t, exec (.blockElement core ⟨.ok, v⟩) s = .next t
        ∧ t = setCell core (cellOf t core) (linesFill core ps (if near then s else bumpFresh s))
        ∧ (cellOf t core).sb = c.sb
        ∧ (runBank (cellOf t core)).done = 0 ∧ (runBank (cellOf t core)).act = false
        ∧ (cellOf t core).stall = .none
        ∧ (cellOf t core).now = c.now + 3 + (if near then 0 else Config.stallCycles s.fresh) ∧ (cellOf t core).fly = []
        ∧ (runBank (cellOf t core)).pcc = { (runBank c).pcc with addr := (runBank c).pcc.addr + 8 }
        ∧ portX (runBank (cellOf t core)) i = BitVec.ofNat 64 (leNat (ps.flatMap (fun p => memRead s.mem p.1 p.2)))
        ∧ (∀ j, j ≠ i → portX (runBank (cellOf t core)) j = portX (runBank c) j))

/-- A block save or restore begins, and does one element at a time. -/
def Obligations.BlocksRun : Prop := BlocksStart ∧ BlockElements

/-- mem.t.pf changes nothing that a program sees: where the capability does not allow the access, or its address does not
translate, the bundle only passes; else the line is taken into the caches where its gate admits the read and nothing holds it
back (R142, R277). -/
def Sys2Proof.Machine.PrefetchPasses : Prop :=
  ∀ (m : Iss) (s : State), Ready m 0x0DF s →
    let asid := ctxAsid (issueCtx m 0x0DF s)
    let chk := capCheck (portC (issueBank m s) 0x0C0) (memVa m s).toNat 1 (permLD ||| sysregNeed asid (memVa m s).toNat 1)
      false false
    let u := setCell m.core (issueCell m s) s
    (chk ≠ none → exec (.memTPf m) s = .next (afterBundle m 0x0DF s id))
    ∧ (∀ e, chk = none → xlate m.core asid (memVa m s) .load (some (issueBank m s)) u = (u, .error e) →
      exec (.memTPf m) s = .next (afterBundle m 0x0DF s id))
    ∧ (∀ pa ok, chk = none → xlate m.core asid (memVa m s) .load (some (issueBank m s)) u = (u, .ok (pa, ok)) →
      exec (.memTPf m) s = .next (afterBundle m 0x0DF
        (match gateCheck s m.core (pa / 64 * 64) 64 .read with
         | .ok _ => if poisoned s pa || reqWaits s m.core pa then s else lineFill m.core (pa / 64) s
         | .error _ => s) id))

/-- A load whose checks pass starts, and a prefetch changes at most what the caches hold. -/
def Obligations.LoadsAndPrefetchStart : Prop := LoadsStart ∧ PrefetchPasses

/-! ## Branches, repetition, call gates, exceptions (R92, R97, R109 to R117, R119, R120, R153, R154, R205 to R210, R221 to R225) -/

namespace Sys2Proof.Machine

/-- A capability with another object type, or with none (R61). -/
def withType (c : Cap) (t : Nat) : Cap :=
  { c with hi := (c.hi &&& ~~~ (0xFFF#64 <<< 40)) ||| (BitVec.ofNat 64 t <<< 40) }

end Sys2Proof.Machine

/-- A branch whose target is a multiple of 8, and whose capability passes its checks, leaves two delay bundles to execute
before pcc becomes the target, with the bounds that pcc has now (R54, R83); a call writes its link, pcc at pc + 24 sealed as an
entry, to c15 (0x2F), without its tag where pcc's encoding does not decode to its bounds there. -/
def Obligations.BranchesTake : Prop :=
  ∀ (m : Iss) (s : State),
    let pcc := (issueBank m s).pcc
    let td := valD (srcVal m s)
    let tc := valC (srcVal m s)
    let lim := (issueBank m s).lim
    let go := fun (t : Cap) (k : Bank) => { k with pend := t, pendLim := limAt pcc lim t.addr, dly := 2 }
    let goC := fun (k : Bank) => { k with pend := withType tc 0, pendLim := none, dly := 2 }
    let link := fun (k : Bank) => markDirty 5 (setC 0x2F (withType
      { pcc with addr := pcc.addr + 24, tag := pcc.tag && (limAt pcc lim (pcc.addr + 24)).isNone } 1) k)
    (Ready m 0x128 s → (pcc.addr + td).toNat % 8 = 0 →
      exec (.brTBr m) s = .next (afterBundle m 0x128 s (modRun (go { pcc with addr := pcc.addr + td }))))
    ∧ (Ready m 0x129 s → (pcc.addr + td).toNat % 8 = 0 →
      exec (.brTCall m) s = .next (afterBundle m 0x129 s (modRun (fun k => link (go { pcc with addr := pcc.addr + td } k)))))
    ∧ (Ready m 0x12A s → td.toNat % 8 = 0 →
      exec (.brTJmp m) s = .next (afterBundle m 0x12A s (modRun (go { pcc with addr := td }))))
    ∧ (Ready m 0x12B s → jumpCheck tc = none → tc.addr.toNat % 8 = 0 →
      exec (.brTJc m) s = .next (afterBundle m 0x12B s (modRun goC)))
    ∧ (Ready m 0x12C s → jumpCheck tc = none → tc.addr.toNat % 8 = 0 →
      exec (.brTCallc m) s = .next (afterBundle m 0x12C s (modRun (fun k => link (goC k)))))

/-- Where execution goes after a bundle, seen on a move to a d register: to pcc + 8; after the last delay bundle to the pending
target; and while repetitions of the bundle remain, to the bundle itself. -/
def Obligations.NextBundle : Prop :=
  ∀ (dst : BitVec 10) (m : Iss) (s : State), Ready m dst s → dst.toNat < 0x20 →
    slotDelayed (isHub m.core) (issSlots m dst).1 = false → slotDelayed (isHub m.core) (issSlots m dst).2 = false →
    let k0 := issueBank m s
    ∃ t, exec (.registerMove dst m) s = .next t ∧
      (let k := bankOf (cellOf t m.core) (cellOf s m.core).run
       portX k dst.toNat = asWord (srcVal m s)
       ∧ (k0.ract = false → k0.dly = 0 → k.pcc = { k0.pcc with addr := k0.pcc.addr + 8 } ∧ k.dly = 0)
       ∧ (k0.ract = false → k0.dly = 1 → k.pcc = k0.pend ∧ k.dly = 0)
       ∧ (∀ n, k0.ract = false → k0.dly = n + 2 → k.pcc = { k0.pcc with addr := k0.pcc.addr + 8 } ∧ k.dly = n + 1
            ∧ k.pend = k0.pend)
       ∧ (k0.ract = true → k0.rcnt ≤ 1 → k.pcc = { k0.pcc with addr := k0.pcc.addr + 8 } ∧ k.ract = false ∧ k.rcnt = 0)
       ∧ (∀ n, k0.ract = true → k0.rcnt = n + 2 → k.pcc = k0.pcc ∧ k.ract = true ∧ k.rcnt = n + 1
            ∧ (cellOf t m.core).held = some ((issSlots m dst).1.word, (issSlots m dst).2.word)))

/-- br.t.rep and br.t.repn repeat the bundle at pcc + 8 as often as t[31:0] says, repn with interrupts held and at most
64 times; a count of 0 skips that bundle. -/
def Sys2Proof.Machine.RepeatPrefixes : Prop :=
  ∀ (noInt : Bool) (m : Iss) (s : State),
    let dst : BitVec 10 := if noInt then 0x131 else 0x130
    let n := (valD (srcVal m s)).toNat % 2 ^ 32
    let k0 := issueBank m s
    Ready m dst s → (noInt = true → n ≤ 64) → k0.dly = 0 → k0.ract = false →
      ∃ t, exec (if noInt then .brTRepn m else .brTRep m) s = .next t ∧ t = setCell m.core (cellOf t m.core) s ∧
        (let k := bankOf (cellOf t m.core) (cellOf s m.core).run
         (n ≠ 0 → k.ract = true ∧ k.rcnt = n ∧ k.rnint = noInt ∧ k.pcc = { k0.pcc with addr := k0.pcc.addr + 8 })
         ∧ (n = 0 → k.ract = false ∧ k.pcc = { k0.pcc with addr := k0.pcc.addr + 16 })
         ∧ k.x = k0.x ∧ k.c = k0.c ∧ k.a = k0.a ∧ k.g = k0.g)

/-- A repetition issues the repeated bundle once more, from its held slot words. -/
def Sys2Proof.Machine.RepetitionIssues : Prop :=
  ∀ (dst : BitVec 10) (m : Iss) (s : State) (wa wb : BitVec 32), pstateOf s = 0 → Ready m dst s → dst.toNat < 0x20 →
    (cellOf s m.core).held = some (wa, wb) → (slotOfWord wa, slotOfWord wb) = issSlots m dst →
      exec (.repetition m.core) s =
        .next (afterBundle m dst s (modRun (fun k => markDirty (dst.toNat / 8) (setX dst.toNat (asWord (srcVal m s)) k))))

/-- The bundle that a fetch returns issues as the core's next bundle, its line in the instruction cache; the cycles of a miss
there have passed before it (R176, R177; a free number, log entry 56): in bare mode, with the gate of its address open and nothing that holds its request. A bundle that
is repeated is not fetched again (R185). -/
def Sys2Proof.Machine.FetchedBundleIssues : Prop :=
  ∀ (dst : BitVec 10) (m : Iss) (v : Ret) (s : State), pstateOf s = 0 → mayIssue (fetchResumed m.core s) m.core = true →
    let w := fetchResumed m.core s
    let pc := (issueBank m w).pcc.addr.toNat
    let u := iFill m.core pc (if iHit w m.core pc then w else stallPass m.core w)
    Ready m dst u → dst.toNat < 0x20 →
    (cellOf s m.core).held = none → reqWaits s m.core pc = false → poisoned s pc = false →
    (256 ≤ m.core ∨ (issueBank m u).asid = 0) → pc < 2 ^ 48 → (∃ x, gateCheck s m.core pc 8 .fetch = .ok x) →
    (slotOfWord (BitVec.ofNat 32 (physNat s pc 4)), slotOfWord (BitVec.ofNat 32 (physNat s (pc + 4) 4))) = issSlots m dst →
      exec (.instructionFetchFill m.core ⟨.ok, v⟩) s =
        .next (afterBundle m dst u (modRun (fun k => markDirty (dst.toNat / 8) (setX dst.toNat (asWord (srcVal m u)) k))))

/-- A repeat prefix sets the repetition up, a repetition issues the held bundle, and a fetch's bundle issues as the next. -/
def Obligations.RepeatsAndFetchesIssue : Prop := RepeatPrefixes ∧ RepetitionIssues ∧ FetchedBundleIssues

/-- A bundle whose moves' guards all hold them back does nothing: the register that its move names keeps its value. Stated of a
move to a register; the same bundle with any other destination passes in the same way. -/
def Sys2Proof.Machine.GuardedOffPasses : Prop :=
  ∀ (dst : BitVec 10) (m : Iss) (s : State), isCore m.core = true → mayIssue s m.core = true → m.ret ≠ .parity →
    heldBundle (cellOf s m.core) (issSlots m dst).1 (issSlots m dst).2 = true →
    Quiet (cellOf s m.core) → (cellOf s m.core).heldUp = false → (cellOf s m.core).walked = false →
    pointWant (cellOf s m.core) = cellOf s m.core → fetchFail (issueBank m s) = none →
    staticUndefs (isHub m.core) (levelOf (cellOf s m.core)) (issueBank m s) (issSlots m dst).1 (issSlots m dst).2 = [] →
    activeMoves (isHub m.core) (cellOf s m.core) (issSlots m dst).1 (issSlots m dst).2 = [] →
      ∃ t, exec (.registerMove dst m) s = .next t ∧ t = setCell m.core (cellOf t m.core) s ∧
        (let k := bankOf (cellOf t m.core) (cellOf s m.core).run
         k.x = (issueBank m s).x ∧ k.c = (issueBank m s).c ∧ k.a = (issueBank m s).a ∧ k.g = (issueBank m s).g
           ∧ k.mask = (issueBank m s).mask ∧ k.asid = (issueBank m s).asid)
        ∧ (cellOf t m.core).fly = [] ∧ (cellOf t m.core).sb = (cellOf s m.core).sb
        ∧ (cellOf t m.core).now = (cellOf s m.core).now + 1

namespace Sys2Proof.Machine

/-- Every reason for UNDEF in a command's bundle: of its encoding and its place, and of the operands of the moves that
execute (R119). -/
def bundleUndefs (m : Iss) (dst : BitVec 10) (s : State) : List Undef :=
  let hub := isHub m.core
  let c := cellOf s m.core
  let sl := issSlots m dst
  let ms := activeMoves hub c sl.1 sl.2
  staticUndefs hub (levelOf c) (issueBank m s) sl.1 sl.2
    ++ ms.flatMap (moveUndef hub { core := m.core, n := c.now, b := c.run, k := operandView hub ms (issueBank m s),
                                   ret := m.ret, fret := m.fret })

end Sys2Proof.Machine

/-- A bundle with a reserved encoding or a refused operand takes UNDEF with the lowest of its reasons, slot A's first, and no
move of it takes effect: the exception is taken from the state at the bundle's start. -/
def Sys2Proof.Machine.ReservedEncodingsFault : Prop :=
  ∀ (dst : BitVec 10) (m : Iss) (s : State), isCore m.core = true → mayIssue s m.core = true → m.ret ≠ .parity →
    heldBundle (cellOf s m.core) (issSlots m dst).1 (issSlots m dst).2 = true → (cellOf s m.core).heldUp = false →
    (cellOf s m.core).walked = false → pointWant (cellOf s m.core) = cellOf s m.core →
    Quiet (cellOf s m.core) → fetchFail (issueBank m s) = none → bundleUndefs m dst s ≠ [] →
      ∃ w ∈ bundleUndefs m dst s,
        (∀ u ∈ bundleUndefs m dst s, w.reason < u.reason ∨ (w.reason = u.reason ∧ (w.slotB = true → u.slotB = true)))
        ∧ exec (.registerMove dst m) s
          = .next (noteFault m.core s (raiseSync m.core ⟨0x01, w.faddr.getD (issueBank m s).pcc.addr,
              undefFinfo w.reason w.slotB w.whole w.port w.word⟩ (issueStart m s) m.vret))

/-- A bundle that its guards hold back does nothing, and one with a reserved encoding takes UNDEF. -/
def Obligations.GuardsAndReservedEncodings : Prop := GuardedOffPasses ∧ ReservedEncodingsFault

/-- A fault that a level can take enters that level: the interrupted bank keeps its pcc, and the entered bank holds the cause
with the level it came from, faddr, finfo, the interrupted pcc in fpcc, and execution at the entry point; nothing else changes.
The cycles of the change of bank are a typical figure taken as a count (log entry 50). -/
def Sys2Proof.Machine.ExceptionsEnter : Prop :=
  ∀ (core : Nat) (f : Flt) (r : Ret) (s : State) (target : Cap),
    let c := cellOf s core
    let p := dlvlSync s core
    levelOf c < p → p ≤ 7 → ((runBank c).mask < p ∨ p = 7) → (bankOf c (4 + p)).poison = false →
    hasContext c = true → entryTarget core f.code s r = (s, some target) →
      let t := raiseSync core f s r
      t = setCell core (cellOf t core) s
      ∧ (cellOf t core).run = 4 + p ∧ (cellOf t core).now = c.now + switchCycles
      ∧ (let k := bankOf (cellOf t core) (4 + p)
         k.pcc = target ∧ k.fpcc = (runBank c).pcc ∧ k.fpccW = false ∧ k.faddr = f.faddr ∧ k.finfo = f.finfo
         ∧ k.cause = causeWord c f.code false p
         ∧ k.x = (bankOf c (4 + p)).x ∧ k.c = (bankOf c (4 + p)).c ∧ k.a = (bankOf c (4 + p)).a)
      ∧ (∀ b, b ≠ 4 + p → bankOf (cellOf t core) b = bankOf c b)

/-- An interrupt that is pending, enabled at level p above the running level and its mask, with nothing more urgent pending, is
entered at an interrupt point: its pending bit clears and its code is 0x80 plus its number. -/
def Sys2Proof.Machine.InterruptsEnter : Prop :=
  ∀ (core n p : Nat) (s : State) (target : Cap), serves core s → Quiet (cellOf s core) →
    let c := cellOf s core
    atPoint c = true → c.stopReq = false → c.mchk = [] → c.spillEv = [] → c.lse = [] → n < 128 →
    c.ipend = BitVec.ofNat 128 (2 ^ n) → irqLevel s core n = p → levelOf c < p → (runBank c).mask < p → p ≤ 6 →
    (bankOf c (4 + p)).poison = false → hasContext c = true →
    entryTarget core (0x80 + n) s = (s, some target) →
      ∃ t, exec (.exceptionEntry ⟨core, .ok, [], .none⟩) s = .next t ∧ t = setCell core (cellOf t core) s
        ∧ (cellOf t core).run = 4 + p ∧ (cellOf t core).ipend = 0
        ∧ (let k := bankOf (cellOf t core) (4 + p)
           k.pcc = target ∧ k.fpcc = (runBank c).pcc ∧ k.faddr = 0 ∧ k.finfo = BitVec.ofNat 64 n
           ∧ k.cause.toNat % 256 = 0x80 + n ∧ k.cause.toNat / 2 ^ 12 % 8 = levelOf c)
        ∧ (∀ b, b ≠ 4 + p → bankOf (cellOf t core) b = bankOf c b)

/-- A fault and an interrupt that a level can take enter it. -/
def Obligations.ExceptionsAndInterruptsEnter : Prop := ExceptionsEnter ∧ InterruptsEnter

/-- br.t.eret at a level goes back to the level that cause records, at fpcc unsealed; the pending repeat, delay and block
state of the resumed bank stays, or is discarded when the handler wrote fpcc. From level 1 or higher that is a level's own
bank; at level 0 of a cell it is the bank of the running thread that cause.slot records, and at level 0 of a hub core its one
bank. -/
def Obligations.ExceptionReturns : Prop :=
  ∀ (m : Iss) (s : State) (b : Nat),
    let c := cellOf s m.core
    let k0 := issueBank m s
    let l := k0.cause.toNat / 2 ^ 12 % 8
    let slot := slotOf c (k0.cause.toNat / 2 ^ 16 % 64)
    Ready m 0x12F s → 5 ≤ c.run → jumpCheck k0.fpcc = none → k0.fpcc.addr.toNat % 8 = 0 → b ≠ c.run →
    (1 ≤ l ∧ b = 4 + l ∨ l = 0 ∧ m.core < 256 ∧ c.cur.isSome = true ∧ slot.bank = some b ∧ slot.state = 2
      ∨ l = 0 ∧ 256 ≤ m.core ∧ b = 0) →
      ∃ t, exec (.brTEret m) s = .next t ∧ t = setCell m.core (cellOf t m.core) s
        ∧ (cellOf t m.core).run = b
        ∧ (let k := bankOf (cellOf t m.core) b
           let k1 := bankOf c b
           k.pcc = withType k0.fpcc 0 ∧ k.x = k1.x ∧ k.c = k1.c ∧ k.a = k1.a ∧ k.g = k1.g ∧ k.mask = k1.mask
           ∧ (k0.fpccW = false → k.ract = k1.ract ∧ k.dly = k1.dly ∧ k.act = k1.act ∧ k.done = k1.done)
           ∧ (k0.fpccW = true → k.ract = false ∧ k.dly = 0 ∧ k.act = false ∧ k.done = 0))

/-- A call through a gate whose checks all pass, with memory in its canonical form: pcc becomes the descriptor's entry, unsealed; c15 (0x2F) becomes a RETURN
capability over the frame and c14 (0x2E) the callee's stack; the d registers that the descriptor names are cleared and no
other d register changes; the frame's three granules in memory hold c14, pcc at pc + 8, and the descriptor's address. -/
def Sys2Proof.Machine.GateCalls : Prop :=
  ∀ (m : Iss) (s : State) (p : GatePlan) (d0 d1 d2 d3 f0 f1 f2 : Nat), Ready m 0x12D s → s.memWf = true →
    Steady (gatePlan (issueCtx m 0x12D s) (valC (srcVal m s)) (srcCode (ownMove m 0x12D s).src)) m s p →
    p.desc.map (fun g => g.1) = [d0, d1, d2, d3] → p.frame.map (fun g => g.1) = [f0, f1, f2] → (∀ a ∈ [d3, f0, f1, f2], a % 16 = 0 ∧ inRam a 16) →
    d3 ≠ f0 → d3 ≠ f1 → d3 ≠ f2 → f0 ≠ f1 → f0 ≠ f2 → f1 ≠ f2 → m.ret = .ok →
      ∃ t, exec (.brTGate m) s = .next t
        ∧ (let k := bankOf (cellOf t m.core) (cellOf s m.core).run
           let k0 := issueBank m s
           k.pcc = withType p.ent 0 ∧ portC k 0x2F = returnCap (capTop p.stk - 48).toNat
           ∧ portC k 0x2E = calleeStack p.stk
           ∧ (∀ i < 32, portX k i = if p.clr.testBit i then 0 else portX k0 i)
           ∧ (∀ i, 0x20 ≤ i → i < 0x2E → portC k i = portC k0 i)
           ∧ memRead t.mem f0 16 = capBytes (portC k0 0x2E) ∧ memTag t f0 = (portC k0 0x2E).tag
           ∧ memRead t.mem f1 16 = capBytes { k0.pcc with addr := k0.pcc.addr + 8 } 
           ∧ memTag t f1 = (k0.pcc.tag && (limAt k0.pcc k0.lim (k0.pcc.addr + 8)).isNone)
           ∧ memNat t f2 8 = (valC (srcVal m s)).addr.toNat ∧ memTag t f2 = false)
        ∧ (∀ a, (∀ g ∈ [d3, f0, f1, f2], a < g ∨ g + 16 ≤ a) → memGet t.mem a = memGet s.mem a)
        ∧ t.regs = s.regs ∧ (∀ n, n ≠ m.core → cellOf t n = cellOf s n)

/-- A return through a RETURN capability whose checks pass, with memory in its canonical form: pcc and c14 (0x2E) are the frame's, and the descriptor's active
bit is cleared; no other register and no other byte changes. -/
def Sys2Proof.Machine.GateReturns : Prop :=
  ∀ (m : Iss) (s : State) (p : RetPlan), Ready m 0x12E s → s.memWf = true →
    Steady (gretPlan (issueCtx m 0x12E s) (valC (srcVal m s))) m s p → 2 ≤ p.w34 → p.w34 < 2 ^ 32 → inRam p.desc 16 → m.ret = .ok →
      ∃ t, exec (.brTGret m) s = .next t
        ∧ (let k := bankOf (cellOf t m.core) (cellOf s m.core).run
           k.pcc = p.pcc ∧ portC k 0x2E = p.c14 ∧ k.x = (issueBank m s).x
           ∧ (∀ i, i ≠ 0x2E → portC k i = portC (issueBank m s) i))
        ∧ memNat t (p.desc + 4) 4 = p.w34 - 2
        ∧ (∀ a, a < p.desc + 4 ∨ p.desc + 8 ≤ a → memGet t.mem a = memGet s.mem a)
        ∧ t.regs = s.regs ∧ (∀ n, n ≠ m.core → cellOf t n = cellOf s n)

/-- A call through a gate, and the return through its RETURN capability. A stack whose bounds have no exact encoding
is a free value (log entry 18). -/
def Obligations.GateCallsAndReturns : Prop := GateCalls ∧ GateReturns

/-! ## q, trp and sys (R163 to R172, R177, R298, R299, R307, R309, R313, R370, R523) -/

namespace Sys2Proof.Machine

/-- The q commands. -/
def qInstr (op : QOp) (m : Iss) : Instr :=
  match op with
  | .enq => .qTEnq m | .enqd => .qTEnqd m | .deq => .qTDeq m | .deqd => .qTDeqd m | .wait => .qTWait m
  | .arm => .qTArm m | .stat => .qTStat m
def qTrigPort (op : QOp) : BitVec 10 :=
  match op with
  | .enq => 0x180 | .enqd => 0x181 | .deq => 0x182 | .deqd => 0x183 | .wait => 0x184 | .arm => 0x185 | .stat => 0x186

/-- The request of a q trigger: the queue that q.oc (0x170) designates in the table, the operands, and the buffer as its
checks at issue find it (R163, R164, R298, R603). -/
def qRequest (op : QOp) (m : Iss) (s : State) (got : Reach) : QReq :=
  let oc := portC (issueBank m s) 0x170
  let om := portC (issueBank m s) 0x171
  { op := op, queue := (oc.addr.toNat - qtab s) / 64, core := m.core,
    slot := if (cellOf s m.core).run ≤ 4 then (cellOf s m.core).cur.getD 0 else 0,
    bank := (cellOf s m.core).run,
    level := if 256 ≤ m.core then max 1 ((cellOf s m.core).run - 4) else (cellOf s m.core).run - 4, t := valD (srcVal m s),
    od := portX (issueBank m s) 0x172, om := om.addr, parts := got.parts, caps := got.caps, noTag := got.noTag,
    carry := (match op with | .enq => (capPerms oc).getLsbD 5 | _ => (capPerms oc).getLsbD 4),
    stl := (match op with | .enq => (capPerms oc).getLsbD 6 | _ => (capPerms om).getLsbD 6), asid := accessSpace m s }

end Sys2Proof.Machine

/-- A q trigger whose operand the unit accepts and whose checks pass stalls its core with its request, which goes to the
queue's manager at once when the store buffer is empty and after the buffer's drain otherwise; nothing else changes. Before
the queue table base is in force the unit itself answers: q.r (0x178) has status 0x04, with a count that the spec leaves open
(the model's free value). -/
def Sys2Proof.Machine.QueueTriggersSend : Prop :=
  (∀ (op : QOp) (m : Iss) (s : State) (got : Reach), Ready m (qTrigPort op) s →
    qRefused op (issueBank m s) (valD (srcVal m s)) = false → s.qReady = true →
    Steady (qCheck (issueCtx m (qTrigPort op) s) op (valD (srcVal m s))) m s got →
      let r := qRequest op m s got
      exec (qInstr op m) s = .next (afterBundle m (qTrigPort op)
        (if (cellOf s m.core).sb = [] then
          { s with qman := tblSet (queueRegion r.queue) (tblGet [] s.qman (queueRegion r.queue) ++ [r]) s.qman } else s)
        (fun c => { c with stall := .q r c.sb.isEmpty none (some (issueUndo m (qTrigPort op) s)) })))
  ∧ (∀ (op : QOp) (m : Iss) (s : State), Ready m (qTrigPort op) s →
    qRefused op (issueBank m s) (valD (srcVal m s)) = false → s.qReady = false →
    sealedCheck (portC (issueBank m s) 0x170) (fun t => t == 0x004) = none →
      exec (qInstr op m) s = .next (bumpFresh (afterBundle m (qTrigPort op) s (modRun (fun k => markDirty 7
        (setX 0x178 (BitVec.ofNat 64 (0x04 + (Config.qCount s.fresh).toNat * 2 ^ 32)) k))))))

namespace Sys2Proof.Machine

/-- The trp commands. -/
def trpInstr (op : TrpOp) (m : Iss) : Instr :=
  match op with
  | .inv => .trpTInv m | .rel => .trpTRel m | .query => .trpTQuery m
def trpTrigPort (op : TrpOp) : BitVec 10 :=
  match op with
  | .inv => 0x198 | .rel => 0x199 | .query => 0x19A

end Sys2Proof.Machine

/-- A trp trigger whose capability passes its checks sends its request, which waits for the stores before it; before the trip
table base is in force at the core its answer is 0x03. A fifth request that is not yet acknowledged is held, and holds issue. -/
def Sys2Proof.Machine.TripTriggersStart : Prop :=
  ∀ (op : TrpOp) (m : Iss) (s : State), Ready m (trpTrigPort op) s →
    (op = .inv → (portX (issueBank m s) 0x190).toNat < 2 ^ 32) →
    trpCheck (issueCtx m (trpTrigPort op) s) op (valC (srcVal m s)) (srcCode (ownMove m (trpTrigPort op) s).src)
      (issueStart m s) = none →
      let o := (valC (srcVal m s)).addr.toNat - tripBase s
      let r : TrpReq := {
        op := op, bank := (cellOf s m.core).run, obj := o / 256, voter := o % 256 / 64 - 1,
        word := BitVec.ofNat 32 (portX (issueBank m s) 0x190).toNat, ahead := (cellOf s m.core).sb.length,
        ans := if tripBase s ≠ 0 ∧ (cellOf s m.core).tbaseOk = true then none else some 0x03,
        no := (cellOf s m.core).reqNo }
      exec (trpInstr op m) s = .next (afterBundle m (trpTrigPort op) s (fun c =>
        if c.trp.length < 4 then { c with reqNo := c.reqNo + 1, trp := c.trp ++ [r] }
        else { c with reqNo := c.reqNo + 1, trpHeld := some r }))

namespace Sys2Proof.Machine

/-- The invalidation that sys.t.invleaf or sys.t.invwalk describes: sys.o (0x1A0) its address, t its length, sys.o2 (0x1A1) the
address space, the flags and the scope (R169). -/
def invRequest (walk : Bool) (m : Iss) (s : State) : InvReq :=
  let o2 := (portX (issueBank m s) 0x1A1).toNat
  { walk := walk, va := portX (issueBank m s) 0x1A0, len := valD (srcVal m s), asid := o2 % 256, all := o2.testBit 8,
    glob := o2.testBit 9, scope := o2 / 1024 % 4, stores := (cellOf s m.core).sb.length, left := false, acks := [],
    bank := (cellOf s m.core).run, no := (cellOf s m.core).reqNo }

end Sys2Proof.Machine

/-- The sys commands that wait hold issue until what they wait for has happened: sys.t.invsync, sys.t.fence with 0 or 1,
sys.t.gfence on a gate's block, whose drain bit a fence sets as it arrives there, and the control reads and writes whose
checks pass. -/
def Sys2Proof.Machine.SysWaitsHold : Prop :=
  ∀ (m : Iss) (s : State),
    let k := issueBank m s
    let t := valD (srcVal m s)
    let hold := fun (w : Cell → Stall) (c : Cell) => { c with stall := w c }
    let asid := if capSealed (portC k 0x1A2) then 0 else accessSpace m s
    (Ready m 0x1B2 s → exec (.sysTInvsync m) s = .next (afterBundle m 0x1B2 s (hold fun _ => .invsync)))
    ∧ (Ready m 0x1B4 s → t.toNat < 2 →
        exec (.sysTFence m) s = .next (afterBundle m 0x1B4 s (hold fun _ => .fence (t == 1))))
    ∧ (∀ g, Ready m 0x1B5 s → gateAt (valC (srcVal m s)).addr.toNat = some g →
        capCheck (valC (srcVal m s)) (valC (srcVal m s)).addr.toNat 8 0x400 false false = none →
        exec (.sysTGfence m) s = .next (afterBundle m 0x1B5
          (if (cellOf s m.core).sb = [] then setRegF (gateBlock g + 0x10) 0 0 1 s else s) (hold fun c => .gfence g c.sb.isEmpty)))
    ∧ (∀ pa, Ready m 0x1BC s → Steady (ctlTarget (issueCtx m 0x1BC s) false t) m s pa →
        exec (.sysTCtlrd m) s = .next (afterBundle m 0x1BC s (hold fun _ =>
          .ctl false ((portC k 0x1A2).addr + t) pa 0 asid (some (issueUndo m 0x1BC s)))))
    ∧ (∀ pa, Ready m 0x1BD s → Steady (ctlTarget (issueCtx m 0x1BD s) true t) m s pa →
        exec (.sysTCtlwr m) s = .next (afterBundle m 0x1BD s (hold fun _ =>
          .ctl true ((portC k 0x1A2).addr + t) pa (portX k 0x1A0) asid (some (issueUndo m 0x1BD s)))))

/-- The sys commands that do not hold issue. sys.t.invleaf and sys.t.invwalk, with SYSREG in sys.oc (0x1A2), queue their
invalidation; sys.t.krset sets one key's rights; sys.t.pwr stores sys.o at sys.oc's address; sys.t.cyc and sys.t.time write
sys.r (0x1A8) two cycles on; sys.t.yield lets a level wait for its next interrupt, and asks for a choice of another thread. -/
def Obligations.SysRuns : Prop :=
  ∀ (m : Iss) (s : State),
    let k := issueBank m s
    let t := valD (srcVal m s)
    let room := ((cellOf s m.core).inv.filter (fun i => !i.left)).length < 16
    (Ready m 0x1B0 s → sysregAuth (portC k 0x1A2) = none → room →
        exec (.sysTInvleaf m) s = .next (afterBundle m 0x1B0 s (fun c => { c with reqNo := c.reqNo + 1, inv := c.inv ++ [invRequest false m s] })))
    ∧ (Ready m 0x1B1 s → sysregAuth (portC k 0x1A2) = none → room →
        exec (.sysTInvwalk m) s = .next (afterBundle m 0x1B1 s (fun c => { c with reqNo := c.reqNo + 1, inv := c.inv ++ [invRequest true m s] })))
    ∧ (Ready m 0x1B8 s →
        exec (.sysTKrset m) s = .next (afterBundle m 0x1B8 s (modRun (fun k =>
          let key := t.toNat % 64
          let put := fun (w : W) (i : Nat) => (w &&& ~~~ (3#64 <<< (2 * i))) ||| (BitVec.ofNat 64 (t.toNat / 256 % 4) <<< (2 * i))
          markDirty 7 (if key < 32 then { k with krrl := put k.krrl key } else { k with krrh := put k.krrh (key - 32) })))))
    ∧ (∀ ps ok, Ready m 0x1C0 s → Steady (pwrParts (issueCtx m 0x1C0 s)) m s (ps, ok) →
        (cellOf s m.core).sb.length + (if 0x1000 < (portC k 0x1A2).addr.toNat % 0x1000 + 8 then 2 else 1) ≤ 16 →
        exec (.sysTPwr m) s = .next (afterBundle m 0x1C0 s (fun c =>
          { c with sb := c.sb ++ storeEntries m s (portC k 0x1A2).addr false false ps (leBytes 8 (portX k 0x1A0).toNat) })))
    ∧ (Ready m 0x1C4 s → exec (.sysTCyc m) s = .next (afterBundle m 0x1C4 s (starts m s 2 .sys
          (.ports [(0x1A8, BitVec.ofNat 64 (k.cyc + 1))]))))
    ∧ (Ready m 0x1C5 s → exec (.sysTTime m) s = .next (afterBundle m 0x1C5 s (starts m s 2 .sys
          (.ports [(0x1A8, BitVec.ofNat 64 (s.time.now / (1000000000 * 2 ^ 32) % 2 ^ 32 * 2 ^ 32
            + s.time.now % (1000000000 * 2 ^ 32) / 2 ^ 32))]))))
    ∧ (Ready m 0x1C1 s → 5 ≤ (cellOf s m.core).run →
        exec (.sysTYield m) s = .next (afterBundle m 0x1C1 s (fun c => { c with waiting := true })))
    ∧ (Ready m 0x1C1 s → (cellOf s m.core).run < 5 → 256 ≤ m.core →
        exec (.sysTYield m) s = .next (afterBundle m 0x1C1 s id))
    ∧ (Ready m 0x1C1 s → (cellOf s m.core).run < 5 → m.core < 256 →
        ∃ t, exec (.sysTYield m) s = .next t ∧ (cellOf t m.core).resched = true
          ∧ bankOf (cellOf t m.core) (cellOf s m.core).run
            = bankOf (cellOf (afterBundle m 0x1C1 s id) m.core) (cellOf s m.core).run)

namespace Sys2Proof.Machine

/-- The state after a stall that ends: the core may issue its next bundle. The length of a memory stall is a free value, of
a cycle at least (log entry 56). -/
def stallOver (core : Nat) (s : State) : State :=
  { setCell core { passCycles (1 + Config.stallCycles s.fresh) { cellOf s core with stall := .none, stallPc := none } with
      walked := false } s with fresh := s.fresh + 1 }

end Sys2Proof.Machine

/-- The waits of the sys unit end: sys.t.fence when the buffer is empty and the bank's loads have returned (or only stores
count), sys.t.gfence when the buffer is empty and the gate has applied and completed what it accepted, its drain bit clear
then unless another fence waits there, sys.t.invsync when every invalidation of the core has been acknowledged. -/
def Sys2Proof.Machine.SysWaitsEnd : Prop :=
  ∀ (core : Nat) (s : State), serves core s → (cellOf s core).away = none → (cellOf s core).heldUp = false →
    let c := cellOf s core
    (∀ so, c.stall = .fence so → c.sb = [] → (so = true ∨ ∀ l ∈ c.loads, l.arr = true ∨ l.bank ≠ c.run) →
      exec (.fenceComplete core) s = .next (stallOver core s))
    ∧ (∀ g, c.stall = .gfence g true → c.sb = [] → (∀ e ∈ s.gatePend, e.1 ≠ g) → gateBusy s g = false →
      exec (.gateFenceComplete core) s = .next (setRegF (gateBlock g + 0x10) 0 0
        (if gateFenced (stallOver core s) g then 1 else 0) (stallOver core s)))
    ∧ (c.stall = .invsync → c.inv = [] → exec (.invsyncComplete core) s = .next (stallOver core s))

/-- The access of sys.t.ctlrd or sys.t.ctlwr is made once the store buffer is empty: a read leaves the word in sys.r (0x1A8),
and a write is made; the stall ends. Stated of memory in its canonical form that meets no poison code, where the gate admits
the access (R265, R270) and no load goes before it (R278); the words of the control space are the statements about words. -/
def Sys2Proof.Machine.ControlAccess : Prop :=
  ∀ (core pa asid : Nat) (va v : W) (u : Option Undo) (e : Ret) (s : State), serves core s → s.memWf = true →
    (cellOf s core).sb = [] → (cellOf s core).loads = [] → (cellOf s core).away = none → (cellOf s core).heldUp = false →
    inRam pa 8 → reqWaits s core pa = false → poisoned s pa = false →
    ((cellOf s core).stall = .ctl false va pa v asid u → (∃ g, gateCheck s core pa 8 .read = .ok g) →
      ∃ t, exec (.sysResult ⟨core, e, [], .none⟩) s = .next t
      ∧ (cellOf t core).stall = .none ∧ portX (runBank (cellOf t core)) 0x1A8 = BitVec.ofNat 64 (memNat s pa 8)
      ∧ t.mem = s.mem ∧ (∀ n, n ≠ core → cellOf t n = cellOf s n))
    ∧ ((cellOf s core).stall = .ctl true va pa v asid u → (∃ g, gateCheck s core pa 8 .write = .ok g) →
      ∃ t, exec (.sysResult ⟨core, e, [], .none⟩) s = .next t ∧ (cellOf t core).stall = .none ∧ memNat t pa 8 = v.toNat
        ∧ (∀ a, a < pa ∨ pa + 8 ≤ a → memGet t.mem a = memGet s.mem a) ∧ (∀ n, n ≠ core → cellOf t n = cellOf s n))

/-- The sys commands that wait hold issue, and what they wait for ends the wait. -/
def Obligations.SysWaitsHoldAndEnd : Prop := SysWaitsHold ∧ SysWaitsEnd ∧ ControlAccess

namespace Sys2Proof.Machine

/-- An entry that an invalidation removes: it translates an address of the range (a length of 0 is every address), in its
address space or in every one, and is not global unless global entries are asked for (R251). -/
def invRemoves (r : InvReq) (e : TlbEntry) : Prop :=
  (r.len = 0 ∨ (e.vbase ≤ r.va.toNat + r.len.toNat - 1 ∧ e.vbase ≤ 2 ^ 64 - 1 ∧ r.va.toNat < e.vbase + 2 ^ e.size))
  ∧ (r.all = true ∨ e.asid = r.asid ∨ (e.glob = true ∧ r.glob = true)) ∧ (e.glob = true → r.glob = true)

/-- The cells that a scope takes in: a cell's own, its block's, its region's or all (R22). -/
def inScope (core scope n : Nat) : Prop :=
  n < 256 ∧ (if core < 256 then (scope = 0 → n = core) ∧ (scope = 1 → n / 16 = core / 16) ∧ (scope = 2 → n / 64 = core / 64)
             else (scope ≠ 3 → n / 64 = core - 256))

end Sys2Proof.Machine

/-- An invalidation leaves its cell when the stores before it have been performed, and awaits the acknowledgement of every
cell in its scope; a cell that has no access through an entry that it removes drops every such entry, keeps every other one,
and acknowledges; the last acknowledgement ends the invalidation. -/
def Obligations.Invalidations : Prop :=
  (∀ (core : Nat) (s : State) (sent rest : List InvReq) (r : InvReq), serves core s → r.scope < 4 →
    (cellOf s core).inv = sent ++ r :: rest → (∀ i ∈ sent, i.left = true) → r.left = false → r.stores = 0 → r ∉ rest →
      ∃ acks, exec (.invalidationRelease core) s = .next (setCell core
          { cellOf s core with inv := sent ++ { r with left := true, acks := acks } :: rest } s)
        ∧ (∀ n, n ∈ acks ↔ inScope core r.scope n))
  ∧ (∀ (issuer target : Nat) (s : State) (r : InvReq) (acks : List Nat), serves issuer s →
    (cellOf s issuer).inv = [r] → r.left = true → r.acks = target :: acks → invBlocked r s target = false →
      ∃ t, exec (.invalidationAck issuer target) s = .next t
        ∧ (∀ e, e ∈ (cellOf t target).tlb ↔ e ∈ (cellOf s target).tlb ∧ ¬ invRemoves r e)
        ∧ (r.walk = true → ∀ w, w ∈ (cellOf t target).wc ↔
            w ∈ (cellOf s target).wc ∧ ¬(r.all = true ∨ w.asid = r.asid))
        ∧ (r.walk = false → (cellOf t target).wc = (cellOf s target).wc)
        ∧ (cellOf t issuer).inv = (if acks = [] then [] else [{ r with acks := acks }])
        ∧ t.mem = s.mem ∧ t.regs = s.regs ∧ (∀ n, n ≠ issuer → n ≠ target → cellOf t n = cellOf s n))

namespace Sys2Proof.Machine

/-- The answer that a manager sends to the core that waits for it. -/
def answered (t : State) (q : QReq) (a : QAns) : Prop := ∃ sent u, (cellOf t q.core).stall = .q q sent (some a) u

end Sys2Proof.Machine

namespace Sys2Proof.Machine

/-- A manager's cache is within its bounds: 4,096 descriptors, of them 1,024 pinned (R317). -/
def cacheFits (s : State) (r : Nat) : Prop := (qCacheOf s r).length ≤ 4096 ∧ qPinned s r ≤ 1024

end Sys2Proof.Machine

/-- A queue operation is performed by its manager, oldest first, on a descriptor that its cache, within its bounds, holds: a status query answers
with the count; an arm stores the condition and the armed cell; an empty queue answers a dequeue with 0x02 and a full one, or
one that may not block, an enqueue with 0x01 or 0x03; an enqueue with room stores its message behind the tail; a dequeue
gives the oldest message. -/
def Obligations.QueueOperations : Prop :=
  ∀ (r : Nat) (s : State) (q : QReq) (qs : List QReq) (d : QDesc), pstateOf s = 0 → r < 4 → regionOut s r = false →
    tblGet [] s.qman r = q :: qs → (qCacheOf s r).find? (fun x => x.q == q.queue) = some d → dEn d = true →
    (∃ sent u, (cellOf s q.core).stall = .q q sent none u) → pathWaits s (initSite q.core) ⟨some r, none⟩ = false →
    qPathsWait s r q.queue (queueParts s q) = false → cacheFits s r →
    (q.op = .stat → ∃ t, exec (.queueOperation r .none) s = .next t ∧ tblGet [] t.qman r = qs
        ∧ answered t q (ansOf 0x00 0 (dCount d)) ∧ t.mem = s.mem)
    ∧ (q.op = .wait → 0 < dCount d → ∃ t, exec (.queueOperation r .none) s = .next t ∧ tblGet [] t.qman r = qs
        ∧ answered t q (ansOf 0x00 0 (dCount d)) ∧ t.mem = s.mem)
    ∧ (q.op = .arm → d.ws.length = 8 →
        let cond := q.od.toNat / 256 % 4
        let lev := q.od.toNat / 2 ^ 22 % 2 ^ 21
        let holds : Prop := (cond = 1 ∧ 0 < dCount d) ∨ (cond = 2 ∧ lev ≤ dCount d) ∨ (cond = 3 ∧ dCount d ≤ lev)
        ∃ t e, exec (.queueOperation r .none) s = .next t ∧ tblGet [] t.qman r = qs
        ∧ e ∈ qCacheOf t r ∧ e.q = d.q ∧ dFld e 2 6 0 = q.od.toNat % 128 ∧ dFld e 2 21 12 = q.core % 1024
        ∧ dFld e 2 10 8 = q.od.toNat / 256 % 8 ∧ dFld e 2 42 22 = lev
        ∧ (dFld e 2 7 7 = 1 ↔ cond ≠ 0 ∧ ¬(holds ∧ q.od.getLsbD 10 = false))
        ∧ (holds → isCore q.core = true → (cellOf t q.core).ipend.getLsbD (q.od.toNat % 128) = true)
        ∧ answered t q (ansOf 0x00 0 (dCount d)) ∧ t.mem = s.mem)
    ∧ (q.op = .deq ∨ q.op = .deqd → dCount d = 0 → ∃ t, exec (.queueOperation r .none) s = .next t
        ∧ tblGet [] t.qman r = qs ∧ answered t q (ansOf 0x02 0 0) ∧ t.mem = s.mem)
    ∧ (q.op = .enqd → 8 ≤ dE d → dN d ≤ dCount d → (bit (dW d 0) 57 = true → q.level ≠ 0) →
        ∃ t, exec (.queueOperation r .none) s = .next t ∧ tblGet [] t.qman r = qs
          ∧ answered t q (ansOf (if bit (dW d 0) 57 then 0x03 else 0x01) 8 (dCount d)) ∧ t.mem = s.mem)
    ∧ (q.op = .enqd → 8 ≤ dE d → dN d ≤ dCount d → bit (dW d 0) 57 = true → q.level = 0 →
        ∃ t, exec (.queueOperation r .none) s = .next t ∧ tblGet [] t.qman r = qs
          ∧ answered t q { ansOf 0x00 8 (dCount d) with blocked := true }
          ∧ qWaiters t d.q = qWaiters s d.q ++ [q] ∧ t.mem = s.mem)
    ∧ (q.op = .enqd → s.memWf = true → 16 ≤ dE d → dCount d < dN d → q.parts = [] → d.ws.length = 8 → dBase d + dN d * (dE d + 2) ≤ 2 ^ 48 →
        rangeCheck s (qInit r) (entryAt d (dFld d 1 63 32)) (dE d) .write = none →
        rangeCheck s (qInit r) (lenAt d (dFld d 1 63 32)) 2 .write = none →
        ringPoison s true (entryAt d (dFld d 1 63 32)) (dE d) = none →
        ringPoison s true (lenAt d (dFld d 1 63 32)) 2 = none →
        ∃ t e, exec (.queueOperation r .none) s = .next t ∧ tblGet [] t.qman r = qs
          ∧ e ∈ qCacheOf t r ∧ e.q = d.q ∧ dFld e 1 63 32 = (dFld d 1 63 32 + 1) % 2 ^ 32
          ∧ memNat t (entryAt d (dFld d 1 63 32)) 8 = q.t.toNat ∧ memNat t (lenAt d (dFld d 1 63 32)) 2 = 8
          ∧ answered t q (ansOf 0x00 8 (dCount e)))
    ∧ (q.op = .deqd → 0 < dCount d → d.ws.length = 8 → qWaiters s d.q = [] →
        rangeCheck s (qInit r) (entryAt d (dFld d 1 31 0)) (dE d) .read = none →
        rangeCheck s (qInit r) (lenAt d (dFld d 1 31 0)) 2 .read = none →
        ringPoison s false (lenAt d (dFld d 1 31 0)) 2 = none →
        ringPoison s false (entryAt d (dFld d 1 31 0)) (dE d) = none →
        physNat s (lenAt d (dFld d 1 31 0)) 2 ≤ min 8 (dE d) →
        ∃ t e, exec (.queueOperation r .none) s = .next t ∧ tblGet [] t.qman r = qs
          ∧ e ∈ qCacheOf t r ∧ e.q = d.q ∧ dFld e 1 31 0 = (dFld d 1 31 0 + 1) % 2 ^ 32 ∧ t.mem = s.mem
          ∧ answered t q {
              status := 0x00, len := physNat s (lenAt d (dFld d 1 31 0)) 2, count := dCount d - 1,
              data := some (BitVec.ofNat 64 (physNat s (entryAt d (dFld d 1 31 0)) (physNat s (lenAt d (dFld d 1 31 0)) 2))) })

/-- The answer reaches the core: q.r (0x178) has the status, the length and the count, q.rd (0x179) the dequeued word, and
issue goes on; a request that the manager refused for its length undoes its bundle and takes its exception; a thread that may
block leaves the core, its slot blocked at the queue. A wake finishes the trigger bundle of a blocked thread and makes it
ready. -/
def Sys2Proof.Machine.QueueAnswers : Prop :=
  ∀ (core : Nat) (v : Ret) (s : State), serves core s → (cellOf s core).away = none → (cellOf s core).heldUp = false →
    (∀ q sent a u, (cellOf s core).stall = .q q sent (some a) (some u) → a.fault = none → a.bad = none → a.blocked = false →
      q.bank = (cellOf s core).run →
      ∃ t, exec (.qAnswer ⟨core, v, [], .none⟩) s = .next t ∧ (cellOf t core).stall = .none
        ∧ portX (bankOf (cellOf t core) q.bank) 0x178
          = BitVec.ofNat 64 (a.status + a.len % 2 ^ 16 * 2 ^ 16 + a.count % 2 ^ 32 * 2 ^ 32)
        ∧ (∀ w, a.data = some w → portX (bankOf (cellOf t core) q.bank) 0x179 = w)
        ∧ (∀ p, p ≠ 0x178 → p ≠ 0x179 →
            portX (bankOf (cellOf t core) q.bank) p = portX (bankOf (cellOf s core) q.bank) p)
        ∧ t.mem = s.mem)
    ∧ (∀ q sent a u n, (cellOf s core).stall = .q q sent (some a) (some u) → a.fault = none → a.bad = none → a.blocked = true →
      q.bank = (cellOf s core).run → (cellOf s core).cur = some n → q.slot = n → (slotOf (cellOf s core) n).want = none →
      ∃ t, exec (.qAnswer ⟨core, v, [], .none⟩) s = .next t ∧ (cellOf t core).stall = .none ∧ (cellOf t core).cur = none
        ∧ (slotOf (cellOf t core) n).state = 3 ∧ (slotOf (cellOf t core) n).waitq = q.queue ∧ t.mem = s.mem)
    ∧ (∀ q sent a u f, (cellOf s core).stall = .q q sent (some a) (some u) → a.fault = some f →
      exec (.qAnswer ⟨core, v, [], .none⟩) s
        = .next (watch core s none (raiseSync core f (modCell core (qUndo u q) (stallPass core s)) v)))
    ∧ (∀ w ws k f b, (cellOf s core).wakes = w :: ws → (slotOf (cellOf s core) w.slot).state = 3 →
      (slotOf (cellOf s core) w.slot).waitq = w.queue → w.again = false → blockComes w (cellOf s core) = false →
      (slotOf (cellOf s core) w.slot).fin = some (k, f) → (slotOf (cellOf s core) w.slot).bank = some b →
      ∃ t, exec (.threadWake core) s = .next t ∧ (cellOf t core).wakes = ws ∧ (slotOf (cellOf t core) w.slot).state = 1
        ∧ portX (bankOf (cellOf t core) b) 0x178
          = BitVec.ofNat 64 (w.status + w.len % 2 ^ 16 * 2 ^ 16 + w.count % 2 ^ 32 * 2 ^ 32)
        ∧ (∀ p, p ≠ 0x178 → p ≠ 0x0C8 → p ≠ 0x191 → portX (bankOf (cellOf t core) b) p = portX k p)
        ∧ (∀ p, p = 0x0C8 ∨ p = 0x191 →
            portX (bankOf (cellOf t core) b) p = portX (bankOf (cellOf s core) b) p)
        ∧ (bankOf (cellOf t core) b).pcc = k.pcc)

/-- A q trigger sends its request and holds its core; the answer and a wake complete it. The count beside a status
0x04 is a free value (log entry 15). -/
def Obligations.QueueTriggersAndAnswers : Prop := QueueTriggersSend ∧ QueueAnswers

/-- The requests of a core reach the trip unit in order. An invocation of an object that one voter suffices for makes it
active with the invoker's word, and is answered 0x00; one under two of three that no other voter's live registration meets is
registered and answered 0x01; a release after the pulse time of a held object clears it and is answered 0x04; a query answers
with the object's state word; each answer then writes trp.r (0x191), oldest first. -/
def Sys2Proof.Machine.TripRequests : Prop :=
  ∀ (core : Nat) (bus : List Nat) (s : State) (r : TrpReq) (rs : List TrpReq), serves core s →
    (cellOf s core).trp = r :: rs → pathWaits s (initSite core) ⟨none, none⟩ = false →
    (∀ o, r.op = .inv → r.ans = none → r.ahead = 0 → tripTurn s (core / 64 % 4) = true → tripObj s r.obj = some o → inService s = true → o.ven.testBit r.voter = true →
      o.act = false → o.rule = 0 → r.voter = 0 → rs = [] →
      ∃ t p, exec (.tripInvocation ⟨core, bus⟩) s = .next t ∧ (cellOf t core).trp = [{ r with ans := some 0x00 }]
        ∧ tripObj t r.obj = some p ∧ p.act = true ∧ p.word = r.word ∧ p.ntrip = o.ntrip + 1 ∧ p.since = s.time.dur)
    ∧ (∀ o, r.op = .inv → r.ans = none → r.ahead = 0 → tripTurn s (core / 64 % 4) = true → tripObj s r.obj = some o → inService s = true → o.ven.testBit r.voter = true →
      o.act = false → o.rule = 2 → o.regs = [] → rs = [] →
      ∃ t, exec (.tripInvocation ⟨core, bus⟩) s = .next t ∧ (cellOf t core).trp = [{ r with ans := some 0x01 }]
        ∧ tripObj t r.obj = some { o with regs := [{ voter := r.voter, ti := s.time.dur, region := core / 64 % 4, word := r.word }] })
    ∧ (∀ o, r.op = .rel → r.ans = none → r.ahead = 0 → tripTurn s (core / 64 % 4) = true → tripObj s r.obj = some o → o.act = true → o.lmode = 1 →
      o.since + o.tpulse * (1000000 * 2 ^ 32) ≤ s.time.dur → rs = [] →
      ∃ t p, exec (.tripRelease ⟨core, bus⟩) s = .next t ∧ (cellOf t core).trp = [{ r with ans := some 0x04 }]
        ∧ tripObj t r.obj = some p ∧ p.act = false)
    ∧ (∀ o, r.op = .query → r.ans = none → r.ahead = 0 → tripTurn s (core / 64 % 4) = true → tripObj s r.obj = some o → rs = [] →
      exec (.tripQuery core) s = .next (setCell core
        { cellOf s core with trp := [{ r with ans := some (tripWord s o) }] }
        { s with trip := { s.trip with turn := some (s.time.dur, core / 64 % 4) } }))
    ∧ (∀ w, r.ans = some w → (cellOf s core).trpHeld = none →
      exec (.trpAck core) s = .next (setCell core
        { setBank r.bank (markDirty 7 (setX 0x191 w (bankOf (cellOf s core) r.bank))) (cellOf s core) with trp := rs } s))

/-- A trp trigger sends its request, and the trip unit answers the requests of a core in order. -/
def Obligations.TripTriggersAndRequests : Prop := TripTriggersStart ∧ TripRequests

/-! ## Threads, cells and their words (R196 to R201, R209, R215 to R220, R228 to R247) -/

/-- A thread whose bank is in place takes the core at an interrupt point: the ready thread of the highest priority, of these
the least recently run; it runs from its bank after the switch cycles. A used-up quantum asks for a choice when another ready
thread has its priority. -/
def Sys2Proof.Machine.ThreadsSwitch : Prop :=
  (∀ (core n b : Nat) (s : State), serves core s → core < 256 → Quiet (cellOf s core) → atPoint (cellOf s core) = true →
    (cellOf s core).run < 5 → (cellOf s core).stopReq = false → (cellOf s core).cur = none →
    (∃ t, (n, t) ∈ (cellOf s core).slots) → (slotOf (cellOf s core) n).state = 1 →
    (slotOf (cellOf s core) n).bank = some b → (slotOf (cellOf s core) n).fin = none →
    (slotOf (cellOf s core) n).resume = none →
    (∀ e ∈ (cellOf s core).slots, e.2.state = 1 → e.1 ≠ n → e.2.prio < (slotOf (cellOf s core) n).prio
      ∨ (e.2.prio = (slotOf (cellOf s core) n).prio ∧ (slotOf (cellOf s core) n).last < e.2.last)) →
      ∃ t, exec (.threadSwitch core) s = .next t ∧ t = setCell core (cellOf t core) s
        ∧ (cellOf t core).cur = some n ∧ (cellOf t core).run = b ∧ (slotOf (cellOf t core) n).state = 2
        ∧ (cellOf t core).now = (cellOf s core).now + switchCycles ∧ bankOf (cellOf t core) b = bankOf (cellOf s core) b
        ∧ (∀ k, k ≠ n → slotOf (cellOf t core) k = slotOf (cellOf s core) k))
  ∧ (∀ (core n : Nat) (s : State), serves core s → (cellOf s core).cur = some n →
    (slotOf (cellOf s core) n).quantum ≠ 0 → (slotOf (cellOf s core) n).quantum ≤ (slotOf (cellOf s core) n).used →
    (∃ e ∈ (cellOf s core).slots, e.1 ≠ n ∧ e.2.state = 1 ∧ e.2.prio = (slotOf (cellOf s core) n).prio) →
      exec (.quantumExpiry core) s = .next (setCell core { cellOf s core with resched := true } s))

/-- With memory in its canonical form, a spill of a bank of which group 0 alone is dirty writes d0 to d7 to the start of the thread's cocoon and frees the bank;
a restore of a cocoon of which group 0 alone was written loads d0 to d7 from it, leaves every other register zero, and runs
the thread 24 cycles later. Stated in bare mode, with the cocoon in memory. -/
def Sys2Proof.Machine.CocoonsMove : Prop :=
  (∀ (core n b : Nat) (s : State) (a : Nat), serves core s → core < 256 → s.memWf = true → (cellOf s core).spillHalt = false →
    (cellOf s core).stopped = false → Quiet (cellOf s core) → spillVictim (cellOf s core) = some (n, b) →
    (bankOf (cellOf s core) b).dirty = 1 → (bankOf (cellOf s core) b).asid = 0 →
    contextFail (slotOf (cellOf s core) n).ctx = none → capBase (slotOf (cellOf s core) n).ctx = a → inRam a 64 → a % 4096 = 0 →
    reqWaits s core a = false → rangeCheck s core a 64 .write = none →
      ∃ t, exec (.spillComplete core .ok 8) s = .next t
        ∧ (∀ i < 8, memNat t (a + 8 * i) 8 = (portX (bankOf (cellOf s core) b) i).toNat)
        ∧ (∀ x, x < a ∨ a + 64 ≤ x → memGet t.mem x = memGet s.mem x)
        ∧ (slotOf (cellOf t core) n).clean = true ∧ (bankOf (cellOf t core) b).dirty = 0
        ∧ (slotOf (cellOf t core) n).wmask = (slotOf (cellOf s core) n).wmask ||| 1)
  ∧ (∀ (core n b : Nat) (s : State) (a x : Nat), serves core s → core < 256 → (cellOf s core).restore = some (n, b) →
    (slotOf (cellOf s core) n).state = 1 → (slotOf (cellOf s core) n).asid = some 0 → (slotOf (cellOf s core) n).wmask = 1 →
    (slotOf (cellOf s core) n).fin = none → (slotOf (cellOf s core) n).resume = none →
    contextFail (slotOf (cellOf s core) n).ctx = none → capBase (slotOf (cellOf s core) n).ctx = a → inRam a 64 → a % 4096 = 0 →
    reqWaits s core a = false → rangeCheck s core a 64 .read = none → poisoned s a = false →
      ∃ t, exec (.cocoonRestore core x .ok 8) s = .next t ∧ t = setCell core (cellOf t core) s
        ∧ (cellOf t core).cur = some n ∧ (cellOf t core).run = b ∧ (slotOf (cellOf t core) n).state = 2
        ∧ (cellOf t core).now = (cellOf s core).now + 24 ∧ (cellOf t core).restore = none
        ∧ (∀ i < 8, portX (bankOf (cellOf t core) b) i = BitVec.ofNat 64 (memNat s (a + 8 * i) 8))
        ∧ (∀ i, 8 ≤ i → portX (bankOf (cellOf t core) b) i = 0) ∧ (∀ i, portC (bankOf (cellOf t core) b) i = Cap.null))

/-- A thread takes the core; its bank is spilled to its cocoon and restored from it. -/
def Obligations.ThreadsAndCocoonsMove : Prop := ThreadsSwitch ∧ CocoonsMove

/-- The events of a cell: a compare that the timebase has reached raises source 0 once; a stop that was requested stops the
cell at an interrupt point; the flush of a cell with no thread ends, with event 0x06 and the out bit in the cell's record; a
bank load loads the masked elements from memory, with the
access of the cell itself, and clears poison; a walk fills the TLB with the leaf of the address. -/
def Obligations.CellEvents : Prop :=
  ∀ (core : Nat) (s : State), serves core s → core < 256 →
    let c := cellOf s core
    let w := reg s (ctlBase core + 0x88)
    (c.tcmpArm = true → w.toNat / 2 ^ 32 = s.time.now / (1000000000 * 2 ^ 32) % 2 ^ 32 →
      w.toNat % 2 ^ 32 ≤ s.time.now % (1000000000 * 2 ^ 32) / 2 ^ 32 →
      exec (.tcmpFire core) s = .next (setCell core { c with tcmpArm := false, ipend := c.ipend ||| 1 } s))
    ∧ (c.stopReq = true → atPoint c = true → Quiet c → c.cur = none → (∀ e ∈ s.mon.comps, e.2.move = none) →
      ∃ t, exec (.cellStop core) s = .next t
        ∧ cellOf t core = { c with stopped := true, flush := true, stopReq := false, runBit := false, waiting := false,
                                   stall := .none, stallPc := none, held := none, after := none, away := none, trpHeld := none,
                                   walked := false }
        ∧ reg t (ctlBase core + 0x30) = 0 ∧ reg t (ctlBase core + 0x38) = 0 ∧ reg t (ctlBase core + 0x40) = 0
        ∧ reg t (ctlBase core + 0x48) = (if hasContext c then c.stallPc.getD (runBank c).pcc.addr else 0)
        ∧ t.mem = s.mem)
    ∧ (∀ e slot g, c.flush = true → c.slots = [] → c.wdStop = none → c.heldUp = false → Quiet c → c.trp = [] →
      ∃ t, exec (.cellStopFlushDone ⟨core, e, slot, g⟩) s = .next t ∧ (cellOf t core).flush = false
        ∧ (cellOf t core).stopped = c.stopped ∧ (∀ b, bankOf (cellOf t core) b = bankOf c b)
        ∧ reg t (ctlBase core + 0x58) = 0 ∧ (reg t (recAddr (.cell core) + 0x18)).toNat % 2 ^ 16 = 0x06
        ∧ (reg t (recAddr (.cell core) + 0x30)).getLsbD 0 = true ∧ t.mem = s.mem)
    ∧ (∀ b base i, c.bkBusy = some (b, base) → i < 32 → (reg s (ctlBase core + 0x100)).toNat = 2 ^ i →
      inRam (base + 8 * i) 8 → rangeCheck s core (base + 8 * i) 8 .read = none → reqWaits s core (base + 8 * i) = false →
      piecesBad s false 0 (partPieces [(base + 8 * i, 8)]) = none →
      ∃ t, exec (.bkldComplete core .ok) s = .next t ∧ t = setCell core (cellOf t core) s ∧ (cellOf t core).bkBusy = none
        ∧ portX (bankOf (cellOf t core) b) i = BitVec.ofNat 64 (memNat s (base + 8 * i) 8)
        ∧ (∀ j, j ≠ i → portX (bankOf (cellOf t core) b) j = portX (bankOf c b) j)
        ∧ (bankOf (cellOf t core) b).poison = false ∧ (bankOf (cellOf t core) b).c = (bankOf c b).c)
    ∧ (∀ (va : W) (e leaf : W) (at_ : Nat) (v : Ret), mayIssue s core = true → (runBank c).asid ≠ 0 → c.tlb = [] → c.wc = [] →
      c.walkBad = none → reqWaits s core (asEntryAt core (runBank c).asid) = false → va.toNat < 2 ^ 38 → poisoned s (asEntryAt core (runBank c).asid) = false →
      gateCheck s core (asEntryAt core (runBank c).asid) 8 .read = .ok (0x110 + core / 64) →
      ordOf s (asEntryAt core (runBank c).asid) ≠ 2 →
      e = BitVec.ofNat 64 (physNat s (asEntryAt core (runBank c).asid) 8) → e.toNat % 2 ^ 24 = 1 →
      (∃ g, gateCheck s core (e.toNat / 2 ^ 24 % 2 ^ 36 * 0x1000 + 8 * (va.toNat / 2 ^ 30)) 8 .read = .ok g) →
      ordOf s (e.toNat / 2 ^ 24 % 2 ^ 36 * 0x1000 + 8 * (va.toNat / 2 ^ 30)) ≠ 2 →
      reqWaits s core (e.toNat / 2 ^ 24 % 2 ^ 36 * 0x1000 + 8 * (va.toNat / 2 ^ 30)) = false →
      poisoned s (e.toNat / 2 ^ 24 % 2 ^ 36 * 0x1000 + 8 * (va.toNat / 2 ^ 30)) = false →
      leaf = BitVec.ofNat 64 (physNat s (e.toNat / 2 ^ 24 % 2 ^ 36 * 0x1000 + 8 * (va.toNat / 2 ^ 30)) 8) →
      leaf.toNat % 2 ^ 24 = 3 + 2 ^ 2 + 2 ^ 5 + 30 * 2 ^ 9 → leaf.toNat / 2 ^ 24 % 2 ^ 36 * 0x1000 % 2 ^ 30 = 0 →
      (runBank c).krrl.toNat % 4 ≠ 3 → leaf.toNat / 2 ^ 24 % 2 ^ 36 * 0x1000 + va.toNat % 2 ^ 30 < 2 ^ 48 →
      ∃ t, exec (.translationWalk core va .load ⟨.ok, at_, v⟩) s = .next t ∧ t = setCell core (cellOf t core) s
        ∧ (cellOf t core).tlb = [{ asid := (runBank c).asid, glob := false, vbase := va.toNat / 2 ^ 30 * 2 ^ 30, size := 30,
                                   entry := leaf, level := 2 }]
        ∧ (cellOf t core).banks = c.banks)

namespace Sys2Proof.Machine

/-- A write of a control-space word by an initiator reaches the word: the chip is on, the initiator is in service, and the
gate of the word's part allows it (R37, R43, R268); it waits for no link, no gate and no turn (R24, R265, R372). -/
def lands (init a : Nat) (s : State) : Prop :=
  pstateOf s = 0 ∧ initLive s init = true ∧ reqWaits s init a = false ∧ ∃ g, gateCheck s init a 8 .write = .ok g

end Sys2Proof.Machine

/-- The words of a cell's control block that act at once: a compare is armed, unless 0 is written; swi raises source 1; a map
entry with clr clears its source's pending bit; run starts a stopped cell by an entry at level 1 with code START; a run bit
of 0 asks for a stop; rst frees every slot, clears every bank and stops the cell. -/
def Sys2Proof.Machine.CellWords : Prop :=
  ∀ (init core : Nat) (v : W) (r : Ret) (s : State), core < 256 →
    let c := cellOf s core
    let a := fun (off : Nat) => ctlBase core + off
    (lands init (a 0x088) s → exec (.tcmpWrite init core v) s =
      .next (setCell core { c with tcmpArm := v != 0 } (setReg (a 0x088) v s)))
    ∧ (lands init (a 0x080) s → exec (.swi init core v) s = .next (setCell core { c with ipend := c.ipend ||| 2 } s))
    ∧ (∀ i < 128, lands init (a (0x400 + 8 * i)) s → v.getLsbD 4 = true → exec (.imapClr init core i v) s =
      .next (setCell core { c with ipend := c.ipend &&& ~~~ BitVec.ofNat 128 (2 ^ i) }
        (setReg (a (0x400 + 8 * i)) (BitVec.ofNat 64 (v.toNat % 8)) s)))
    ∧ (lands init (a 0x008) s → v.getLsbD 0 = true → v.getLsbD 2 = false → c.stopped = false →
      exec (.cctlRunStart init core ⟨v, r⟩) s = .next (setCell core { c with vtm := v.getLsbD 1, runBit := true } s))
    ∧ (∀ target, lands init (a 0x008) s → v.getLsbD 0 = true → v.getLsbD 2 = false → c.stopped = true → c.flush = false → c.powered = true →
      v.getLsbD 1 = false → jumpCheck c.entry = none → (bankOf c 5).poison = false → c.cur = none →
      target = withType c.entry 0 →
      ∃ t, exec (.cctlRunStart init core ⟨v, r⟩) s = .next t ∧ (cellOf t core).stopped = false ∧ (cellOf t core).run = 5
        ∧ (bankOf (cellOf t core) 5).pcc = target ∧ (bankOf (cellOf t core) 5).cause.toNat % 256 = 0
        ∧ (bankOf (cellOf t core) 5).x = (bankOf c 5).x ∧ (bankOf (cellOf t core) 5).c = (bankOf c 5).c ∧ t.mem = s.mem)
    ∧ (lands init (a 0x008) s → v.getLsbD 0 = false → v.getLsbD 2 = false → c.stopped = false →
      exec (.cctlStopRequest init core v) s =
        .next (setCell core { c with vtm := v.getLsbD 1, stopReq := true, runBit := false } s))
    ∧ (lands init (a 0x008) s → v.getLsbD 2 = true → ∃ t, exec (.cctlRst init core v) s = .next t
        ∧ (cellOf t core).banks = [] ∧ (cellOf t core).slots = [] ∧ (cellOf t core).stopped = true ∧ (cellOf t core).ipend = 0
        ∧ (cellOf t core).entry = Cap.null ∧ (cellOf t core).vtm = v.getLsbD 1 ∧ (cellOf t core).tlb = c.tlb
        ∧ t.mem = s.mem)

/-- The words of a cell's control block that read memory: ENTRY is latched from a granule that holds an executable
capability, and is untagged and marked refused otherwise; bkld begins a bank load; a slot's control word sets its state and
priority, and its ctx word installs the thread of a CONTEXT capability. -/
def Sys2Proof.Machine.SlotWords : Prop :=
  ∀ (init core : Nat) (v : W) (s : State), core < 256 →
    let c := cellOf s core
    let a := fun (off : Nat) => ctlBase core + off
    (∀ r, lands init (a 0x010) s → v.toNat % 16 ≠ 0 → exec (.entryWrite init core ⟨v, r⟩) s =
      .next (setCell core { c with entry := Cap.null, entRef := true } (setReg (a 0x010) v s)))
    ∧ (lands init (a 0x010) s → v.toNat % 16 = 0 → inRam v.toNat 16 → (∃ g, gateCheck s core v.toNat 16 .read = .ok g) →
      poisoned s v.toNat = false → reqWaits s core v.toNat = false → (physCap s v.toNat).tag = true → (capPerms (physCap s v.toNat)).getLsbD 1 = true → capOtype (physCap s v.toNat) = 0 →
      exec (.entryWrite init core ⟨v, .ok⟩) s =
        .next (setCell core { c with entry := physCap s v.toNat, entRef := false } (setReg (a 0x010) v s)))
    ∧ (lands init (a 0x108) s → c.bkBusy = none → 5 ≤ v.toNat % 16 → v.toNat % 16 ≤ 11 → bankActive c (v.toNat % 16) = false →
      (reg s (a 0x100)).toNat < 2 ^ 52 → exec (.bkld init core v) s =
        .next (setCell core { c with bkBusy := some (v.toNat % 16, v.toNat / 16 % 2 ^ 44 * 16), bkRef := false } s))
    ∧ (∀ n < 64, lands init (a (0x1000 + 64 * n)) s → (slotOf c n).state ≠ 2 → (slotOf c n).state ≠ 3 →
      (v.toNat % 8 = 1 ∨ v.toNat % 8 = 4) → ∃ t, exec (.slotStateWrite init core n v) s = .next t
        ∧ slotOf (cellOf t core) n = { slotOf c n with state := v.toNat % 8, prio := v.toNat / 256 % 16 }
        ∧ (∀ k, k ≠ n → slotOf (cellOf t core) k = slotOf c k) ∧ (cellOf t core).banks = c.banks ∧ t.mem = s.mem)
    ∧ (∀ n < 64, lands init (a (0x1010 + 64 * n)) s → (slotOf c n).state = 0 → inRam (v.toNat % 2 ^ 48 / 16 * 16) 16 →
      (∃ g, gateCheck s core (v.toNat % 2 ^ 48 / 16 * 16) 16 .read = .ok g) →
      poisoned s (v.toNat % 2 ^ 48 / 16 * 16) = false → reqWaits s core (v.toNat % 2 ^ 48 / 16 * 16) = false →
      contextFail (physCap s (v.toNat % 2 ^ 48 / 16 * 16)) = none →
      ∃ t, exec (.slotCtxInstall init core n v) s = .next t
        ∧ (slotOf (cellOf t core) n).state = 1 ∧ (slotOf (cellOf t core) n).ctx = physCap s (v.toNat % 2 ^ 48 / 16 * 16)
        ∧ (slotOf (cellOf t core) n).bank = none ∧ (slotOf (cellOf t core) n).sres = 0 ∧ (slotOf (cellOf t core) n).wmask = 0xFF
        ∧ (slotOf (cellOf t core) n).prio = (slotOf c n).prio ∧ (∀ k, k ≠ n → slotOf (cellOf t core) k = slotOf c k)
        ∧ (cellOf t core).banks = c.banks ∧ t.mem = s.mem)

/-- The words of a cell's control block do what the spec gives them. -/
def Obligations.CellAndSlotWords : Prop := CellWords ∧ SlotWords

/-- Gates. A configuration write that the gate accepts waits until it applies it, and then is in force; the event words are
cleared by evclr; a word of the control space that its unit does not refuse is written by the word's own rule (R37), the trip
unit taking a command of a region in its turn (R372). Gate 0x0FF, whose block control gate 4 answers for, is left out (log
entry 39). -/
def Obligations.GateWords : Prop :=
  ∀ (init g : Nat) (v : W) (s : State), g ≤ 0x120 → g ≠ 0x0FF →
    let b := gateBlock g
    (∀ i < 64, lands init (b + 0x1010 + 0x100 * i) s → configRefusal s g (0x1010 + 0x100 * i) v = none →
      exec (.gateAttrWrite init g i v) s = .next
        { setReg (b + 0x10) 1 s with gatePend := s.gatePend ++ [(g, b + 0x1010 + 0x100 * i, attrKeep g v)] })
    ∧ (lands init (b + 0x48) s → v.getLsbD 0 = true →
      ∃ t, exec (.gateClear init g v) s = .next t
        ∧ (∀ o ∈ [0x18, 0x20, 0x28, 0x30], reg t (b + o) = 0)
        ∧ (∀ a, a ∉ [b + 0x18, b + 0x20, b + 0x28, b + 0x30] → reg t a = reg s a) ∧ t = { s with regs := t.regs })
    ∧ (∀ i < 64, pstateOf s = 0 → s.gatePend = [(g, b + 0x1010 + 0x100 * i, v)] → gateBusy s g = false →
      s.trip.late = [] →
      ∃ t, exec (.gateConfigApply g) s = .next t ∧ t.gatePend = [] ∧ reg t (b + 0x1010 + 0x100 * i) = v
        ∧ (reg t (b + 0x10)).getLsbD 0 = gateFenced s g ∧ (reg t (b + 0x38)).getLsbD i = v.getLsbD 0
        ∧ (reg t (b + 0x40)).getLsbD i = (v.getLsbD 5 && v.getLsbD 0) ∧ t.mem = s.mem ∧ t.cells = s.cells)
    ∧ (∀ a, lands init a s → inControl a = true → anyWidth a = false → a % 8 = 0 →
      (ctlPut false a v (tripTakes init a v s)).2 = false →
      exec (.controlSpaceWrite init a v) s = .next (ctlPut false a v (tripTakes init a v s)).1)
    ∧ (∀ r < 4, lands init (hubBase r + 0xF11000) s → exec (.controlSpaceWrite init (hubBase r + 0xF11000) v) s =
      .next (setReg (hubBase r + 0xF11000) (BitVec.ofNat 64 (v.toNat % 2 ^ 16)) s))

/-- Blocks. A write of a block's way configuration makes the changed ways busy, their write-back leaves them zero with clear
tags and gives the change to the block-store gate, and the gate's applying it ends it; wkick
restarts a cell's watchdog count, half its period raises source 2 once, and the whole period stops the cell, which is reset
when its flush ends, or 100 us later with the slots that are not flushed lost; eclr clears an error record but for fatal and
its cause. -/
def Obligations.BlockWords : Prop :=
  (∀ (init b : Nat) (v : W) (s : State), b < 16 → lands init (blockBase b + 8) s →
    ∃ t, exec (.wayConfigWrite init b v) s = .next t ∧ reg t (blockBase b + 8) = BitVec.ofNat 64 (v.toNat % 256)
      ∧ (∀ w < 8, (reg t (blockBase b + 0x10)).getLsbD w = ((reg s (blockBase b + 0x10)).getLsbD w
          || ((reg s (blockBase b + 8)).getLsbD w != v.getLsbD w)))
      ∧ t.mem = s.mem ∧ (∀ a, a ≠ blockBase b + 8 → a ≠ blockBase b + 0x10 → reg t a = reg s a))
  ∧ (∀ (b : Nat) (mask : W) (s : State), b < 16 → pstateOf s = 0 → mask.toNat < 256 → gateBusy s (0x100 + b) = false →
    s.trip.late = [] → s.gatePend = [(0x100 + b, blockBase b + 0x10, mask)] →
    ∃ t, exec (.gateConfigApply (0x100 + b)) s = .next t ∧ t.gatePend = []
      ∧ (∀ w < 64, (reg t (blockBase b + 0x10)).getLsbD w = ((reg s (blockBase b + 0x10)).getLsbD w && !mask.getLsbD w))
      ∧ t.mem = s.mem)
  ∧ (∀ (b w : Nat) (s : State), b < 16 → pstateOf s = 0 → w < 8 → (reg s (blockBase b + 0x10)).getLsbD w = true → s.memWf = true →
    (∀ e ∈ s.gatePend, e.2.1 ≠ blockBase b + 0x10) →
    ∃ t mask, exec (.wayChangeComplete b) s = .next t
      ∧ t.gatePend = s.gatePend ++ [(0x100 + b, blockBase b + 0x10, mask)]
      ∧ (∀ i < 8, mask.getLsbD i = (reg s (blockBase b + 0x10)).getLsbD i)
      ∧ (reg t (gateBlock (0x100 + b) + 0x10)).getLsbD 0 = true ∧ reg t (blockBase b + 0x10) = reg s (blockBase b + 0x10)
      ∧ (∀ a, 0x44000000 + 0x400000 * b + 0x80000 * w ≤ a → a < 0x44000000 + 0x400000 * b + 0x80000 * (w + 1) →
          memGet t.mem a = 0 ∧ memTag t a = false)
      ∧ (∀ a, a < 0x44000000 + 0x400000 * b ∨ 0x44000000 + 0x400000 * (b + 1) ≤ a → memGet t.mem a = memGet s.mem a))
  ∧ (∀ (init core : Nat) (v : W) (s : State), core < 256 → lands init (wdAddr core + 8) s →
    exec (.wkick init core v) s = .next (setCell core { cellOf s core with wdStart := s.time.dur } s))
  ∧ (∀ (core : Nat) (s : State), core < 256 → serves core s → (reg s (wdAddr core)).toNat % 4 = 1 →
    (reg s (wdAddr core)).toNat / 2 ^ 16 % 2 ^ 16 ≠ 0 →
    (cellOf s core).wdStart + (reg s (wdAddr core)).toNat / 2 ^ 16 % 2 ^ 16 * (1000 * 2 ^ 32) / 2 ≤ s.time.dur →
    (cellOf s core).wdHalf ≠ some (cellOf s core).wdStart →
    exec (.watchdogHalfPeriod core) s = .next (setCell core
      { cellOf s core with wdHalf := some (cellOf s core).wdStart, ipend := (cellOf s core).ipend ||| 4 } s))
  ∧ (∀ (core : Nat) (s : State), core < 256 → serves core s → (reg s (wdAddr core)).toNat % 4 = 1 →
    (reg s (wdAddr core)).toNat / 2 ^ 16 % 2 ^ 16 ≠ 0 →
    (cellOf s core).wdStart + (reg s (wdAddr core)).toNat / 2 ^ 16 % 2 ^ 16 * (1000 * 2 ^ 32) ≤ s.time.dur →
    (cellOf s core).wdStop = none →
    ∃ t, exec (.watchdogExpiry core) s = .next t ∧ (cellOf t core).stopped = true ∧ (cellOf t core).flush = true
      ∧ (cellOf t core).wdStop = some s.time.dur)
  ∧ (∀ (core at_ : Nat) (s : State), core < 256 → serves core s → (cellOf s core).wdStop = some at_ →
    at_ + 100 * (1000 * 2 ^ 32) ≤ s.time.dur →
    ∃ t, exec (.watchdogExpiry core) s = .next t ∧ (cellOf t core).stopped = true ∧ (cellOf t core).banks = []
      ∧ (cellOf t core).slots = [] ∧ (cellOf t core).wdStart = s.time.dur ∧ (cellOf t core).wdStop = none
      ∧ ((∀ e ∈ (cellOf s core).slots, e.1 < 64 ∧ e.2.state ≠ 3) →
          ∀ n < 64, (reg t (ctlBase core + 0x58)).getLsbD n = decide (n ∈ unflushed (cellOf s core))))
  ∧ (∀ (init i : Nat) (v : W) (s : State) (r : Rec), recOfIndex i = some r → lands init (recAddr r + 0x38) s → v.getLsbD 0 = true →
    ∃ t, exec (.eclr init i v) s = .next t ∧ (∀ o ∈ [0, 8, 0x10, 0x18, 0x20, 0x28], reg t (recAddr r + o) = 0)
      ∧ (reg t (recAddr r + 0x30)).toNat = (reg s (recAddr r + 0x30)).toNat / 2 % 2 * 2
          + (reg s (recAddr r + 0x30)).toNat / 2 ^ 8 % 256 * 2 ^ 8 ∧ t = { s with regs := t.regs })

/-! ## Queue manager blocks, sample ingress, trips, GOOSE and inputs (R315, R318, R319, R325 to R394) -/

/-- The queue table base is set once, by region 0's block, and takes force after; a posting of the hardware reaches its queue
behind the tail, with memory in its canonical form and the manager's cache within its bounds. -/
def Sys2Proof.Machine.QueueBase : Prop :=
  (∀ (init : Nat) (v : W) (s : State), lands init (hubBase 0 + 0xE00000) s →
    (s.qbaseSet = false → exec (.qbaseWrite init 0 v) s =
      .next (setReg (hubBase 0 + 0xE00000) (BitVec.ofNat 64 (v.toNat / 2 ^ 24 % 2 ^ 24 * 2 ^ 24)) { s with qbaseSet := true }))
    ∧ (s.qbaseSet = true → exec (.qbaseWrite init 0 v) s = .next s))
  ∧ (∀ s : State, pstateOf s = 0 → s.qbaseSet = true → exec .qbaseInForce s = .next { s with qReady := true })
  ∧ (∀ (s : State) (p : Posting) (ps : List Posting) (d : QDesc), pstateOf s = 0 → s.posts = p :: ps → s.qReady = true →
    regionOut s (queueRegion p.queue) = false → queueRegion p.queue < 4 → d.ws.length = 8 → s.memWf = true →
    cacheFits s (queueRegion p.queue) →
    pathWaits s (producerSite s p.producer) ⟨some (queueRegion p.queue), none⟩ = false →
    qPathsWait s (queueRegion p.queue) p.queue [] = false →
    (qCacheOf s (queueRegion p.queue)).find? (fun x => x.q == p.queue) = some d →
    dEn d = true → p.msg.length ≤ dE d → dCount d < dN d →
    rangeCheck s (qInit (queueRegion p.queue)) (entryAt d (dFld d 1 63 32)) (dE d) .write = none →
    rangeCheck s (qInit (queueRegion p.queue)) (lenAt d (dFld d 1 63 32)) 2 .write = none →
    ringPoison s true (entryAt d (dFld d 1 63 32)) (dE d) = none →
    ringPoison s true (lenAt d (dFld d 1 63 32)) 2 = none →
      ∃ t e, exec (.hardwarePosting p.producer .none) s = .next t ∧ t.posts = ps
        ∧ e ∈ qCacheOf t (queueRegion p.queue) ∧ e.q = d.q ∧ dFld e 1 63 32 = (dFld d 1 63 32 + 1) % 2 ^ 32
        ∧ (∀ i < p.msg.length, memGet t.mem (entryAt d (dFld d 1 63 32) + i) = p.msg.getD i 0))

/-- A command to a queue manager, on a queue of its region whose descriptor its cache, within its bounds, holds, writes its result to cres: a
disabled queue is created from the staging words, empty; an enabled one is disabled, read into the staging words, retargeted
from the cell that its doorbell names to another, or has its counters cleared. -/
def Sys2Proof.Machine.QueueCommands : Prop :=
  ∀ (init r q : Nat) (s : State) (d : QDesc), r < 4 → q < 2 ^ 18 → queueRegion q = r → s.qReady = true →
    lands init (hubBase r + 0xE00010) s → (qCacheOf s r).find? (fun x => x.q == q) = some d → d.ws.length = 8 →
    cacheFits s r →
    let stage := fun (i : Nat) => reg s (hubBase r + 0xE00040 + 8 * i)
    let ok := fun (t : State) => (reg t (hubBase r + 0xE00018)).toNat / 2 ^ 8 % 256 = 0
    let now := fun (t : State) (e : QDesc) => e ∈ qCacheOf t r ∧ e.q = q
    (dEn d = false → (stage 0).getLsbD 59 = false →
      createFail s ⟨q, createWords s r, false⟩ = none → (stage 2).toNat / 256 % 4 = 0 →
      ∃ t e, exec (.queueCreate init r ⟨q, .none⟩) s = .next t ∧ ok t ∧ now t e ∧ dEn e = true ∧ dCount e = 0
        ∧ dFld e 0 55 0 = (stage 0).toNat % 2 ^ 56 ∧ dW e 1 = 0)
    ∧ (dEn d = true → ∃ t e, exec (.queueDisable init r ⟨q, .none⟩) s = .next t ∧ ok t ∧ now t e ∧ dEn e = false ∧ dFld e 7 3 0 = 1
        ∧ dFld e 2 7 7 = 0 ∧ dW e 1 = dW d 1)
    ∧ (∃ t, exec (.queueRead init r ⟨q, .none⟩) s = .next t ∧ ok t ∧ (∀ i < 8, i ≠ 6 → reg t (hubBase r + 0xE00040 + 8 * i) = dW d i))
    ∧ (dEn d = true → dFld d 2 21 12 = (stage 0).toNat % 2 ^ 10 →
        ∃ t e, exec (.queueRetarget init r ⟨q, .none⟩) s = .next t ∧ ok t ∧ now t e ∧ dFld e 2 21 12 = (stage 0).toNat / 2 ^ 16 % 2 ^ 10
          ∧ dW e 0 = dW d 0 ∧ dW e 1 = dW d 1)
    ∧ (∃ t e, exec (.queueClearCounters init r ⟨q, .none⟩) s = .next t ∧ ok t ∧ now t e ∧ dW e 3 = 0 ∧ dW e 4 = 0 ∧ dW e 5 = 0
          ∧ dW e 0 = dW d 0 ∧ dW e 1 = dW d 1 ∧ dW e 2 = dW d 2)

/-- The queue table base, hardware postings, and the commands to a queue manager. -/
def Obligations.QueueBaseAndCommands : Prop := QueueBase ∧ QueueCommands

/-- A subscription commits unless one of the reasons of R337 refuses it, and then waits for its first frame; it is disabled
by a write with en clear and every other bit as it is, and refused with reason 0x01 otherwise. A grid commits with plane
index 0, and is disabled when no subscription feeds it. -/
def Sys2Proof.Machine.IngressCommits : Prop :=
  ∀ (init n : Nat) (v : W) (s : State),
    (n < 8192 → lands init (subBase n) s → v.getLsbD 48 = true → subEn s n = false →
      subCommitRefusal (setReg (subBase n) v s) n = none →
      ∃ t, exec (.subscriptionCommit init n v) s = .next t ∧ reg t (subBase n) = v ∧ streamState t n = 1
        ∧ (reg t (ingBase + 0x18)).getLsbD 0 = false ∧ t.mem = s.mem)
    ∧ (n < 8192 → lands init (subBase n) s → v.getLsbD 48 = false → reg s (subBase n) = v ||| (1 <<< 48) →
      ∃ t, exec (.subscriptionDisable init n v) s = .next t ∧ subEn t n = false ∧ streamState t n = 0
        ∧ (reg t (ingBase + 0x18)).getLsbD 0 = false ∧ t.mem = s.mem)
    ∧ (n < 8192 → lands init (subBase n) s → v.getLsbD 48 = false → subEn s n = true → reg s (subBase n) ≠ v ||| (1 <<< 48) →
      ∃ t, exec (.subscriptionDisable init n v) s = .next t ∧ reg t (subBase n) = reg s (subBase n)
        ∧ reg t (ingBase + 0x18) = BitVec.ofNat 64 (1 + 0x01 * 2 ^ 8 + n * 2 ^ 16) ∧ t.mem = s.mem)
    ∧ (n < 16 → lands init (gridBase n) s → v.getLsbD 0 = true → gridEn s n = false → gridWordRefusal 0 v = none →
      gridCommitRefusal (setReg (gridBase n) v s) n = none →
      ∃ t, exec (.gridCommit init n v) s = .next t ∧ reg t (gridBase n) = v ∧ (reg t (gridBase n + 0x40)).toNat % 2 ^ 32 = 0
        ∧ (gridSt t n).planes = [] ∧ t.mem = s.mem)
    ∧ (n < 16 → lands init (gridBase n) s → v.getLsbD 0 = false → reg s (gridBase n) = v ||| 1 →
      (∀ k ∈ enabledSubs s, subGrid s k ≠ n) →
      ∃ t, exec (.gridDisable init n v) s = .next t ∧ reg t (gridBase n) = v ∧ (gridSt t n).planes = [] ∧ t.mem = s.mem)

/-- The words of the ingress control block: pair modes, but for mode 3 and pairs whose lanes have different modes; simulation
mode; and the clearing of the selected subscription's and of the whole chapter's counters. -/
def Sys2Proof.Machine.IngressWords : Prop :=
  ∀ (init : Nat) (v : W) (s : State),
    (lands init ingBase s → v.toNat < 2 ^ 32 → (∀ p < 8, v.toNat / 2 ^ (4 * p) % 4 ≠ 3 ∧ laneMode s (2 * p) = laneMode s (2 * p + 1)) →
      ∃ t, exec (.pairWordWrite init v) s = .next t ∧ (∀ p < 8, pairMode t p = v.toNat / 2 ^ (4 * p) % 4)
        ∧ reg t ingBase = v ∧ t.mem = s.mem)
    ∧ (lands init (ingBase + 0x10) s → v.getLsbD 0 = true →
      exec (.simmodeWrite init v) s = .next (setReg (ingBase + 0x10) 1 s))
    ∧ (lands init (ingBase + 0x10) s → v.getLsbD 0 = false → (∀ e ∈ s.subs, e.2.takes = false) →
      exec (.simmodeWrite init v) s = .next (setReg (ingBase + 0x10) 0 s))
    ∧ (lands init (ingBase + 0x20) s → v.getLsbD 0 = true →
      ∃ t, exec (.subscriptionCounterClear init v) s = .next t
        ∧ (∀ o ∈ [8, 0x10, 0x18, 0x20, 0x28, 0x30, 0x38], reg t (statBase (objNat s 0x8520 1 0) + o) = 0)
        ∧ t = { s with regs := t.regs })
    ∧ (lands init (ingBase + 0x28) s → v.getLsbD 0 = true →
      ∃ t, exec (.ingressCounterClear init v) s = .next t
        ∧ (∀ n < 16, ∀ i < 8, reg t (0x62000000 + 0x1000 * n + 0x800 + 8 * i) = 0)
        ∧ (∀ p < 8, ∀ i < 9, reg t (0x62400100 + 0x80 * p + 8 * i) = 0) ∧ t.mem = s.mem ∧ t.cells = s.cells)

/-- Subscriptions and grids commit and are disabled; the words of the ingress control block act. -/
def Obligations.IngressWordsCommit : Prop := IngressCommits ∧ IngressWords

/-- A frame on a lane that is on, with no grid enabled: one with a wrong length or a bad check sequence is counted and
dropped; on a lane of no pair, one of an EtherType that the module has no part for is counted, and a sampled-value frame goes
to the enabled subscription that it matches and that its lane may feed, after a lost-stream timeout of its that has expired.
A frame that meets no room in the lane's buffer is dropped and counted only where the enabled subscriptions and grids exceed
the limits of R364. -/
def Sys2Proof.Machine.FramesArrive : Prop :=
  ∀ (f : Frame) (s : State), pstateOf s = 0 → f.lane < 16 → laneMode s f.lane ≠ 0 → (∀ g < 16, gridEn s g = false) →
    let took : Prop := f.good = true ∧ (f.room = true ∨ ingressWithin (laneCnt f.lane 1 s) = true)
    (f.bytes.length + 4 < 64 ∨ 9216 < f.bytes.length + 4 →
      exec (.frameReceive f) s = .next { laneCnt f.lane 3 s with busLost := [] })
    ∧ (64 ≤ f.bytes.length + 4 → f.bytes.length + 4 ≤ 9216 → f.good = false →
      exec (.frameReceive f) s = .next { laneCnt f.lane 2 s with busLost := [] })
    ∧ (64 ≤ f.bytes.length + 4 → f.bytes.length + 4 ≤ 9216 → f.good = true → f.room = false →
      ingressWithin (laneCnt f.lane 1 s) = false →
      exec (.frameReceive f) s = .next { laneCnt f.lane 4 (laneCnt f.lane 1 s) with busLost := [] })
    ∧ (64 ≤ f.bytes.length + 4 → f.bytes.length + 4 ≤ 9216 → took → pairMode s (f.lane / 2) = 0 →
      etherAt f.bytes 12 ∉ [0x8100, 0x88BA, 0x88B8, 0x88FB, 0x88F7] → udpPtp 12 f.bytes = false →
      exec (.frameReceive f) s = .next { laneCnt f.lane 8 (laneCnt f.lane 1 s) with busLost := [] })
    ∧ (∀ sv n, 64 ≤ f.bytes.length + 4 → f.bytes.length + 4 ≤ 9216 → took → pairMode s (f.lane / 2) = 0 →
      etherAt f.bytes 12 = 0x88BA → svParse (macAt f.bytes 0) (f.bytes.drop 14) = some sv →
      (enabledSubs (laneCnt f.lane 5 (laneCnt f.lane 1 s))).find? (subMatches (laneCnt f.lane 5 (laneCnt f.lane 1 s)) sv) = some n →
      (reg (laneCnt f.lane 5 (laneCnt f.lane 1 s)) (subBase n + 0x18)).getLsbD f.lane = true →
      exec (.frameReceive f) s = .next (withBusLost f.bus (fun u =>
        let t := streamCheck n f.stamp sv (streamLost n (laneCnt f.lane 5 (laneCnt f.lane 1 u)))
        alignGrid (subGrid t n) f.stamp t) s))

/-- What happens in the ingress with time: a plane at its deadline completes, its index the next one; a duplicate entry is
forgotten after its lifetime, and counted by its lane when no second copy came; a pair sends a supervision frame on each of
its lanes every 2 s; a stream without frames for its timeout is lost. -/
def Sys2Proof.Machine.IngressTimes : Prop :=
  ∀ (s : State), pstateOf s = 0 →
    (∀ (g : Nat) (p : Plane) (bus : List Nat), g < 16 → gridEn s g = true → (gridSt s g).planes = [p] → inService s = true →
      planeEnd p ≤ time16 s → planeHeld s g p = false → (time16 s : Int) < instant s g (gridSt s g).next →
      ∃ t, exec (.planeDeadline ⟨g, bus⟩) s = .next t ∧ (gridSt t g).planes = []
        ∧ (reg t (gridBase g + 0x40)).toNat % 2 ^ 32 = (p.p + 1) % 2 ^ 32)
    ∧ (∀ (p : Nat) (mac : BitVec 48) (seq : BitVec 16) (e : DupEntry), dupsOf s p = [e] → e.mac = mac.toNat → e.seq = seq.toNat →
      e.made + (reg s (ingBase + 8)).toNat % 2 ^ 10 * (1000000 * 2 ^ 32) ≤ s.time.dur →
      exec (.duplicateEntryForget p mac seq) s = .next (if e.seen then setDups p [] s else
        pairCnt p (5 + e.lane % 2) (setDups p [] s)))
    ∧ (∀ p < 8, (reg s ingBase).getLsbD (4 * p + 3) = true →
      (∀ a, tblFind s.supvAt p = some a → a + 2 * (1000000000 * 2 ^ 32) ≤ s.time.dur) →
      laneMode s (2 * p) ≠ 0 → laneMode s (2 * p + 1) ≠ 0 →
      ∃ t b c, exec (.supervisionTransmit p) s = .next t ∧ t.tx = .frame (2 * p + 1) c :: .frame (2 * p) b :: s.tx
        ∧ tblFind t.supvAt p = some s.time.dur
        ∧ (pairMode s p ≠ 0 → tblGet 0 t.pairSeq p = (tblGet 0 s.pairSeq p + 1) % 2 ^ 16))
    ∧ (∀ n bus a, subEn s n = true → streamState s n ∈ [2, 3, 4, 6] → (subSt s n).lastFrm = some a →
      a + lostAfter s n * 2 ^ 16 ≤ s.time.dur → gridEn s (subGrid s n) = false → n < 8192 →
      ∃ t, exec (.streamLost ⟨n, bus⟩) s = .next t ∧ streamState t n = 5 ∧ t.mem = s.mem)

/-- What the ingress does with a received frame, and with time. Samples and ages with no stated value are free values
(log entry 17). -/
def Obligations.IngressFramesAndTimes : Prop := FramesArrive ∧ IngressTimes

/-- The trip unit's block: tbase is taken while no object is enabled and then in force at no core until its write has reached
it; an enable copies an object, or a publication, whose bytes are read without a denial or an error and pass the checks; a
disable removes it; a lockout reset clears an object that latches; and a clear empties its counters. -/
def Obligations.TripWords : Prop :=
  ∀ (init n : Nat) (bus : List Nat) (v : W) (s : State), n < 4096 →
    let ok := fun (t : State) => reg t (tripBlock + 0x18) = 0
    let reads := fun (a len : Nat) => rangeErr { s with busLost := bus } false a len = false
    (lands init tripBlock s → s.trip.objs = [] →
      ∃ t, exec (.tbaseWrite init v) s = .next t ∧ tripBase t = v.toNat / 2 ^ 20 % 2 ^ 28 * 2 ^ 20
        ∧ (∀ e ∈ t.cells, e.2.tbaseOk = false) ∧ t.mem = s.mem)
    ∧ (∀ core, serves core s → tripBase s ≠ 0 →
      exec (.tbaseInForce core) s = .next (setCell core { cellOf s core with tbaseOk := true } s))
    ∧ (lands init (tripBlock + 0x10) s → tripBase s ≠ 0 → tripObj s n = none → inRam (tripBase s + 256 * n) 256 →
      rangeCheck s 0x120 (tripBase s + 256 * n) 256 .read = none → rangeWaits s 0x120 (tripBase s + 256 * n) 256 = false →
      reads (tripBase s + 256 * n) 256 →
      tripBad (memRead s.mem (tripBase s + 256 * n) 256) = false →
      (memRead s.mem (tripBase s + 256 * n) 256).getD 5 0 = 0 →
      ∃ t o, exec (.tripEnable init ⟨n, bus⟩ false false) s = .next t ∧ ok t ∧ tripObj t n = some o ∧ o.act = false ∧ o.ntrip = 0
        ∧ o.rule = memNat s (tripBase s + 256 * n) 1 % 4 ∧ o.lmode = memNat s (tripBase s + 256 * n) 1 / 4 % 4
        ∧ o.omask = memNat s (tripBase s + 256 * n + 2) 2 ∧ o.tpulse = memNat s (tripBase s + 256 * n + 12) 2)
    ∧ (let a := pubBase s + 2048 * n
       let b := memRead s.mem a 2048
       let x := pubRead b (utcTime s) s.time.dur
       lands init (tripBlock + 0x10) s → pubBase s ≠ 0 → n < 1024 → pubOf s n = none → inRam a 2048 →
       rangeCheck s 0x120 a 2048 .read = none → rangeWaits s 0x120 a 2048 = false → reads a 2048 → pubBad b = false → pubSplits s x = false → pubLargest s x ≤ 1528 →
       inService s = false →
       ∃ t, exec (.tripEnable init ⟨n, bus⟩ true false) s = .next t ∧ ok t ∧ pubOf t n = some x ∧ x.st = 1 ∧ x.sq = 0
         ∧ t.tx = s.tx ∧ t.mem = s.mem)
    ∧ (∀ o, lands init (tripBlock + 0x10) s → tripBase s ≠ 0 → tripObj s n = some o → o.act = false →
      ∃ t, exec (.tripDisable init ⟨n, bus⟩ false) s = .next t ∧ ok t ∧ t.trip.objs = tblDel n s.trip.objs ∧ t.mem = s.mem)
    ∧ (∀ o, lands init (tripBlock + 0x10) s → tripBase s ≠ 0 → tripObj s n = some o → o.act = true → o.lmode ≠ 0 →
      ∃ t p, exec (.lockoutReset init ⟨n, bus⟩) s = .next t ∧ ok t ∧ tripObj t n = some p ∧ p.act = false ∧ p.since = s.time.dur)
    ∧ (lands init (tripBlock + 0x10) s → tripBase s ≠ 0 →
      ∃ t, exec (.tripClearCounters init n false) s = .next t ∧ ok t ∧ t.trip.cnts = tblDel n s.trip.cnts
        ∧ t.trip.objs = s.trip.objs)
    ∧ (lands init (tripBlock + 0x10) s → pubBase s ≠ 0 →
      ∃ t, exec (.tripClearCounters init n true) s = .next t ∧ ok t ∧ t.trip.pcnts = tblDel n s.trip.pcnts
        ∧ t.trip.pubs = s.trip.pubs)

/-- What trips and GOOSE do with time, and the inputs. A pulse clears its object after tpulse; a publication repeats its
frame at its interval, which doubles up to t0; a subscription whose timer has passed is timed out and says so to its queue; a
subscription commits; force is written in maintenance only; an input's samples are read at once, its level once it has held
for the filter time, and is then posted when its event is asked for; a shorter excursion is counted and posts nothing; and
suppression of a chattering input ends after a second with no more than chat changes. The octets of a timeout message are
free values (log entry 20). -/
def Obligations.TripTimes : Prop :=
  ∀ (s : State), pstateOf s = 0 →
    (∀ n bus o, tripObj s n = some o → o.act = true → o.lmode = 0 → o.since + o.tpulse * (1000000 * 2 ^ 32) ≤ s.time.dur →
      ∃ t p, exec (.tpulseExpiry ⟨n, bus⟩) s = .next t ∧ tripObj t n = some p ∧ p.act = false ∧ p.since = s.time.dur)
    ∧ (∀ p x (bad : BitVec 4), pubOf s p = some x → inService s = true → x.due ≤ s.time.dur →
      ∃ t, exec (.gooseRetransmit p bad) s = .next t ∧ pubOf t p = some { x with
        sq := (if x.sq = 0xFFFFFFFF then 1 else x.sq + 1), due := s.time.dur + x.iv * (1000 * 2 ^ 32),
        iv := min (2 * x.iv) (x.t0 * 1000) })
    ∧ (∀ n a, n < 2048 → tblFind s.gtimer n = some a → gsubEn s n = true → a ≤ s.time.dur →
      ∃ t m, exec (.gooseTimeout n) s = .next t ∧ (reg t (gsubBase n + 0x20)).toNat % 4 = 3
        ∧ t.posts = s.posts ++ [{ producer := 0x210, queue := (reg s (gsubBase n + 0x10)).toNat % 2 ^ 18, msg := m }]
        ∧ m.take 4 = [BitVec.ofNat 8 n, BitVec.ofNat 8 (n / 256), 0, 1])
    ∧ (∀ init n (v : W), n < 2048 → lands init (gsubBase n) s → gsubEn s n = false → v.getLsbD 48 = true → v.toNat < 2 ^ 51 →
      gsubBad (setReg (gsubBase n) v s) n = false →
      (∀ m ∈ enabledGsubs s, m ≠ n → gsubKey (setReg (gsubBase n) v s) m ≠ gsubKey (setReg (gsubBase n) v s) n) →
      ∃ t, exec (.gooseSubscriptionCommit init n v) s = .next t ∧ reg t (gsubBase n) = v
        ∧ (reg t (gsubBase n + 0x20)).toNat % 4 = 1 ∧ t.mem = s.mem)
    ∧ (∀ init (v : W), lands init (toutBlock + 8) s →
      exec (.forceWrite init v) s = .next (if s.dev = 2 then setReg (toutBlock + 8) (BitVec.ofNat 64 (v.toNat % 2 ^ 16)) s else s))
    ∧ (∀ k level stamp, k < 32 → (reg s binBlock).getLsbD k = !level → (binOf s k).supp = none → (reg s (binBlock + 0x10)).getLsbD 18 = true →
      (reg s (binBlock + 0x18)).getLsbD (if level then k else 32 + k) = true →
      stampDur s stamp + (reg s (binBlock + 0x100 + 8 * k)).toNat % 2 ^ 16 * (1000 * 2 ^ 32) ≤ s.time.dur →
      ∃ t m, exec (.binaryInputChange k level stamp) s = .next t ∧ (reg t binBlock).getLsbD k = level
        ∧ (∀ j < 32, j ≠ k → (reg t binBlock).getLsbD j = (reg s binBlock).getLsbD j)
        ∧ t.posts = s.posts ++ [{ producer := 0x301, queue := (reg s (binBlock + 0x10)).toNat % 2 ^ 18, msg := m }]
        ∧ m.take 2 = [BitVec.ofNat 8 k, if level then 1 else 0] ∧ (binOf t k).nevt = min (2 ^ 32 - 1) ((binOf s k).nevt + 1))
    ∧ (∀ k level stamp, k < 32 → ∃ t, exec (.binaryInputChange k level stamp) s = .next t
        ∧ (reg t (binBlock + 8)).getLsbD k = level
        ∧ ((reg s binBlock).getLsbD k = level
            ∨ s.time.dur < stampDur s stamp + (reg s (binBlock + 0x100 + 8 * k)).toNat % 2 ^ 16 * (1000 * 2 ^ 32) →
          reg t binBlock = reg s binBlock ∧ t.posts = s.posts ∧ t.bins = s.bins))
    ∧ (∀ k len, k < 32 → len < (reg s (binBlock + 0x100 + 8 * k)).toNat % 2 ^ 16 * (1000 * 2 ^ 32) →
      ∃ t, exec (.binaryInputGlitch ⟨k, len⟩) s = .next t
        ∧ t.bins = tblSet k { binOf s k with nglitch := min (2 ^ 32 - 1) ((binOf s k).nglitch + 1) } s.bins
        ∧ (reg t (binBlock + 8)).getLsbD k = (reg s binBlock).getLsbD k ∧ reg t binBlock = reg s binBlock ∧ t.posts = s.posts)
    ∧ (∀ k a, (binOf s k).supp = some a → a + 1000000000 * 2 ^ 32 ≤ s.time.dur → (binRecent s (binOf s k)).length ≤ binChat s k →
      exec (.chatterSuppressionEnd k) s = .next { s with bins := tblSet k { binOf s k with supp := none, ended := true } s.bins })

/-! ## The timebase, PTP, IRIG-B and 1PPS (R397 to R420) -/

/-- The sources of the timebase. An active source that stops being valid, with no other valid one in tsrc, leaves a
locked timebase in holdover, its increment frozen at its mean; holdover expires after holdlim; a source ranked above
the active one takes over once it has been valid for 10 s; the host sets a free-running timebase, and is turned away,
with tgo's second bit, from any other; a reference failure sets its bit. The servo's increment is a free value within
its limit (log entry 21). -/
def Obligations.TimeSources : Prop :=
  ∀ (s : State), pstateOf s = 0 →
    (∀ k, asrc s = k → k ≠ 0 → k ≠ 4 → srcValid s k = false → (∀ j ∈ srcList s, srcValid s j = false) → s.time.held = true →
      s.time.state = 2 → ∃ t, exec (.sourceInvalid k) s = .next t ∧ asrc t = 0 ∧ t.time.state = 3 ∧ t.time.lost = s.time.dur
        ∧ t.time.expired = decide ((reg s (partTime + 0x28)).toNat % 2 ^ 32 = 0) ∧ t.time.inc = meanInc s ∧ t.time.now = s.time.now)
    ∧ (s.time.state = 3 → s.time.expired = false →
      s.time.lost + (reg s (partTime + 0x28)).toNat % 2 ^ 32 * (1000000000 * 2 ^ 32) ≤ s.time.dur →
      ∃ t, exec .holdlimExpiry s = .next t 
        ∧ t.time = { s.time with expired := true, flips := s.time.dur :: s.time.flips } ∧ t.regs = s.regs)
    ∧ (∀ k a, k ∈ (srcList s).takeWhile (fun j => j != asrc s) → srcValid s k = true → tblFind s.time.since k = some a →
      a + 10 * (1000000000 * 2 ^ 32) ≤ s.time.dur → asrc s ≠ 0 →
      ∃ t, exec (.sourceTakeover k) s = .next t ∧ asrc t = k ∧ t.time.now = s.time.now)
    ∧ (∀ init (v : W), lands init (partTime + 0x40) s → v.getLsbD 0 = true →
      (s.time.state = 0 → ∃ t, exec (.tgo init v) s = .next t ∧ asrc t = 4
        ∧ t.time.now = ((reg s (partTime + 0x30)).toNat % 2 ^ 48 * 1000000000 + (reg s (partTime + 0x38)).toNat % 2 ^ 32) * 2 ^ 32
        ∧ t.time.dur = s.time.dur)
      ∧ (s.time.state ≠ 0 → exec (.tgo init v) s = .next (setRegF (partTime + 0x40) 1 1 1 s)))
    ∧ (∀ fail, exec (.referenceFailure fail) s = .next (setRegF partTime 4 4 (if fail then 1 else 0) s))

namespace Sys2Proof.Machine

/-- Where a frame of PTP port `n` holds its EtherType: behind the 802.1Q tag that vtag asks for (R406). -/
def ptpTypeAt (s : State) (n : Nat) : Nat := if (reg s (ptpBase n)).getLsbD 7 then 16 else 12

/-- A frame is a PTP message of a kind, under a sequence number (R406). -/
def isPtp (s : State) (n : Nat) (b : List Byte) (kind seq : Nat) : Prop :=
  etherAt b (ptpTypeAt s n) = 0x88F7 ∧ leNat (slice b (ptpTypeAt s n + 2) 1) = kind
    ∧ beNat (slice b (ptpTypeAt s n + 32) 2) = seq % 2 ^ 16

/-- The message type of what a port sends. -/
def ptpCode (k : PtpSend) : Nat := match k with | .announce => 0xB | .sync => 0 | .pdelayReq => 2

/-- A message of a kind is due on a port: its interval of 1 s has passed since the last one (R406). -/
def ptpDue (s : State) (n : Nat) (k : PtpSend) : Prop :=
  ∀ a, tblFind (ptpOf s n).sent (ptpCode k) = some a → a + 1000000000 * 2 ^ 32 ≤ s.time.dur

/-- The port sends such messages: Announce and Sync when MASTER, delay requests when its role is on (R406, R407). -/
def ptpSends (s : State) (n : Nat) (k : PtpSend) : Prop :=
  match k with
  | .pdelayReq => ptpRole s n ≠ 0
  | _ => 1 ≤ ptpRole s n ∧ ptpRole s n ≤ 3 ∧ pstate s n = 6

/-- What every transmission leaves: the time it was sent, and the next sequence number. -/
def ptpSent (s t : State) (n : Nat) (k : PtpSend) : Prop :=
  tblFind (ptpOf t n).sent (ptpCode k) = some s.time.dur
    ∧ tblGet 0 (ptpOf t n).seqs (ptpCode k) = (tblGet 0 (ptpOf s n).seqs (ptpCode k) + 1) % 2 ^ 16
    ∧ t.regs = s.regs ∧ t.mem = s.mem ∧ t.cells = s.cells

end Sys2Proof.Machine

/-- PTP ports. A write of a port's word is taken unless R411 refuses it, and puts the port in INITIALIZING; a refused one
changes nothing of the port. A MASTER port sends an Announce and a Sync each second, one-step or two-step as onestep says,
and every port that is on a delay request: on one lane, or as a tagged frame on both lanes of an HSR pair but for the delay
request, which is the lane's own. After three intervals without an Announce of its master a port forgets the messages of that
age, and is then LISTENING when it is slave only, and MASTER otherwise, when no port knows another clock. That part rests on
log entry 97. -/
def Obligations.PtpPorts : Prop :=
  ∀ (n : Nat) (s : State), n < 16 → pstateOf s = 0 →
    (∀ init (v : W), lands init (ptpBase n) s → v.toNat % 8 < 5 → v.toNat / 8 % 4 ≠ 3 → (v.toNat / 8 % 4 = 1 → v.getLsbD 7 = true) →
      ∃ t, exec (.ptpPortWrite init n v) s = .next t ∧ reg t (ptpBase n) = BitVec.ofNat 64 (v.toNat % 2 ^ 23)
        ∧ pstate t n = 1 ∧ (ptpOf t n).anns = [] ∧ (ptpOf t n).annAt = s.time.dur ∧ (ptpOf t n).seqs = (ptpOf s n).seqs
        ∧ (∀ m, m ≠ n → ptpOf t m = ptpOf s m) ∧ t.mem = s.mem ∧ t.time.now = s.time.now)
    ∧ (∀ init (v : W), lands init (ptpBase n) s →
      5 ≤ v.toNat % 8 ∨ v.toNat / 8 % 4 = 3 ∨ (v.toNat / 8 % 4 = 1 ∧ v.getLsbD 7 = false) →
      ∃ t, exec (.ptpPortWrite init n v) s = .next t ∧ reg t (ptpBase n) = reg s (ptpBase n) ∧ pstate t n = pstate s n
        ∧ t.ptp = s.ptp ∧ t.mem = s.mem ∧ t.time = s.time)
    ∧ (∀ k, ptpSends s n k → ptpDue s n k → laneMode s n ≠ 0 → pairMode s (n / 2) ≠ 2 →
      k ≠ .sync ∨ (reg s (ptpBase n)).getLsbD 6 = true →
      ∃ t b, exec (.ptpTransmit n k) s = .next t ∧ t.tx = .frame n b :: s.tx
        ∧ isPtp s n b (ptpCode k) (tblGet 0 (ptpOf s n).seqs (ptpCode k)) ∧ ptpSent s t n k
        ∧ (k = .pdelayReq → (ptpOf t n).pd = some ⟨tblGet 0 (ptpOf s n).seqs 2, time16 s, none⟩))
    ∧ (ptpSends s n .sync → ptpDue s n .sync → laneMode s n ≠ 0 → pairMode s (n / 2) ≠ 2 → (reg s (ptpBase n)).getLsbD 6 = false →
      ∃ t b f, exec (.ptpTransmit n .sync) s = .next t ∧ t.tx = .frame n f :: .frame n b :: s.tx
        ∧ isPtp s n b 0 (tblGet 0 (ptpOf s n).seqs 0) ∧ isPtp s n f 8 (tblGet 0 (ptpOf s n).seqs 0) ∧ ptpSent s t n .sync)
    ∧ (ptpSends s n .announce → ptpDue s n .announce → pairMode s (n / 2) = 2 → laneMode s (n / 2 * 2) ≠ 0 →
      laneMode s (n / 2 * 2 + 1) ≠ 0 →
      ∃ t b c, exec (.ptpTransmit n .announce) s = .next t ∧ t.tx = .frame (n / 2 * 2 + 1) c :: .frame (n / 2 * 2) b :: s.tx
        ∧ etherAt b 12 = 0x892F ∧ etherAt c 12 = 0x892F ∧ ptpSent s t n .announce)
    ∧ (ptpSends s n .pdelayReq → ptpDue s n .pdelayReq → pairMode s (n / 2) = 2 → laneMode s n ≠ 0 →
      ∃ t b, exec (.ptpTransmit n .pdelayReq) s = .next t ∧ t.tx = .frame n b :: s.tx ∧ etherAt b 12 = 0x892F
        ∧ ptpSent s t n .pdelayReq)
    ∧ (1 ≤ ptpRole s n → ptpRole s n ≤ 3 → pstate s n ≠ 6 → (ptpOf s n).annAt + 3 * (1000000000 * 2 ^ 32) ≤ s.time.dur →
      ∃ t, exec (.announceReceiptTimeout n) s = .next t
        ∧ ptpOf t n = { ptpOf s n with
            anns := (ptpOf s n).anns.filter (fun a => decide (s.time.dur < a.2 + 3 * (1000000000 * 2 ^ 32))),
            annAt := s.time.dur, out := true }
        ∧ (∀ m, m ≠ n → ptpOf t m = ptpOf s m) ∧ t.time.now = s.time.now ∧ t.mem = s.mem
        ∧ ((∀ m < 16, m ≠ n → (ptpOf s m).anns = []) → (∀ a ∈ (ptpOf s n).anns, a.2 + 3 * (1000000000 * 2 ^ 32) ≤ s.time.dur) →
            pstate t n = (if ptpRole s n = 1 then 4 else 6)))

/-- IRIG-B and 1PPS. A frame of the configured format, without the extension, is counted, and follows the one before it by a
second or starts the count of good frames anew; one of another format ends that count. A first edge of the configured
direction starts the count of good edges. The outputs send the second's frame, with the extension when asked for, and the
pulse, which falls after its width. -/
def Obligations.IrigAndPps : Prop :=
  ∀ (s : State), pstateOf s = 0 →
    (∀ f, (reg s irigBlock).getLsbD 0 = true → (reg s irigBlock).getLsbD 4 = false → f.code ≠ (reg s irigBlock).toNat / 2 % 8 →
      ∃ t, exec (.irigBFrame f) s = .next t ∧ t.irig = { s.irig with good := 0 } ∧ t.time.now = s.time.now
        ∧ (reg t (irigBlock + 0x38)).toNat / 2 ^ 32 = min (2 ^ 32 - 1) ((reg s (irigBlock + 0x38)).toNat / 2 ^ 32 + 1))
    ∧ (∀ f tai, (reg s irigBlock).getLsbD 0 = true → (reg s irigBlock).getLsbD 4 = false → f.code = (reg s irigBlock).toNat / 2 % 8 →
      irigTai s f = some tai →
      ∃ t, exec (.irigBFrame f) s = .next t ∧ t.irig.last = some (tai : Int)
        ∧ t.irig.good = (if s.irig.last = some ((tai : Int) - 1) then s.irig.good + 1 else 1)
        ∧ (reg t (irigBlock + 0x38)).toNat % 2 ^ 32 = min (2 ^ 32 - 1) ((reg s (irigBlock + 0x38)).toNat % 2 ^ 32 + 1))
    ∧ (∀ stamp rising, (reg s (irigBlock + 0x18)).getLsbD 0 = true → (reg s (irigBlock + 0x18)).getLsbD 1 = !rising → tlock s = false →
      s.pps.last = none → s.pps.good = 0 →
      ∃ t, exec (.onePpsEdge stamp rising) s = .next t
        ∧ t.pps = { good := 1, last := some (stampDur s stamp) } ∧ t.time.now = s.time.now)
    ∧ ((reg s (irigBlock + 0x10)).getLsbD 0 = true → (reg s (irigBlock + 0x10)).getLsbD 4 = false → inService s = true →
      s.outs.irig ≠ some (s.time.now / (1000000000 * 2 ^ 32)) →
      exec .irigBOutputFrame s = .next { s with
        outs := { s.outs with irig := some (s.time.now / (1000000000 * 2 ^ 32)) },
        tx := .irig ((reg s (irigBlock + 0x10)).toNat / 2 % 8) (utcSeconds s (s.time.now / (1000000000 * 2 ^ 32))) none :: s.tx })
    ∧ ((reg s (irigBlock + 0x10)).getLsbD 0 = true → (reg s (irigBlock + 0x10)).getLsbD 4 = true → inService s = true →
      s.outs.irig ≠ some (s.time.now / (1000000000 * 2 ^ 32)) →
      ∃ x, exec .irigBOutputFrame s = .next { s with
        outs := { s.outs with irig := some (s.time.now / (1000000000 * 2 ^ 32)) },
        tx := .irig ((reg s (irigBlock + 0x10)).toNat / 2 % 8) (utcSeconds s (s.time.now / (1000000000 * 2 ^ 32))) (some x) :: s.tx }
        ∧ x.offset = 0 ∧ x.quality = (if tlock s then 0 else 0xF)
        ∧ x.leap = leapPending s (s.time.now / (1000000000 * 2 ^ 32)))
    ∧ (∀ n, (reg s (irigBlock + 0x20)).getLsbD 0 = true → inService s = true → s.outs.fall = none → reg s (irigBlock + 0x28) = 0 →
      n = s.time.now / (1000000000 * 2 ^ 32) → s.outs.pps ≠ some (n : Int) →
      exec (.onePpsOutputPulse true) s = .next { s with
        outs := { s.outs with pps := some (n : Int),
                              fall := some (s.time.dur + (reg s (irigBlock + 0x20)).toNat / 2 ^ 32 * (1000 * 2 ^ 32)) },
        tx := .pps (!(reg s (irigBlock + 0x20)).getLsbD 1) :: s.tx })
    ∧ (∀ a, s.outs.fall = some a → a ≤ s.time.dur → exec (.onePpsOutputPulse false) s = .next { s with
        outs := { s.outs with fall := none }, tx := .pps ((reg s (irigBlock + 0x20)).getLsbD 1) :: s.tx })

/-! ## DMA, links, errors, SHA-256 (R272 to R275, R286, R289 to R293, R567) -/

/-- A DMA engine that is idle takes the next message of its command queue as a descriptor: source, destination and completion
queue, length, copy mode and cookie. Nothing has moved yet. -/
def Sys2Proof.Machine.DmaTakes : Prop :=
  ∀ (r e : Nat) (s u : State) (msg : List Byte) (tags : List Bool), pstateOf s = 0 → r < 4 → e < 2 →
    tblFind s.dma (2 * r + e) = none →
    qPathsWait s r (0x3FF80 + 2 * r + e) (retryParts s (0x3FF80 + 2 * r + e)) = false →
    qTakeDma r (0x3FF80 + 2 * r + e) .none s = (some (msg, tags), u) →
      ∃ j, exec (.dmaDescriptor r ⟨e, .none⟩) s = .next { u with dma := tblSet (2 * r + e) j u.dma }
        ∧ j.src = capOfBytes (slice msg 0 16) (tags.getD 0 false) ∧ j.dst = capOfBytes (slice msg 0x10 16) (tags.getD 1 false)
        ∧ j.cq = capOfBytes (slice msg 0x20 16) (tags.getD 2 false) ∧ j.len = leNat (slice msg 0x30 4)
        ∧ j.cp = ((slice msg 0x34 1).headD 0).getLsbD 0 ∧ j.cookie.toNat = leNat (slice msg 0x38 8)

/-- A transfer that passed its checks has moved its bytes when it ends: the destination holds what the source held, every
other byte reads as before, and the completion is on its way to the queue that the descriptor names. Stated of data of one
request, in memory of canonical form. -/
def Sys2Proof.Machine.DmaCompletes : Prop :=
  ∀ (r e q : Nat) (s : State) (j : DmaJob), pstateOf s = 0 → r < 4 → e < 2 → tblFind s.dma (2 * r + e) = some j →
    s.memWf = true → j.status = 0 → j.cp = false → 0 < j.len → j.src.addr.toNat % 64 + j.len ≤ 64 → j.dst.addr.toNat % 64 + j.len ≤ 64 →
    inRam j.src.addr.toNat j.len → inRam j.dst.addr.toNat j.len → poisoned s j.src.addr.toNat = false →
    (j.len < 64 → poisoned s j.dst.addr.toNat = false) →
    (∃ g, gateCheck s (0x130 + 2 * r + e) j.src.addr.toNat j.len .read = .ok g) →
    (∃ g, gateCheck s (0x130 + 2 * r + e) j.dst.addr.toNat j.len .write = .ok g) → dmaQueue s j.cq = some q → dmaWaits (0x130 + 2 * r + e) j s = false →
      ∃ t, exec (.dmaCompletion r e none) s = .next t
        ∧ (∀ i < j.len, memGet t.mem (j.dst.addr.toNat + i) = memGet s.mem (j.src.addr.toNat + i))
        ∧ (∀ a, a < j.dst.addr.toNat ∨ j.dst.addr.toNat + j.len ≤ a → memGet t.mem a = memGet s.mem a)
        ∧ (∀ a, 16 * (a / 16) + 16 ≤ j.dst.addr.toNat ∨ j.dst.addr.toNat + j.len ≤ 16 * (a / 16) → memTag t a = memTag s a)
        ∧ (∀ i < j.len, memTag t (j.dst.addr.toNat + i) = false)
        ∧ t.dma = tblDel (2 * r + e) s.dma ∧ t.regs = s.regs ∧ t.cells = s.cells
        ∧ t.posts = s.posts ++ [⟨0x310 + 2 * r + e, q,
            [0, 0, 0, 0] ++ leBytes 4 j.len ++ leBytes 8 j.cookie.toNat⟩]

/-- A DMA engine takes a descriptor, and its transfer completes. -/
def Obligations.DmaTakesAndCompletes : Prop := DmaTakes ∧ DmaCompletes

namespace Sys2Proof.Machine

/-- A count that stops at its largest value (R260). -/
def upTo32 (n : Nat) : Nat := min (2 ^ 32 - 1) (n + 1)

/-- The two counters of a record's word. -/
def lowCount (s : State) (a : Nat) : Nat := (reg s a).toNat % 2 ^ 32
def highCount (s : State) (a : Nat) : Nat := (reg s a).toNat / 2 ^ 32

end Sys2Proof.Machine

/-- The events of the fabric: an arbiter's timeout, and a correction or the end of a pass of the scrub, are counted in their
records; a replay on a link is counted, and the thirty-second within 1 ms starts a retrain; a retrain ends within 100 us; a
block's link that has been retraining for 100 us fails and takes its block offline, and a region's fences its region; a fatal
error is kept and resets the chip. -/
def Obligations.FabricEvents : Prop :=
  ∀ (s : State), pstateOf s = 0 →
    (∀ b init a, b < 16 → ∃ t, exec (.arbitrationTimeout b init a) s = .next t
        ∧ lowCount t (blockBase b + 0x208) = upTo32 (lowCount s (blockBase b + 0x208))
        ∧ lowCount t (blockBase b + 0x210) = upTo32 (lowCount s (blockBase b + 0x210))
        ∧ (reg t (blockBase b + 0x218)).toNat % 2 ^ 26 = 0x12 + init % 1024 * 2 ^ 16
        ∧ (reg t (blockBase b + 0x220)).toNat = a % 2 ^ 48 ∧ t.mem = s.mem ∧ t.cells = s.cells)
    ∧ (∀ r dev a, r < 4 → ∃ t, exec (.patrolScrub r (some (dev, a)) false) s = .next t
        ∧ lowCount t (hubBase r + 0xF10000) = upTo32 (lowCount s (hubBase r + 0xF10000))
        ∧ (reg t (hubBase r + 0xF10018)).toNat = 0x22 + dev % 2 ^ 32 * 2 ^ 32
        ∧ (reg t (hubBase r + 0xF10020)).toNat = a % 2 ^ 48 ∧ t.mem = s.mem ∧ t.cells = s.cells)
    ∧ (∀ r, r < 4 → ∃ t, exec (.patrolScrub r none true) s = .next t
        ∧ highCount t (hubBase r + 0xF10010) = upTo32 (highCount s (hubBase r + 0xF10010)) ∧ t.mem = s.mem)
    ∧ (∀ l, l < 26 → (linkOf s l).failed = false →
        (((linkOf s l).replays ++ [s.time.dur]).filter (fun a => decide (s.time.dur < a + 1000000 * 2 ^ 32))).length < 32 →
        ∃ t, exec (.flitReplay l) s = .next t ∧ (linkOf t l).training = (linkOf s l).training
          ∧ (linkOf t l).replays = ((linkOf s l).replays ++ [s.time.dur]).filter
              (fun a => decide (s.time.dur < a + 1000000 * 2 ^ 32)) ∧ t.mem = s.mem)
    ∧ (∀ l, l < 26 → (linkOf s l).failed = false → (linkOf s l).training = none →
        32 ≤ (((linkOf s l).replays ++ [s.time.dur]).filter (fun a => decide (s.time.dur < a + 1000000 * 2 ^ 32))).length →
        ∃ t, exec (.flitReplay l) s = .next t ∧ (linkOf t l).training = some s.time.dur ∧ (linkOf t l).replays = []
          ∧ (linkOf t l).retrains.getLast? = some s.time.dur ∧ t.mem = s.mem)
    ∧ (∀ l a, (linkOf s l).failed = false → (linkOf s l).training = some a → s.time.dur < a + 100000 * 2 ^ 32 →
        s.trip.late = [] →
        exec (.retrainComplete l) s = .next { s with links := tblSet l { linkOf s l with training := none } s.links })
    ∧ (∀ l a, l < 16 → (linkOf s l).failed = false → (linkOf s l).training = some a → a + 100000 * 2 ^ 32 ≤ s.time.dur →
        l ∉ s.offline → s.trip.late = [] → (∀ e ∈ s.mon.comps, e.2.move = none) →
        ∃ t, exec (.linkFailed l) s = .next t ∧ (linkOf t l).failed = true ∧ t.offline = s.offline ++ [l]
          ∧ (s.dev = 1 → t.dev = 3) ∧ t.mem = s.mem)
    ∧ (∀ l a, 16 ≤ l → l < 20 → (linkOf s l).failed = false → (linkOf s l).training = some a →
        a + 100000 * 2 ^ 32 ≤ s.time.dur → s.striped = false → s.fenced = none → s.trip.late = [] →
        (∀ e ∈ s.mon.comps, e.2.move = none) →
        ∃ t, exec (.linkFailed l) s = .next t ∧ (linkOf t l).failed = true ∧ t.fenced = some (l - 16)
          ∧ (s.dev = 1 → t.dev = 3) ∧ t.mem = s.mem)
    ∧ (∀ code : Byte, ∃ t, exec (.fatalError code) s = .next t ∧ t.fatal = true ∧ pstateOf t = 3 ∧ t.chip.cause = 4
        ∧ (reg t 0x61800030).getLsbD 1 = true ∧ (reg t 0x61800030).toNat / 2 ^ 8 % 256 = code.toNat
        ∧ (∀ n, cellOf t n = cellOf State.reset n) ∧ t.sec.fuses = s.sec.fuses ∧ t.sec.flash = s.sec.flash)

/-- A lane of an engine of a hub that is free takes a job by a write with go, on the words as they stand, and shows it; while
a job is in progress go is ignored and mode is taken; when the job of a whole message ends with no error, its 32 octets of
digest stand in the lane's words, and the lane is free with result 0; a length that is no multiple of 64 ends a job of mode 1
or 2 with result 3, and a denied read ends one with result 1. What a job keeps of its words is log entry 73. -/
def Obligations.ShaJobs : Prop :=
  ∀ (e l : Nat) (s : State), 4 ≤ e → e < 16 → l < 8 →
    let a := 0x60100000 + 0x1000 * e + 0x100 * l
    (∀ init (v : W), lands init (a + 0x10) s → v.getLsbD 0 = true → (reg s (a + 0x20)).getLsbD 0 = false →
      ∃ t j, exec (.sha256Job init e l v) s = .next t ∧ (reg t (a + 0x10)).toNat = v.toNat / 2 % 4 * 2
        ∧ (reg t (a + 0x20)).getLsbD 0 = true ∧ t = { s with regs := t.regs, sha := tblSet (8 * e + l) j s.sha }
        ∧ j.src = (reg s a).toNat % 2 ^ 48 ∧ j.len = (reg s (a + 8)).toNat % 2 ^ 32 ∧ j.mode = v.toNat / 2 % 4)
    ∧ (∀ init (v : W), lands init (a + 0x10) s → v.getLsbD 0 = true → (reg s (a + 0x20)).getLsbD 0 = true →
      exec (.sha256Job init e l v) s = .next (setReg (a + 0x10) (BitVec.ofNat 64 (v.toNat / 2 % 4 * 2)) s))
    ∧ (∀ j, pstateOf s = 0 → tblFind s.sha (8 * e + l) = some j →
      (j.mode = 0 → inRam j.src j.len → rangeCheck s (0x100 + (e - 4) / 3) j.src j.len .read = none →
        rangeWaits s (0x100 + (e - 4) / 3) j.src j.len = false → s.caches.poison = [] →
        ∃ t, exec (.sha256JobDone e l .ok) s = .next t ∧ reg t (a + 0x20) = 0
          ∧ t = { s with regs := t.regs, sha := tblDel (8 * e + l) s.sha }
          ∧ (∀ i < 4, (reg t (a + 0x40 + 8 * i)).toNat = leNat (slice (sha256 (memRead s.mem j.src j.len)) (8 * i) 8)))
      ∧ (∀ r, j.mode = 1 ∨ j.mode = 2 → j.len % 64 ≠ 0 → exec (.sha256JobDone e l r) s =
          .next (setReg (a + 0x20) 6 { s with sha := tblDel (8 * e + l) s.sha }))
      ∧ (∀ r d b, j.mode = 0 → rangeCheck s (0x100 + (e - 4) / 3) j.src j.len .read = some (d, b) →
        rangeWaits s (0x100 + (e - 4) / 3) j.src j.len = false →
        ∃ t, exec (.sha256JobDone e l r) s = .next t ∧ reg t (a + 0x20) = 2 ∧ t.sha = tblDel (8 * e + l) s.sha ∧ t.mem = s.mem))

/-! ## Regulators, blocks and the power states (R32, R523 to R545, R582 to R584) -/

namespace Sys2Proof.Machine

/-- The state that a write of a block's request word leaves, as the register has it: level, state, powered cells (R527). -/
def reqIs (t : State) (b : Nat) (v : W) : Prop :=
  (reg t (regAddr b)).toNat = v.toNat % 4 + v.toNat / 16 % 4 * 16 + v.toNat / 2 ^ 16 % 2 ^ 16 * 2 ^ 16

end Sys2Proof.Machine

/-- The request word of a block's regulator, when none of the reasons of R531 refuses it and no change is in progress: a
lower level divides the clock first and a higher one raises the output first, once VIN_CORE suffices; a state below nap is
entered at once; nap begins with the write-back; off discards what the block holds; from nap or off, full mode comes first;
cen powers cells, in full mode, and browns the block out in low-power mode. rclr clears the counters. -/
def Obligations.RegulatorWords : Prop :=
  (∀ (init b : Nat) (v : W) (s : State), b < 16 → lands init (regAddr b) s → regRefusal s b v = none →
    (blkOf s b).phase = .none → forced s b = false →
    let bst := v.toNat / 16 % 4
    let k := v.toNat % 4
    let keepCen := v.toNat / 2 ^ 16 % 2 ^ 16 = regF s (regStat b) 31 16
    (keepCen → bst = astOf s b → bst < 2 → alvl s b < k → levelMv k ≤ (blkOf s b).mv →
      ∃ t, exec (.levelChangeRequest init b v) s = .next t ∧ reqIs t b v ∧ (blkOf t b).phase = .divDown k
        ∧ alvl t b = alvl s b ∧ (reg t (regStat b)).getLsbD 7 = true ∧ t.mem = s.mem ∧ t.cells = s.cells)
    ∧ (keepCen → bst = astOf s b → bst < 2 → k < alvl s b → (blkOf s b).mv < levelMv k → vinOk s (levelMv k) = true →
      ∃ t, exec (.levelChangeRequest init b v) s = .next t ∧ reqIs t b v ∧ (blkOf t b).phase = .slewUp k
        ∧ alvl t b = alvl s b ∧ t.mem = s.mem ∧ t.cells = s.cells)
    ∧ (keepCen → bst = 0 → astOf s b = 1 → k = alvl s b →
      ∃ t, exec (.blockRun init b v) s = .next t ∧ reqIs t b v ∧ astOf t b = 0 ∧ t.mem = s.mem ∧ t.cells = s.cells)
    ∧ (keepCen → bst = 1 → astOf s b = 0 → k = alvl s b →
      ∃ t, exec (.blockIdle init b v) s = .next t ∧ reqIs t b v ∧ astOf t b = 1 ∧ t.mem = s.mem ∧ t.cells = s.cells)
    ∧ (keepCen → bst = 2 → astOf s b < 2 →
      ∃ t, exec (.blockNap init b v) s = .next t ∧ reqIs t b v ∧ (blkOf t b).phase = .nap ∧ t.mem = s.mem)
    ∧ (keepCen → bst = 3 → astOf s b ≠ 3 →
      ∃ t, exec (.blockOff init b v) s = .next t ∧ reqIs t b v ∧ astOf t b = 3 ∧ (blkOf t b).mv = 0
        ∧ (∀ a, 0x40000000 + b * 0x200000 ≤ a → a < 0x40000000 + (b + 1) * 0x200000 → memTag t a = false)
        ∧ (∀ a, 0x44000000 + b * 0x400000 ≤ a → a < 0x44000000 + (b + 1) * 0x400000 → memTag t a = false)
        ∧ (∀ e ∈ t.mem, ¬(0x40000000 + b * 0x200000 ≤ e.1 ∧ e.1 < 0x40000000 + (b + 1) * 0x200000)
            ∧ ¬(0x44000000 + b * 0x400000 ≤ e.1 ∧ e.1 < 0x44000000 + (b + 1) * 0x400000)))
    ∧ (keepCen → bst = 0 → 2 ≤ astOf s b → vinOk s (levelMv k) = true →
      ∃ t, exec (.blockRun init b v) s = .next t ∧ reqIs t b v ∧ (blkOf t b).phase = .full k ∧ t.mem = s.mem)
    ∧ ((reg s (regStat b)).getLsbD 6 = false → (∃ c < 16, v.getLsbD (16 + c) = true ∧ (reg s (regStat b)).getLsbD (16 + c) = false) →
      ∃ t, exec (.cenWrite init b v) s = .next t ∧ astOf t b = 3 ∧ (reg t (regStat b)).getLsbD 9 = true
        ∧ ∀ c < 16, (cellOf t (16 * b + c)).powered = false)
    ∧ (bst = astOf s b → bst < 2 → k = alvl s b → (reg s (regStat b)).getLsbD 6 = true →
      ∃ t, exec (.cenWrite init b v) s = .next t ∧ reqIs t b v ∧ regF t (regStat b) 31 16 = v.toNat / 2 ^ 16 % 2 ^ 16
        ∧ t.mem = s.mem ∧ (¬keepCen → ∀ c < 16, (cellOf t (16 * b + c)).powered = v.getLsbD (16 + c))))
  ∧ (∀ (init b : Nat) (w : W) (s : State), b < 16 → lands init (blockBase b + 0x1028) s → w.getLsbD 0 = true →
      ∃ t, exec (.rclr init b w) s = .next t ∧ reg t (blockBase b + 0x1020) = 0 ∧ (reg t (regStat b)).getLsbD 9 = false
        ∧ t = { s with regs := t.regs })

/-- What regulators and the VIN_CORE rail do after a request: the divider switches, and a lower level's output then falls; a
raised output is followed by the divider; the rail's change ends within 15 mV, or times out and is tried again; full mode and
nap are entered; a sensor at 110 C forces P3 until all have read 105 C for 1 ms; a napping block that draws 48 mA is put in
full mode; and a brown-out loses a block. -/
def Obligations.RegulatorEvents : Prop :=
  ∀ (b : Nat) (s : State), b < 16 →
    (∀ k, k < 4 → (blkOf s b).phase = .divUp k → lvlOf s b = k → bstOf s b = astOf s b →
      ∃ t, exec (.dividerSwitch b) s = .next t ∧ alvl t b = k ∧ (blkOf t b).phase = .none
        ∧ highCount t (blockBase b + 0x1020) = upTo32 (highCount s (blockBase b + 0x1020)) ∧ t.mem = s.mem)
    ∧ (∀ k, k < 4 → (blkOf s b).phase = .divDown k →
      ∃ t, exec (.dividerSwitch b) s = .next t ∧ alvl t b = k ∧ (blkOf t b).phase = .slewDown k ∧ t.mem = s.mem)
    ∧ (∀ k, (blkOf s b).phase = .slewUp k →
      ∃ t, exec (.regulatorSlewDone b) s = .next t ∧ (blkOf t b).mv = levelMv k ∧ (blkOf t b).phase = .divUp k ∧ t.mem = s.mem)
    ∧ (∀ k, (blkOf s b).phase = .slewDown k → alvl s b = k → lvlOf s b = k → bstOf s b = astOf s b →
      ∃ t, exec (.regulatorSlewDone b) s = .next t ∧ (blkOf t b).mv = levelMv k ∧ (blkOf t b).phase = .none ∧ t.mem = s.mem)
    ∧ (∀ goal (m : BitVec 16), s.vin.tgt = some goal → m.toNat ≤ goal + 15 → goal ≤ m.toNat + 15 →
      s.time.dur ≤ s.vin.since + 2000000 * 2 ^ 32 →
      ∃ t, exec (.vinCoreChangeDone m) s = .next t ∧ t.vin.mv = goal ∧ t.vin.stuck = false ∧ t.mem = s.mem
        ∧ (∀ k, (blkOf s b).phase = .vin k → levelMv k + 70 ≤ goal → (blkOf t b).phase = .slewUp k))
    ∧ (∀ goal (m : BitVec 16), s.vin.tgt = some goal → s.vin.since + 2000000 * 2 ^ 32 ≤ s.time.dur →
      ∃ t, exec (.vinCoreChangeTimeout m) s = .next t
        ∧ t.vin = { s.vin with tgt := none, stuck := true, since := s.time.dur } ∧ regF t 0x61100028 31 16 = m.toNat ∧ t.blks = s.blks ∧ t.mem = s.mem)
    ∧ (s.vin.stuck = true → s.vin.tgt = none → vinTarget s ≠ s.vin.mv → (∀ c < 16, ∀ k, (blkOf s c).phase ≠ .vinFull k) →
      (∀ c < 16, ∀ k, (blkOf s c).phase = .vin k → lvlOf s c = k ∧ bstOf s c < 2) → s.vin.since + 1000000 * 2 ^ 32 ≤ s.time.dur →
      ∃ t, exec .vinCoreRetry s = .next t
        ∧ t.vin = { s.vin with tgt := some (vinTarget s), stuck := false, since := s.time.dur } ∧ t.blks = s.blks)
    ∧ ((blkOf s b).phase = .full (lvlOf s b) → bstOf s b = 0 → forced s b = false →
      ∃ t, exec (.fullModeReady b) s = .next t ∧ astOf t b = 0 ∧ (blkOf t b).mv = levelMv (lvlOf s b)
        ∧ alvl t b = lvlOf s b ∧ (blkOf t b).phase = .none ∧ regF t (regStat b) 31 16 = regF s (regAddr b) 31 16 ∧ t.mem = s.mem)
    ∧ ((blkOf s b).phase = .nap → bstOf s b = 2 → ∃ t, exec (.napEntryComplete b) s = .next t ∧ astOf t b = 2
        ∧ (blkOf t b).mv = 600 ∧ (blkOf t b).phase = .none ∧ t.mem = s.mem)
    ∧ (∀ t0 t1 t2 t3 : BitVec 16, 1100 ≤ t0.toInt ∨ 1100 ≤ t1.toInt ∨ 1100 ≤ t2.toInt ∨ 1100 ≤ t3.toInt → forced s b = false →
      pstateOf s = 0 ∨ pstateOf s = 3 → astOf s b < 2 → (blkOf s b).phase = .none → alvl s b < 3 →
      ∃ t, exec (.thermalForce b t0 t1 t2 t3) s = .next t ∧ forced t b = true ∧ (blkOf t b).phase = .divDown 3 ∧ t.mem = s.mem)
    ∧ (∀ a, (blkOf s b).cool = some a → forced s b = true → a + 1000000 * 2 ^ 32 ≤ s.time.dur → (blkOf s b).phase ≠ .none →
      ∃ t, exec (.thermalForceRelease b) s = .next t ∧ forced t b = false ∧ t.blks = s.blks ∧ t.mem = s.mem)
    ∧ (∀ i : BitVec 16, astOf s b = 2 → (reg s (regStat b)).getLsbD 6 = false → 48 ≤ i.toNat → blocksSupplied s = true →
      ∃ t, exec (.napMonitor b i) s = .next t ∧ (reg t (regStat b)).getLsbD 6 = true ∧ (reg t (regStat b)).getLsbD 8 = true
        ∧ (blkOf t b).imon = some (s.time.dur, i.toNat) ∧ (blkOf t b).mv = (blkOf s b).mv ∧ (blkOf t b).phase = (blkOf s b).phase
        ∧ t.mem = s.mem)
    ∧ (∀ i o : BitVec 16, o.toNat < 550 → astOf s b ≠ 3 → blocksSupplied s = true →
      ∃ t, exec (.blockBrownOut b i o) s = .next t ∧ astOf t b = 3 ∧ (reg t (regStat b)).getLsbD 9 = true
        ∧ (∀ c < 16, (cellOf t (16 * b + c)).powered = false ∧ (cellOf t (16 * b + c)).stopped = true))

/-- The power states. From on, a command, with the class and state that R534 asks for, enters standby or hibernate; a wake
begins in waking, by a command, the timer or a CAN frame; each step leads to the next; a step that times out goes back, and
the fourth attempt's time-out is the failure of the wake; a retry begins after 100 ms; a sensor at 115 C enters thermal
standby; and supplies come and go. -/
def Obligations.PowerStates : Prop :=
  ∀ (s : State),
    let sessionReady := fun (n : Nat) => ∃ x, sessOf s n = some x ∧ carrierLive s x.carrier = true ∧ 1 ≤ x.cls
    (∀ n, sessionReady n → pstateOf s = 0 → s.chip.aux = true → s.dev < 4 →
      ∃ t, exec (.standby n) s = .next t ∧ pstateOf t = 1 ∧ t.chip.thermal = false ∧ t.dl.sess = [])
    ∧ (∀ n, sessionReady n → pstateOf s = 0 → s.chip.aux = true → s.dev < 4 →
      ∃ t, exec (.hibernate n) s = .next t ∧ pstateOf t = 2 ∧ t.cells = [] ∧ t.chip.mainsLost = false)
    ∧ (∀ n x, sessOf s n = some x → carrierLive s x.carrier = true → pstateOf s = 1 → s.chip.aux = true → s.chip.mains = true →
      s.chip.retry = none → s.chip.thermal = false →
      ∃ t, exec (.wake n) s = .next t ∧ pstateOf t = 3 ∧ t.chip.origin = 1 ∧ t.chip.cause = 5 ∧ regF t pcBase 11 8 = 2)
    ∧ (pstateOf s = 2 → s.chip.mains = true → s.chip.aux = true → s.chip.retry = none → s.chip.thermal = false →
      (reg s (pcBase + 0x10)).getLsbD 1 = true → (reg s (pcBase + 0x18)).toNat % 2 ^ 48 ≠ 0 →
      (reg s (pcBase + 0x18)).toNat % 2 ^ 48 * 1000000 ≤ islandTime s →
      ∃ t, exec .wakeTimer s = .next t ∧ pstateOf t = 3 ∧ t.chip.origin = 2 ∧ t.chip.cause = 9 ∧ regF t pcBase 11 8 = 1
        ∧ reg t (pcBase + 0x18) = 0)
    ∧ (∀ ctl, pstateOf s = 1 → carrierLive s (.can ctl) = true → s.chip.mains = true → s.chip.aux = true → s.chip.retry = none →
      s.chip.thermal = false → (reg s (pcBase + 0x10)).getLsbD 2 = true →
      ∃ t, exec (.canWake ctl (0x600 + nodeNumber s)) s = .next t ∧ pstateOf t = 3 ∧ t.chip.cause = 7)
    ∧ (∀ e, pstateOf s = 3 → regF s pcBase 11 8 = 1 →
      ∃ t, exec (.wakeStepDone e) s = .next t ∧ regF t pcBase 11 8 = 2 ∧ regF t pcBase 6 4 = regF s pcBase 6 4 ∧ pstateOf t = 3
        ∧ t.mem = s.mem)
    ∧ (∀ e, pstateOf s = 3 → regF s pcBase 11 8 = 4 →
      ∃ t, exec (.wakeStepDone e) s = .next t ∧ regF t pcBase 11 8 = (if s.chip.origin = 1 then 5 else 6) ∧ pstateOf t = 3)
    ∧ (∀ e, pstateOf s = 3 → regF s pcBase 11 8 = 6 →
      ∃ t, exec (.wakeStepDone e) s = .next t ∧ regF t pcBase 11 8 = 8 ∧ t.cells = [(0, rootCell)] ∧ pstateOf t = 3)
    ∧ (pstateOf s = 3 → regF s pcBase 6 4 < 4 → s.chip.origin = 1 →
      ∃ t, exec .wakeStepTimeout s = .next t ∧ pstateOf t = 1 ∧ t.chip.retry = some s.time.dur)
    ∧ (pstateOf s = 3 → 4 ≤ regF s pcBase 6 4 →
      ∃ t, exec .wakeStepTimeout s = .next t ∧ pstateOf t = 4 ∧ t.dev = 4 ∧ t.chip.fcause = 1)
    ∧ (∀ a, s.chip.retry = some a → a + 100 * (1000000 * 2 ^ 32) ≤ s.time.dur → regF s pcBase 6 4 < 4 →
      ∃ t, exec .wakeRetry s = .next t ∧ pstateOf t = 3 ∧ t.chip.retry = none ∧ regF t pcBase 6 4 = regF s pcBase 6 4 + 1
        ∧ regF t pcBase 11 8 = (if s.chip.origin = 1 then 2 else 1))
    ∧ (∀ b (c : BitVec 16), b < 16 → 1150 ≤ c.toInt → pstateOf s = 0 →
      ∃ t, exec (.thermalStandby b c) s = .next t ∧ pstateOf t = 1 ∧ t.chip.thermal = true ∧ t.dl.sess = [])
    ∧ (s.chip.aux = true → pstateOf s = 0 →
      ∃ t, exec .mainSupplyLoss s = .next t ∧ pstateOf t = 2 ∧ t.chip.mainsLost = true ∧ t.chip.mains = false ∧ t.cells = [])
    ∧ (s.chip.aux = true → s.chip.started = false → pstateOf s = 2 → s.chip.retry = none → s.chip.thermal = false →
      ∃ t, exec .mainSupplyApply s = .next t ∧ t.chip.mains = true ∧ pstateOf t = 3 ∧ regF t pcBase 11 8 = 1
        ∧ (s.chip.cause ≠ 0x0C → t.chip.cause = (if s.time.dur ≤ s.chip.auxAt + 1000000000 * 2 ^ 32 then 1 else 2)))
    ∧ (∀ id par, s.chip.aux = false → ∃ t, exec (.auxSupplyApply id par) s = .next t ∧ t.chip.aux = true
        ∧ t.hw.node = (if ((List.range 7).countP (fun i => id.getLsbD i) + (if par then 1 else 0)) % 2 = 1 then id.toNat else 0)
        ∧ pstateOf t = (if s.chip.mains then 3 else 2) ∧ t.mem = [])
    ∧ (∃ t, exec .auxSupplyLoss s = .next t ∧ t.chip.aux = false ∧ t.mem = [] ∧ t.cells = [] ∧ t.log = []
        ∧ t.sec.fuses = s.sec.fuses)
    ∧ (s.chip.aux = true → ∃ t, exec .islandBrownOut s = .next t ∧ t.cells = [] ∧ t.chip.islOk = false
        ∧ pstateOf t = (if s.chip.mains then 3 else 2) ∧ t.sec.fuses = s.sec.fuses)

/-! ## Placement, epochs, the twin and removal (R425 to R450, R578) -/

namespace Sys2Proof.Machine

/-- An open session whose carrier is alive and whose class is at least `cls`, while the chip is on: what a write of the
dictionary asks of its sender (R462, R465). -/
def writer (n cls : Nat) (s : State) : Prop :=
  pstateOf s = 0 ∧ s.chip.aux = true ∧ ∃ x, sessOf s n = some x ∧ carrierLive s x.carrier = true ∧ cls ≤ x.cls

/-- Monarch may act: the chip is on, and stage 1 has given Monarch its authority (R424). -/
def monarchActs (s : State) : Prop := pstateOf s = 0 ∧ s.mon.auth = true

/-- No request is held over, and none that a command makes in doing `f` must wait for a link or at a gate (R24, R265). -/
def goes (f : State → State) (s : State) : Prop := s.waits = false ∧ (f s).waits = false

/-- The same of an action of Monarch and what it means for activations. -/
def monarchGoes (f : State → State) (s : State) : Prop := goes (fun u => watchAll u (f u)) s

/-- The result that the placement of a waiting manifest ends with when it is refused (R429): for its voters, for a grant that
is absent, and by its code: admission fails on every permitted cell, diversity alone bars the seats, near objects and cocoons
have no room, and no ASID or gate region is left. -/
def refusedAs (s : State) (m : List Byte) (p : Placement) (r : Nat) : Prop :=
  (votersSplit s m = true ∧ r = 4)
  ∨ (votersSplit s m = false ∧ grantsPresent s m = false ∧ r = 7)
  ∨ (votersSplit s m = false ∧ grantsPresent s m = true ∧
      ((p.code = 3 ∧ r = 3 ∧ canSeat s m {} = false ∧ heatBars s m = false
          ∧ (canSeat s m { adm := false } = true ∨ canSeat s m { adm := false, div := false } = false))
      ∨ (p.code = 4 ∧ r = 4 ∧ canSeat s m { adm := false } = false ∧ canSeat s m { adm := false, div := false } = true)
      ∨ (p.code = 5 ∧ r = 5 ∧ canSeat s m { adm := !heatBars s m } = true ∧ hasPlace s m = false)
      ∨ (p.code = 6 ∧ r = 6 ∧ ((∀ a, 1 ≤ a → a < 256 → ∃ e ∈ s.mon.comps, e.2.asid = a)
          ∨ ∃ g < 0x118, freeRegion s g = none))))

/-- A waiting manifest that an epoch has taken up, in its turn (R426, R436). -/
def inHand (s : State) (m : List Byte) : Prop :=
  s.mon.wait = [(mCid m, m)] ∧ mCid m ∈ s.mon.taken ∧ (∀ r, manRec s (mCid m) = some r → r.data = m → s.dev = 0)

/-- A manifest written in configuring or maintenance is queued for placement, or refused at once with its result in
0x6010:03; once an epoch has taken it up, a placement within the hard constraints and towards the goals starts the compartment,
running or, when it is mirrored and the module has no partner, on standby, with its threads in their slots where the gates admit
the instances to them; one that is refused changes no compartment and no cell; an unloaded compartment is gone, and its record
with it; a write of a proposal's number confirms it and any other number is refused; and a proposal lapses. -/
def ManifestsPlace : Prop :=
  ∀ (s : State),
    (∀ n b, writer n 1 s → s.dev = 0 ∨ s.dev = 2 → b.length ≤ 2 ^ 24 → jnlRoom s b.length = true → loadResult s b = none →
      ∃ t, exec (.manifestLoad n b) s = .next t ∧ t.mon.wait = s.mon.wait ++ [(mCid b, b)]
        ∧ t.mon.comps = s.mon.comps ∧ t.cells = s.cells ∧ t.mem = s.mem)
    ∧ (∀ n b c, writer n 1 s → s.dev = 0 ∨ s.dev = 2 → b.length ≤ 2 ^ 24 → jnlRoom s b.length = true → loadResult s b = some c →
      ∃ t, exec (.manifestLoad n b) s = .next t ∧ t.mon = s.mon ∧ t.cells = s.cells ∧ t.mem = s.mem
        ∧ objNat t 0x6010 3 0 = c + mCid b % 1024 * 2 ^ 16)
    ∧ (∀ m p, monarchActs s → inHand s m → p.code = 0 → votersSplit s m = false →
      monarchGoes (fun u => persist 10 (pairPlaced (mCid m) u (manifestPlaced (mCid m) p u))) s →
      placeOk s m false p = true → pursues s m p (List.range (mNthr m)) = true → freezeOpen s m (mCid m) p = true →
      mNthr m ≤ 64 → compOf s (mCid m) = none → mTwin m = 0 ∨ s.twin.state ≠ 1 ∨ s.twin.partner = none →
      (∀ x ∈ p.seats, ∃ g, gateCheck s (0x100 + x.cell / 64) (slotAt x.cell x.slot) 8 .write = .ok g) →
      ∃ t c, exec (.manifestPlaced (mCid m) p) s = .next t ∧ t.mon.wait = [] ∧ compOf t (mCid m) = some c ∧ c.man = m
        ∧ c.state = (if mTwin m = 0 then 1 else 4) ∧ c.asid = p.asid ∧ c.objs = p.objs ∧ c.thr.map (fun x => x.seat) = p.seats
        ∧ objNat t 0x6010 3 0 = mCid m % 1024 * 2 ^ 16
        ∧ (∀ i x, p.seats[i]? = some x →
            (slotOf (cellOf t x.cell) x.slot).state = (if mTwin m = 0 then 1 else 4)
            ∧ (slotOf (cellOf t x.cell) x.slot).tid = x.tag ∧ (slotOf (cellOf t x.cell) x.slot).prio = tPrio m i))
    ∧ (∀ m p r, monarchActs s → inHand s m → refusedAs s m p r → s.waits = false →
      ∃ t, exec (.manifestPlaced (mCid m) p) s = .next t ∧ t.mon.wait = [] ∧ t.mon.comps = s.mon.comps ∧ t.cells = s.cells
        ∧ t.regs = s.regs ∧ objNat t 0x6010 3 0 = r + mCid m % 1024 * 2 ^ 16)
    ∧ (∀ n cid c, writer n 1 s → s.dev = 0 ∨ s.dev = 2 → cid < 1024 → compOf s cid = some c →
      goes (unload cid) s → (s.dev = 2 → s.dict.pend = []) →
      ∃ t, exec (.mUnload n cid) s = .next t ∧ compOf t cid = none ∧ manRec t cid = none
        ∧ (∀ k, k ≠ cid → compOf t k = compOf s k))
    ∧ (∀ n p (num : W32), writer n 1 s → s.dev < 4 → s.mon.prop = some p →
      ∃ t, exec (.proposalConfirm n num) s = .next t ∧ t.cells = s.cells ∧ t.mem = s.mem
        ∧ t.mon.prop = some { p with ok := p.ok || decide (p.seq = num.toNat) })
    ∧ (∀ p, pstateOf s = 0 → s.mon.prop = some p → p.ok = false → p.posted + s.mon.par.advto * (1000000 * 2 ^ 32) ≤ s.time.dur →
      ∃ t, exec .proposalLapse s = .next t ∧ t.mon = { s.mon with prop := none } ∧ t.cells = s.cells ∧ t.mem = s.mem)

/-- An epoch is over, the coordinator acts, no block is above its limit, no migration is in progress, no proposal is confirmed,
no compartment has lost a slot, a place or a queue that it waits on, and no stopped cell is to be restarted: nothing forces a
decision at the end of this epoch (R436). -/
def epochOver (s : State) : Prop :=
  monarchActs s ∧ s.mon.start + (s.mon.epoch + 1) * (1000000 * 2 ^ 32) ≤ s.time.dur ∧ instLive s (coordinator s) = true
    ∧ (∀ b < 16, blockHot s b = false) ∧ (∀ p, s.mon.prop = some p → p.ok = false)
    ∧ (∀ e ∈ s.mon.comps, e.2.move = none ∧ mustDecide s e.2 = false
        ∧ (e.2.state = 1 → slotLost s e.2 = false ∧ ∀ x ∈ e.2.thr, waitsOut s x = false))
    ∧ (∀ n < 256, (cellOf s n).stopped = true → (cellOf s n).flush = true ∨ n ∈ s.mon.parked ∨ n ∈ s.mon.left
        ∨ (reg s (recAddr (.cell n) + 0x30)).getLsbD 0 = false)

/-- Where the installation of a move changes the tenant's domain, its other compartments are frozen, or in their windows
(R433, R440). -/
def othersStill (s : State) (c : Comp) (cid : Nat) (p : Placement) : Prop :=
  needsFreeze (tenantOf s (mTenant c.man)) p = true →
    ∀ e ∈ tenantOthers s (mTenant c.man) cid, e.1 ∈ c.held ∨ windowOpen s e.2 = true

/-- The measures that the end of an epoch takes of a thread: the waits for a bank in that epoch (R434). -/
def measured (s : State) (x : Thr) : Thr :=
  let n := (slotOf (cellOf s x.seat.cell) x.seat.slot).nobank
  { x with ran := false, waits := n - x.nob, nob := n }

/-- An epoch ends after each millisecond: it is counted, the settings take effect, the waiting manifests are taken up, and
each compartment's least slack and waits are kept; a migration that has gained for eight epochs suspends its compartment in
its window, and its tenant's others where the domain widens, and is installed by its copy's end, or is abandoned when its
place is lost; a block's temperatures are kept, force it at 110 C, and put the chip in standby at 115 C; a period boundary releases an activation and counts one that is not
complete; and a hub core that is lost degrades the device. -/
def EpochsPass : Prop :=
  ∀ (s : State),
    (epochOver s → s.waits = false → s.twin.state ≠ 1 → s.twin.rm ≠ 1 ∨ s.twin.consent = false →
      (∀ b < 16, levelTarget s b = lvlOf s b ∧ (blockThreads s b ≠ 0 ∨ b ∈ s.offline ∨ 2 ≤ bstOf s b)) →
      ∃ t, exec (.epochEnd []) s = .next t ∧ t.mon.epoch = s.mon.epoch + 1 ∧ t.mon.par = monParams s
        ∧ t.mon.taken = s.mon.wait.map (fun w => w.1)
        ∧ (∀ cid, compOf t cid = (compOf s cid).map (fun c =>
            { c with last := c.slack.getD c.last, slack := none, thr := c.thr.map (measured s) }))
        ∧ t.cells = s.cells ∧ t.mem = s.mem ∧ t.regs = s.regs)
    ∧ (∀ cid c p, epochOver s → s.twin.state ≠ 1 → compOf s cid = some c → c.state = 1 → s.twin.rm = 0 → 0 < s.mon.par.migmax →
      s.mon.par.mode = 0 → monarchGoes (epochEnd [.migrate cid p]) s →
      let v := (List.range 16).foldl thermalStep s
      let u := { v with mon := { v.mon with taken := s.mon.wait.map (fun w => w.1) } }
      let d := { c with gain := some (p, gainEpochs u c cid p, u.mon.epoch) }
      let w := setComp cid d u
      let l := if needsFreeze (tenantOf w (mTenant c.man)) p then tenantOthers w (mTenant c.man) cid else []
      8 ≤ gainEpochs u c cid p → windowOpen w d = true → freezeOpen w c.man cid p = true → placeOk w c.man false p = true →
      sameView d p = true → (∀ x ∈ c.thr, instLive w (x.seat.cell / 64) = true) →
      (l.foldl (fun z e => let y := freezeComp e.2 z.2; (z.1 && y.1, y.2)) (freezeComp d w)).1 = true →
      ∃ t e, exec (.epochEnd [.migrate cid p]) s = .next t ∧ compOf t cid = some e ∧ e.state = 2 ∧ e.move = some p
        ∧ e.held = l.map (fun x => x.1) ∧ e.man = c.man ∧ e.objs = c.objs
        ∧ e.thr.map (fun x => x.seat) = c.thr.map (fun x => x.seat))
    ∧ (∀ cid c p, monarchActs s → compOf s cid = some c → c.move = some p → placeOk s c.man false p = true →
      sourceLost s c = false → othersStill s c cid p → monarchGoes (migrationInstall cid) s → (copyComp c p (tenantGates c.man cid p s)).1 = true → c.thr.length = p.seats.length →
      ∃ t d, exec (.migrationInstall cid) s = .next t ∧ compOf t cid = some d ∧ d.state = 1 ∧ d.move = none
        ∧ d.mig = min (2 ^ 32 - 1) (c.mig + 1) ∧ d.objs = p.objs ∧ d.held = [] ∧ d.gain = none
        ∧ d.thr.map (fun x => x.seat) = p.seats ∧ d.asid = p.asid)
    ∧ (∀ cid c p, monarchActs s → compOf s cid = some c → c.move = some p → placeOk s c.man true p = false ∨ sourceLost s c = true →
      othersStill s c cid p → monarchGoes (migrationInstall cid) s →
      ∃ t d, exec (.migrationInstall cid) s = .next t ∧ compOf t cid = some d ∧ d.state = (if sourceLost s c then 3 else 1)
        ∧ d.move = none ∧ d.held = [] ∧ d.man = c.man ∧ d.objs = c.objs
        ∧ d.thr.map (fun x => x.seat) = c.thr.map (fun x => x.seat) ∧ t.mem = s.mem)
    ∧ (∀ b (t0 t1 t2 t3 : BitVec 16), pstateOf s = 0 → b < 16 →
      let h := hottest [t0, t1, t2, t3]
      (h < 1100 → ∃ t, exec (.blockTemperatureSample b t0 t1 t2 t3) s = .next t ∧ temps t b = [t0, t1, t2, t3] ∧ t.mem = s.mem
        ∧ t.cells = s.cells ∧ (∀ a, a ≠ blockBase b + 0x1018 → reg t a = reg s a))
      ∧ (1100 ≤ h → h < 1150 → ∃ t, exec (.blockTemperatureSample b t0 t1 t2 t3) s = .next t ∧ temps t b = [t0, t1, t2, t3]
        ∧ forced t b = true)
      ∧ (1150 ≤ h → ∃ t, exec (.blockTemperatureSample b t0 t1 t2 t3) s = .next t ∧ pstateOf t = 1 ∧ t.chip.thermal = true))
    ∧ (∀ cid i c th, pstateOf s = 0 → compOf s cid = some c → c.thr[i]? = some th → tPeriod c.man i ≠ 0 → th.due ≤ s.time.dur →
      c.state = 1 → (slotOf (cellOf s th.seat.cell) th.seat.slot).state = 1 →
      ∃ t, exec (.activationRelease cid i) s = .next t ∧ t.cells = s.cells ∧ t.mem = s.mem
        ∧ compOf t cid = some { c with
            miss := if th.rel.isSome then min (2 ^ 32 - 1) (c.miss + 1) else c.miss,
            thr := c.thr.set i { th with rel := some s.time.dur, due := th.due + tPeriod c.man i * (1000 * 2 ^ 32),
                                         cyc := (slotOf (cellOf s th.seat.cell) th.seat.slot).runcyc } })
    ∧ (∀ r < 4, pstateOf s = 0 → r ∉ s.hubLost →
      ∃ t, exec (.hubCoreLost r) s = .next t ∧ t.hubLost = s.hubLost ++ [r] ∧ t.dev = (if s.dev = 1 then 3 else s.dev)
        ∧ t.cells = s.cells ∧ t.mem = s.mem)

end Sys2Proof.Machine

/-- Manifests load, place and unload; proposals are confirmed and lapse. The choice of a placement is the command's
(log entry 30). -/
def Obligations.ManifestsPlaced : Prop := ManifestsPlace

/-- Epochs, migrations, temperatures, activations and lost hub cores. Monarch's choices are the command's, and a
migration's copy is one step (log entries 30 to 33). -/
def Obligations.EpochsAndMigrations : Prop := EpochsPass

/-- The twin link, stated of a module with one compartment, which is mirrored. Heartbeats are sent each 100 us and seen; when
the pair forms, a compartment that exactly one module records as active is active there, and otherwise on the module with the
lower node number; without a pair for 2 s after the link's training, or after it was placed where nothing is heard, a compartment goes active; a heartbeat missed for 0.8
ms has it taken over, and the pair is split; when the link returns, it stays active only where the partner has stopped it; a
mirror copy that the gates admit to its staging area, and the instance's writes to its place, is applied whole, without tags;
and a takeover that the partner asks for is acknowledged. That a lost pair is split, and what a compartment that goes active
holds, are the model's reading (log entries 34 and 36). -/
def Obligations.TwinPairsAndTakesOver : Prop :=
  ∀ (s : State), pstateOf s = 0 →
    ((∀ a, s.twin.sent = some a → a + 100 * (1000 * 2 ^ 32) ≤ s.time.dur) →
      exec .twinHeartbeatSend s = .next { s with
        tx := [.twin 0 0 [], .twin 0 1 [], .twin 0 2 [], .twin 0 3 []] ++ s.tx,
        twin := { s.twin with sent := some s.time.dur } })
    ∧ (∀ l < 4, exec (.twinHeartbeatReceive l) s = .next { s with twin := { s.twin with hb := some s.time.dur } })
    ∧ (∀ cid c p, s.mon.comps = [(cid, c)] → mTwin c.man ≠ 0 → c.state = 4 → s.twin.state = 0 → s.twin.hb.isSome = true →
      goes (pairForm p) s →
      ∃ t d, exec (.twinPairForm p) s = .next t ∧ t.twin.state = 1 ∧ compOf t cid = some d ∧ d.man = c.man
        ∧ (anchorRole s cid = 1 → cid ∉ p.active → d.state = 1)
        ∧ (anchorRole s cid ≠ 1 → cid ∈ p.active → d.state = 4)
        ∧ ((anchorRole s cid = 1 ↔ cid ∈ p.active) → nodeNumber s < p.node → d.state = 1)
        ∧ ((anchorRole s cid = 1 ↔ cid ∈ p.active) → p.node < nodeNumber s → d.state = 4))
    ∧ (∀ cid c, s.mon.comps = [(cid, c)] → mTwin c.man ≠ 0 → c.state = 4 → s.twin.state = 0 →
      (if s.twin.hb.isSome then s.twin.since else c.placed) + 2 * (1000000000 * 2 ^ 32) ≤ s.time.dur → goes pairTimeout s →
      ∃ t d, exec .twinPairTimeout s = .next t ∧ t.twin.state = 0 ∧ compOf t cid = some d ∧ d.state = 1 ∧ d.man = c.man)
    ∧ (∀ cid c a, s.mon.comps = [(cid, c)] → mTwin c.man ≠ 0 → c.state = 4 → s.twin.state = 1 → s.twin.hb = some a →
      a + 800 * (1000 * 2 ^ 32) ≤ s.time.dur → goes heartbeatLoss s →
      ∃ t d, exec .twinHeartbeatLoss s = .next t ∧ t.twin.state = 2 ∧ compOf t cid = some d ∧ d.state = 1 ∧ d.took = true
        ∧ t.twin.nmiss = min (2 ^ 32 - 1) (s.twin.nmiss + 1) ∧ t.twin.ntake = min (2 ^ 32 - 1) (s.twin.ntake + 1)
        ∧ t.twin.nsplit = min (2 ^ 32 - 1) (s.twin.nsplit + 1))
    ∧ (∀ cid c stopped, s.mon.comps = [(cid, c)] → c.took = true → c.state = 1 → s.twin.state = 2 →
      goes (linkRestored stopped) s →
      ∃ t d, exec (.twinLinkRestored stopped) s = .next t ∧ t.twin.state = 1 ∧ compOf t cid = some d ∧ d.took = false
        ∧ d.state = (if cid ∈ stopped then 1 else 4))
    ∧ (∀ cid stage c va pa j b, s.mon.comps = [(cid, c)] → mTwin c.man = 2 → c.state = 4 → s.twin.state = 1 →
      (c.objs.zip (List.range 256)).filter (fun o => oMir c.man o.2) = [((va, pa), j)] → b.length = oBytes c.man j →
      inRam stage b.length →
      (∀ x ∈ linePieces (b.length / 64 + 2) stage b.length, ∃ g, gateCheck s 0x141 x.1 x.2 .write = .ok g) →
      instLive s (instanceAt s pa) = true → inRam pa b.length → s.memWf = true → goes (mirrorApply cid stage [b]) s →
      (∀ x ∈ pagePieces (b.length / 4096 + 2) pa b.length, ∃ g, gateCheck s (0x100 + instanceAt s pa) x.1 x.2 .write = .ok g) →
      ∃ t, exec (.mirrorApply cid ⟨stage, [b]⟩) s = .next t ∧ (∀ i < b.length, memGet t.mem (pa + i) = b.getD i 0)
        ∧ (∀ a, a < pa ∨ pa + b.length ≤ a → a < stage ∨ stage + b.length ≤ a → memGet t.mem a = memGet s.mem a)
        ∧ (∀ i < b.length, memTag t (pa + i) = false) ∧ t.mon = s.mon)
    ∧ (∀ cid c, s.mon.comps = [(cid, c)] → c.state = 4 → s.twin.state = 1 → goes (takeoverRequest [cid]) s →
      ∃ t d, exec (.twinTakeoverRequest [cid]) s = .next t ∧ compOf t cid = some d ∧ d.state = 1
        ∧ t.tx.head? = some (.twin 3 cid []) ∧ t.twin.ntake = min (2 ^ 32 - 1) (s.twin.ntake + 1))
    ∧ (∀ cid rest, s.twin.asked = cid :: rest → cid ∉ rest → s.twin.rm = 1 → s.twin.evac = true → s.waits = false →
      ∃ t, exec (.twinTakeoverAck cid) s = .next t ∧ t.twin.asked = rest ∧ t.twin.rm = (if rest = [] then 2 else 1)
        ∧ t.cells = s.cells ∧ t.mem = s.mem)

/-- An opened latch asks for removal, which Monarch handles from the next epoch's end on: with a partner, the mirrored
compartment that runs here is handed over and waits for its acknowledgement, and with none to hand over the module is safe to
remove; without a partner nothing is stopped before the host's consent, after which the next epoch's end stops every
compartment; closed latches cancel a request that is not yet fulfilled. What the partner is sent is a list of the model (log entry 37). -/
def Obligations.RemovalEvacuates : Prop :=
  ∀ (s : State),
    (pstateOf s = 0 → s.twin.req = false → s.twin.rm = 0 →
      exec .removeReq s = .next { s with twin := { s.twin with req := true, rm := 1, evac := false } })
    ∧ (∀ cid c, epochOver s → s.twin.rm = 1 → s.twin.evac = false → s.twin.state = 1 → s.mon.comps = [(cid, c)] →
      mTwin c.man ≠ 0 → c.state = 1 → s.twin.asked = [] → monarchGoes (epochEnd []) s →
      ∃ t d, exec (.epochEnd []) s = .next t ∧ t.twin.rm = 1 ∧ t.twin.evac = true ∧ t.twin.asked = [cid]
        ∧ compOf t cid = some d ∧ d.state = 4 ∧ Out.twin 2 cid [] ∈ t.tx)
    ∧ (epochOver s → s.twin.rm = 1 → s.twin.evac = false → s.twin.state = 1 → s.mon.comps = [] → s.twin.asked = [] →
      monarchGoes (epochEnd []) s →
      ∃ t, exec (.epochEnd []) s = .next t ∧ t.twin = { s.twin with evac := true, rm := 2 })
    ∧ (s.twin.rm = 1 → exec .removeCancel s = .next { s with
        twin := { s.twin with req := false, evac := false, consent := false, rm := 0, asked := [] } })
    ∧ (s.twin.rm ≠ 1 → exec .removeCancel s = .next { s with twin := { s.twin with req := false, evac := false, consent := false } })
    ∧ (∀ n, writer n 1 s → s.dev < 4 → s.twin.rm = 1 → s.twin.state ≠ 1 →
      ∃ t, exec (.rmConsent n 1) s = .next t ∧ t.twin = { s.twin with consent := true } ∧ t.mon = s.mon ∧ t.cells = s.cells
        ∧ t.mem = s.mem)
    ∧ (epochOver s → s.twin.rm = 1 → s.twin.consent = true → s.twin.state ≠ 1 → monarchGoes (epochEnd []) s →
      ∃ t, exec (.epochEnd []) s = .next t ∧ t.twin.rm = 2
        ∧ (∀ cid c, compOf s cid = some c → ∃ d, compOf t cid = some d ∧ d.state = 3 ∧ d.man = c.man))

/-! ## The device state, persistence, images, identity and attestation (R468 to R477, R492, R552, R561 to R566) -/

/-- A commit leaves configuring for running, or for degraded when a condition is out, and the device commits by itself once
every manifest is placed when autorun allows it; maintenance is entered and left; a reset and a factory restore reset the
chip, the restore with the settings journal empty; pending settings reach the journal, when either of its copies is written; and a cleared log holds at most the
entry that says so. -/
def Obligations.DeviceStatesChange : Prop :=
  ∀ (s : State),
    (∀ n, writer n 1 s → s.dev = 0 →
      ∃ t, exec (.commit n) s = .next t ∧ t.dev = (if outCond s then 3 else 1) ∧ t.dict.dirty = [])
    ∧ (pstateOf s = 0 → s.dev = 0 → s.mon.wait = [] → objNat s 0x1010 4 0 = 1 → s.dict.rstFac = 0 → s.mon.failed = false →
      ∃ t, exec .autorunCommit s = .next t ∧ t.dev = (if outCond s then 3 else 1) ∧ t.dict.auto = true)
    ∧ (pstateOf s = 0 → s.dev = 0 → s.mon.wait = [] → objNat s 0x1010 4 0 = 1 → s.dict.rstFac ≠ 0 ∨ s.mon.failed = true →
      ∃ t, exec .autorunCommit s = .next t ∧ t.dev = 0 ∧ t.dict = s.dict ∧ t.mem = s.mem ∧ t.cells = s.cells)
    ∧ (∀ n, writer n 1 s → s.dev = 1 ∨ s.dev = 3 →
      ∃ t, exec (.enterMaintenance n) s = .next t ∧ t.dev = 2 ∧ t.mem = s.mem ∧ t.cells = s.cells ∧ t.regs = s.regs)
    ∧ (∀ n, writer n 1 s → s.dev = 2 →
      ∃ t, exec (.leaveMaintenance n) s = .next t ∧ t.dev = (if outCond s then 3 else 1) ∧ reg t (toutBlock + 8) = 0)
    ∧ (∀ n, writer n 1 s → s.dev ≤ 4 →
      ∃ t, exec (.resetCommand n) s = .next t ∧ pstateOf t = 3 ∧ t.chip.cause = 3 ∧ (∀ c, cellOf t c = cellOf State.reset c)
        ∧ t.sec.fuses = s.sec.fuses ∧ t.sec.flash = s.sec.flash ∧ t.dl.sess = [])
    ∧ (∀ n, writer n 2 s → s.dev = 2 →
      ∃ t, exec (.factoryRestore n) s = .next t ∧ pstateOf t = 3 ∧ t.chip.cause = 3 ∧ t.dict.jnl = {} ∧ t.dict.jnl2 = {}
        ∧ (∀ c, cellOf t c = cellOf State.reset c) ∧ t.sec.fuses = s.sec.fuses)
    ∧ (pstateOf s = 0 → s.dict.dirty ≠ [] →
      (∀ ok : NorOk, (ok.first || ok.second) = true → ∃ t, exec (.journalPersist ok) s = .next t ∧ t.dict.dirty = [] ∧ t.mem = s.mem
          ∧ t.cells = s.cells ∧ t.objs = s.objs)
      ∧ (∃ t, exec (.journalPersist ⟨false, false⟩) s = .next t ∧ t.dict = s.dict ∧ t.mem = s.mem ∧ t.cells = s.cells))
    ∧ (∀ n, writer n 2 s → s.dev = 2 →
      ∃ t, exec (.evClear n) s = .next t ∧ t.log.length ≤ 1 ∧ t.tail = [] ∧ t.mem = s.mem ∧ t.cells = s.cells ∧ t.regs = s.regs)

/-- Images, lifecycle, secrets and the identity. A valid image in the other slot becomes pending; an image that was
programmed and read back is valid and one that was not is invalid, with its code; a lifecycle command burns the fuse
of its state, decommissioning with every secret; a commissioning secret is replaced; an attestation request waits for
its signature, whose report is then kept; and a signed identity request leaves the queue. Signatures and fuses burned
by the factory are free values (log entries 25 and 26). -/
def Obligations.SecurityUnitActs : Prop :=
  ∀ (s : State),
    (∀ n, writer n 2 s → s.dev = 2 → imageState s (otherSlot s) = 1 → s.sec.slots.pending = none → imageOpen s = false →
      ∃ t, exec (.fwActivate n) s = .next t ∧ t.sec.slots.pending = some (otherSlot s) ∧ t.sec.slots.trial = 0
        ∧ imageState t (otherSlot s) = 3 ∧ t.sec.flash = s.sec.flash ∧ t.mem = s.mem ∧ t.cells = s.cells)
    ∧ (∀ k m n tid, pstateOf s = 0 → k < 2 → s.sec.prog = some (k, m, n, tid) →
      (∃ t, exec (.fwImageWritten true) s = .next t ∧ t.sec.prog = none ∧ slotImage t k = m ∧ imageState t k = 1
          ∧ t.sec.result = k * 2 ^ 8)
      ∧ (∃ t, exec (.fwImageWritten false) s = .next t ∧ t.sec.prog = none ∧ imageState t k = 2
          ∧ t.sec.result = 8 + k * 2 ^ 8))
    ∧ (∀ n, writer n 2 s → s.dev = 2 → lcState s = 1 → (∃ k < 4, rootProg s k = true ∧ rootRev s k = false) →
      secretState s = 3 →
      ∃ t, exec (.fieldSecure n) s = .next t ∧ lcState t = 2 ∧ t.sec.unlock = none ∧ (∀ i ∈ s.sec.fuses, i ∈ t.sec.fuses))
    ∧ (∀ n, writer n 2 s → s.dev = 2 → lcState s = 1 ∨ lcState s = 2 →
      ∃ t, exec (.decommission n) s = .next t ∧ lcState t = 3 ∧ t.sec.unlock = none ∧ t.sec.op = none ∧ t.sec.mnt = none
        ∧ (∀ i < 256, otpBit t (8 * 0x200 + i) = true))
    ∧ (∀ n (v : BitVec 256), writer n 2 s → s.dev = 2 →
      (∃ t, exec (.secretWrite n false v) s = .next t ∧ t.sec = { s.sec with op := some (leBytes 32 v.toNat) })
      ∧ (∃ t, exec (.secretWrite n true v) s = .next t ∧ t.sec = { s.sec with mnt := some (leBytes 32 v.toNat) }))
    ∧ (∀ n (v : BitVec 256), writer n 1 s → s.dev < 4 → hasIdentity s = true →
      ∃ t, exec (.attNonce n v) s = .next t ∧ t.sec.jobs = s.sec.jobs ++ [.report n 0 (leBytes 32 v.toNat)]
        ∧ t.mem = s.mem ∧ t.cells = s.cells)
    ∧ (∀ n tid nonce l, pstateOf s = 0 → s.sec.jobs = .report n tid nonce :: l → hasIdentity s = true →
      ∃ t, exec .attestationSigned s = .next t ∧ t.sec.jobs = l
        ∧ t.sec.report = reportBody s nonce ++ idSign s (reportBody s nonce))
    ∧ (∀ n tid l, pstateOf s = 0 → s.sec.jobs = .ident n tid :: l →
      ∃ t, exec .identitySignatureDone s = .next t ∧ t.sec.jobs = l ∧ t.mem = s.mem ∧ t.cells = s.cells)

/-! ## The Dunzia link (R494 to R518) -/

namespace Sys2Proof.Machine

/-- The state as a message is taken: the accesses that it makes meet the bus errors that the command names, and a message to the
mailbox stands in its request buffer (R288, R497). -/
def inbox (m : Msg) (s : State) : State :=
  let u := { s with waits := false, busLost := m.bus }
  match m.carrier with
  | .pcie => memStore (partPcie + 0x1000) (slice m.bytes 0 (min m.len 0x2000)) u
  | _ => u

/-- A carrier unit that is a well-formed message `d` of type `typ`, on a carrier in service, addressed to the node, the mailbox
being free for it (R494 to R500). -/
def wellSent (m : Msg) (d : Dz) (typ : Nat) (s : State) : Prop :=
  carrierLive s m.carrier = true ∧ addressed s m = true ∧ (m.carrier = .pcie → m.busy = false) ∧ dzParse m = some d ∧ d.typ = typ

/-- The message is session `n`'s, under its present epoch, and passes step 4 (R516, R517): session `x` becomes `y`, which
has just been heard. An authenticated session asks for a right trailer and an acceptable number, and has numbers left. -/
def hears (m : Msg) (d : Dz) (n : Nat) (x y : Sess) (s : State) : Prop :=
  n = d.sess ∧ sessOf s n = some x ∧ x.carrier = m.carrier ∧ x.epoch = d.epoch
  ∧ ((x.cls = 0 ∧ y = { x with heard := s.time.dur })
    ∨ (x.cls ≠ 0 ∧ x.txSeq + 20 < 2 ^ 32 ∧ ∃ k q, x.keys = some k ∧ q = leNat (slice d.trailer 0 4) ∧ q < 2 ^ 32 - 1
        ∧ d.mac = true ∧ d.trailer = trailerOf k.1 d.hdr d.payload q ∧ seqOk x q = true
        ∧ y = { x with heard := s.time.dur, rxMax := max x.rxMax q,
                       rxSeen := (q :: x.rxSeen).filter (fun k => decide (max x.rxMax q ≤ k + 64)) }))

/-- A request whose tid is neither open nor in quarantine, in a session with a transaction to spare. -/
def newTid (d : Dz) (x : Sess) : Prop :=
  (∀ t ∈ x.txs, t.tid ≠ d.tid) ∧ (∀ q ∈ x.quar, q.tid ≠ d.tid) ∧ x.txs.length < 4

/-- The octets of a message that the device sends in session `n`: with a trailer, under the next number, when the session is
authenticated (R498, R516). -/
def dzBytes (n : Nat) (y : Sess) (typ flags tid : Nat) (payload : List Byte) : List Byte :=
  match (if y.cls = 0 then none else y.keys) with
  | none => dzHeader typ n tid y.epoch (flags ||| 1) payload.length ++ payload
  | some k =>
    let h := dzHeader typ n tid y.epoch (flags ||| 3) payload.length
    h ++ payload ++ trailerOf k.2 h payload (y.txSeq + 1)

/-- The octets left the module on a carrier: padded on CAN FD under the node's response identifier, from the service's port on UDP;
on PCIe in the response buffer, or last of those that wait for it (R494, R495, R497). -/
def sentOn (c : Carrier) (b : List Byte) (t : State) : Prop :=
  match c with
  | .can _ => t.tx.head? = some (.msg c (0x680 + nodeNumber t) (b ++ List.replicate (canLen b.length - b.length) 0))
  | .udp _ _ => t.tx.head? = some (.msg c dzPort b)
  | .pcie => t.dl.rsp = some b ∨ t.dl.rspQ.getLast? = some b

/-- A session as it stands after the message: the tid is in quarantine, and open no more. -/
def tidOver (tid : Nat) (z : Sess) : Prop := txnOf z tid = none ∧ (∃ q ∈ z.quar, q.tid = tid)

/-- Session numbers stand once in the table. -/
def sessOnce (s : State) : Prop := (s.dl.sess.map (fun e => e.1)).Nodup

/-- Sessions open, close, time out, and are authenticated. -/
def SessionsLive : Prop :=
  ∀ (s : State),
    (∀ m d n, wellSent m d 1 s → d.sess = 0 → d.payload.length = 8 →
      (∀ o ∈ s.dl.opens, ¬(o.car = m.carrier ∧ o.tid = d.tid)) → 1 ≤ n → n ≤ 8 → sessOf s n = none →
      (∀ k, 1 ≤ k → k < n → sessOf s k ≠ none) →
      ∃ t e, exec (.openMsg m) s = .next t ∧ e = tblGet 0 s.dl.epochs n % 255 + 1
        ∧ sessOf t n = some { carrier := m.carrier, epoch := e, heard := s.time.dur }
        ∧ (∀ k, k ≠ n → sessOf t k = sessOf s k) ∧ tblGet 0 t.dl.epochs n = e ∧ t.cells = s.cells)
    ∧ (∀ m d, wellSent m d 1 s → d.sess = 0 → d.payload.length = 8 →
      (∀ o ∈ s.dl.opens, ¬(o.car = m.carrier ∧ o.tid = d.tid)) → (∀ k, 1 ≤ k → k ≤ 8 → sessOf s k ≠ none) →
      ∃ t, exec (.openMsg m) s = .next t ∧ t.dl.sess = s.dl.sess ∧ t.dl.epochs = s.dl.epochs
        ∧ sentOn m.carrier (dzHeader 0xC 0 d.tid 0 1 4 ++ leBytes 4 0x0A060003) t)
    ∧ (∀ m d n x y, wellSent m d 2 s → hears m d n x y s → newTid d x → d.payload = [] →
      ∃ t, exec (.closeMsg m) s = .next t ∧ sessOf t n = none ∧ (∀ k, k ≠ n → sessOf t k = sessOf s k)
        ∧ sentOn m.carrier (dzBytes n y 0xB 0 d.tid []) t ∧ t.cells = s.cells)
    ∧ (∀ m d n x y, wellSent m d 3 s → hears m d n x y s → newTid d x → d.payload = [] →
      ∃ t z, exec (.pingMsg m) s = .next t ∧ sessOf t n = some z ∧ z.heard = s.time.dur ∧ z.cls = x.cls ∧ tidOver d.tid z
        ∧ sentOn m.carrier (dzBytes n y 0xB 0 d.tid []) t ∧ t.cells = s.cells)
    ∧ (∀ m d n x y cls secret, wellSent m d 4 s → hears m d n x y s → newTid d x → d.payload.length = 20 →
      leNat (slice d.payload 0 3) = 1 + cls * 2 ^ 8 → cls = 1 ∨ cls = 2 → islandAlone s = false → x.cls = 0 →
      authCount s < 4 → secretOf s cls = some secret → lockedOut s m.carrier = false →
      ∃ t z a, exec (.authStep1 m) s = .next t ∧ sessOf t n = some z ∧ z.cls = 0 ∧ z.auth = some a ∧ a.cls = cls
        ∧ a.nh = slice d.payload 4 16 ∧ (a.khd, a.kdh) = authKeys s n x.epoch cls a.nh a.nd secret
        ∧ a.ends = some (s.time.dur + 2000 * (1000000 * 2 ^ 32)) ∧ tidOver d.tid z
        ∧ sentOn m.carrier (dzBytes n y 0xB 0 d.tid (authResult1 s a.nd 0)) t)
    ∧ (∀ m d n x y cls secret, wellSent m d 4 s → hears m d n x y s → newTid d x → d.payload.length = 20 →
      leNat (slice d.payload 0 3) = 1 + cls * 2 ^ 8 + 2 ^ 16 → cls = 1 ∨ cls = 2 → islandAlone s = false → x.cls = 0 →
      authCount s < 4 → secretOf s cls = some secret → lockedOut s m.carrier = false → hasIdentity s = true →
      segTransfers (setSess n y s) < 8 →
      ∃ t z u, exec (.authStep1 m) s = .next t ∧ sessOf t n = some z ∧ txnOf z d.tid = some u ∧ u.kind = 2
        ∧ t.sec.jobs = s.sec.jobs ++ [.ident n d.tid] ∧ t.tx = s.tx)
    ∧ (∀ m d n x y a e, wellSent m d 4 s → hears m d n x y s → newTid d x → d.payload.length = 20 →
      leNat (slice d.payload 0 1) = 2 → islandAlone s = false → x.cls = 0 → authCount s < 4 → lockedOut s m.carrier = false →
      x.auth = some a → a.ends = some e → s.time.dur < e →
      slice d.payload 4 16 = slice (hmac a.khd (octets "host-proof" ++ a.nd)) 0 16 →
      ∃ t z, exec (.authStep2 m) s = .next t ∧ sessOf t n = some z ∧ z.cls = a.cls ∧ z.keys = some (a.khd, a.kdh)
        ∧ z.auth = none ∧ tidOver d.tid z
        ∧ sentOn m.carrier (dzBytes n { x with cls := a.cls, keys := some (a.khd, a.kdh), txSeq := 0 } 0xB 0 d.tid
            (leBytes 1 2 ++ leBytes 3 0 ++ slice (hmac a.kdh (octets "dev-proof" ++ a.nh)) 0 16)) t)
    ∧ (∀ m d n x y a e, wellSent m d 4 s → hears m d n x y s → newTid d x → d.payload.length = 20 →
      leNat (slice d.payload 0 1) = 2 → islandAlone s = false → x.cls = 0 → lockedOut s m.carrier = false →
      x.auth = some a → a.ends = some e → s.time.dur < e →
      slice d.payload 4 16 ≠ slice (hmac a.khd (octets "host-proof" ++ a.nd)) 0 16 →
      ∃ t, exec (.authStep2 m) s = .next t
        ∧ (2 ≤ x.fails → sessOf t n = none)
        ∧ (x.fails < 2 → ∃ z, sessOf t n = some z ∧ z.cls = 0 ∧ z.fails = x.fails + 1 ∧ tidOver d.tid z)
        ∧ sentOn m.carrier (dzBytes n y 0xC 0 d.tid (leBytes 4 0x0A050002)) t
        ∧ (2 ≤ (s.dl.wrong.filter (fun w => decide (s.time.dur < w.2 + 60000 * (1000000 * 2 ^ 32))
            && w.1 == authSource m.carrier)).length → lockedOut t m.carrier = true))
    ∧ (∀ n x, sessOf s n = some x → x.heard + 30000 * (1000000 * 2 ^ 32) ≤ s.time.dur →
      ∃ t, exec (.sessionIdleTimeout n) s = .next t ∧ sessOf t n = none ∧ (∀ k, k ≠ n → sessOf t k = sessOf s k)
        ∧ t.tx = s.tx ∧ t.cells = s.cells ∧ t.mem = s.mem)
    ∧ (∀ c, ∃ t, exec (.authLockoutEnd c) s = .next t ∧ t = { s with dl := { s.dl with locks := t.dl.locks } }
        ∧ ∀ l, l ∈ t.dl.locks ↔ l ∈ s.dl.locks ∧ ¬(l.1 = authSource c ∧ l.2 ≤ s.time.dur))
    ∧ (∀ ctl, sessOnce s →
      ∃ t, exec (.canBusOff ctl) s = .next t ∧ t.cells = s.cells ∧ t.mem = s.mem ∧ t.dl.epochs = s.dl.epochs
        ∧ ∀ k, sessOf t k = (sessOf s k).filter (fun x => x.carrier != .can ctl))
    ∧ (sessOnce s →
      ∃ t, exec .pcieLinkDown s = .next t ∧ t.cells = s.cells ∧ t.mem = s.mem ∧ t.hw = { s.hw with pcie := false }
        ∧ ∀ k, sessOf t k = (sessOf s k).filter (fun x => x.carrier != .pcie))

/-- Values move: whole, in segments, and again when a segment is lost. -/
def TransfersMove : Prop :=
  ∀ (s : State),
    (∀ m d n x y v, wellSent m d 5 s → hears m d n x y s → newTid d x → d.payload.length = 4 →
      objRead (selLoad n (objOf d.payload).1 (objOf d.payload).2 (setSess n y (inbox m s))) n
        (objOf d.payload).1 (objOf d.payload).2 = v →
      ∃ t z, exec (.readMsg m) s = .next t ∧ sessOf t n = some z ∧ tidOver d.tid z ∧ t.cells = s.cells
        ∧ (∀ c, v = .error c → sentOn m.carrier (dzBytes n y 0xC 0 d.tid (leBytes 4 c)) t)
        ∧ (∀ b, v = .ok b → isDomain (objOf d.payload).1 (objOf d.payload).2 = false →
            b.length ≤ capacity m.carrier - (if x.cls = 0 then 4 else 24) →
            sentOn m.carrier (dzBytes n y 0xB 0 d.tid
              (d.payload.take 3 ++ leBytes 1 (codeOf (objOf d.payload).1 (objOf d.payload).2) ++ b)) t)
        ∧ (∀ b, v = .ok b → capacity m.carrier - (if x.cls = 0 then 4 else 24) < b.length
            ∨ isDomain (objOf d.payload).1 (objOf d.payload).2 = true →
            sentOn m.carrier (dzBytes n y 0xC 0 d.tid (leBytes 4 0x0A030003)) t))
    ∧ (∀ m d n x y s1 z, wellSent m d 6 s → hears m d n x y s → newTid d x → 4 ≤ d.payload.length →
      objWrite n d.tid (objOf d.payload).1 (objOf d.payload).2 (d.payload.drop 4) (setSess n y (inbox m s)) = (s1, .done) →
      s1.waits = false → sessOf s1 n = some z → z.txSeq + 2 < 2 ^ 32 → z.carrier = m.carrier →
      ∃ t, exec (.writeMsg m) s = .next t ∧ t.cells = s1.cells ∧ t.objs = s1.objs
        ∧ sentOn m.carrier (dzBytes n z 0xB 0 d.tid
            (leBytes 2 (objOf d.payload).1 ++ leBytes 1 (objOf d.payload).2 ++ [0])) t)
    ∧ (∀ m d n x y s1 z c, wellSent m d 6 s → hears m d n x y s → newTid d x → 4 ≤ d.payload.length →
      objWrite n d.tid (objOf d.payload).1 (objOf d.payload).2 (d.payload.drop 4) (setSess n y (inbox m s)) = (s1, .abort c) →
      s1.waits = false → sessOf s1 n = some z → z.txSeq + 2 < 2 ^ 32 → z.carrier = m.carrier →
      ∃ t, exec (.writeMsg m) s = .next t ∧ t.cells = s1.cells
        ∧ sentOn m.carrier (dzBytes n z 0xC 0 d.tid (leBytes 4 c)) t)
    ∧ (∀ m d n x y b, wellSent m d 7 s → hears m d n x y s → newTid d x → d.payload.length = 4 →
      segTransfers (setSess n y s) < 8 →
      objRead (selLoad n (objOf d.payload).1 (objOf d.payload).2 (setSess n y (inbox m s))) n
        (objOf d.payload).1 (objOf d.payload).2 = .ok b →
      ∃ t z u, exec (.uploadMsg m) s = .next t ∧ sessOf t n = some z ∧ txnOf z d.tid = some u ∧ u.kind = 0 ∧ u.data = b
        ∧ u.next = 0 ∧ t.cells = s.cells
        ∧ (∀ k, tblFind u.sent k = (if k < 16 ∧ k < segCount x u then some (s.time.dur, 0) else none)))
    ∧ (∀ m d n x y, wellSent m d 8 s → hears m d n x y s → newTid d x → d.payload.length = 8 →
      segTransfers (setSess n y s) < 8 → leNat (slice d.payload 4 4) ≠ 0 →
      (∃ e, writeChecks (setSess n y (inbox m s)) n (objOf d.payload).1 (objOf d.payload).2 (leNat (slice d.payload 4 4)) none
        = .ok e) →
      downloading (setSess n y (inbox m s)) n (objOf d.payload).1 (objOf d.payload).2 = false →
      ∃ t z u, exec (.downloadMsg m) s = .next t ∧ sessOf t n = some z ∧ txnOf z d.tid = some u ∧ u.kind = 1
        ∧ (u.idx, u.sub) = objOf d.payload ∧ u.ann = leNat (slice d.payload 4 4) ∧ u.next = 0 ∧ u.last = s.time.dur
        ∧ t.cells = s.cells ∧ sentOn m.carrier (dzBytes n y 0xB 0 d.tid (d.payload.take 3 ++ [0])) t)
    ∧ (∀ m d n x y u e v, wellSent m d 9 s → hears m d n x y s → (∀ q ∈ x.quar, q.tid ≠ d.tid) → txnOf x d.tid = some u →
      u.tid = d.tid → u.kind = 1 → u.held = [] → u.fin = none → u.ann < 2 ^ 32 → entOf u.idx u.sub = some e →
      (∃ e', writeChecks (setSess n y (inbox m s)) n u.idx u.sub (someLen e.ty)
        ((if u.next = 0 then v.head? else u.data.head?).map (fun o => o.toNat)) = .ok e') →
      (∃ e', writeChecks (setSess n y (inbox m s)) n u.idx u.sub (someLen e.ty) none = .ok e') →
      d.payload = leBytes 4 u.next ++ v → u.next < 2 ^ 32 → segBad y u u.next d.last v = none →
      (d.last = false → ∃ t z w, exec (.segmentMsg m) s = .next t ∧ sessOf t n = some z ∧ txnOf z d.tid = some w
        ∧ w.next = u.next + 1 ∧ w.data = u.data ++ v ∧ w.held = [] ∧ w.last = s.time.dur ∧ t.cells = s.cells
        ∧ sentOn m.carrier (dzBytes n y 0xA 0 d.tid (leBytes 4 (u.next + 1) ++ leBytes 4 0)) t)
      ∧ (∀ s1 z, d.last = true →
        objWrite n d.tid u.idx u.sub (u.data ++ v) (setSess n y (inbox m s)) = (s1, .done) →
        s1.waits = false → sessOf s1 n = some z → z.txSeq + 2 < 2 ^ 32 → z.carrier = m.carrier →
        ∃ t, exec (.segmentMsg m) s = .next t ∧ t.cells = s1.cells ∧ t.objs = s1.objs
          ∧ sentOn m.carrier (dzBytes n z 0xB 0 d.tid
              (leBytes 2 u.idx ++ leBytes 1 u.sub ++ [0] ++ leBytes 4 (u.data ++ v).length)) t))
    ∧ (∀ m d n x y u e, wellSent m d 9 s → hears m d n x y s → (∀ q ∈ x.quar, q.tid ≠ d.tid) → txnOf x d.tid = some u →
      u.tid = d.tid → u.kind = 1 → entOf u.idx u.sub = some e →
      (∃ e', writeChecks (setSess n y (inbox m s)) n u.idx u.sub (someLen e.ty) (u.data.head?.map (fun o => o.toNat)) = .ok e') →
      (∃ e', writeChecks (setSess n y (inbox m s)) n u.idx u.sub (someLen e.ty) none = .ok e') →
      4 ≤ d.payload.length → u.next + 16 ≤ leNat (slice d.payload 0 4) →
      ∃ t z, exec (.segmentMsg m) s = .next t ∧ sessOf t n = some z ∧ tidOver d.tid z ∧ t.cells = s.cells
        ∧ sentOn m.carrier (dzBytes n y 0xC 0 d.tid (leBytes 4 0x0A040002)) t)
    ∧ (∀ m d n x y u, wellSent m d 0xA s → hears m d n x y s → (∀ q ∈ x.quar, q.tid ≠ d.tid) → txnOf x d.tid = some u →
      u.tid = d.tid → u.kind = 0 → d.payload.length = 8 → leNat (slice d.payload 0 4) = segCount y u →
      (∃ e ∈ u.sent, e.1 + 1 = segCount y u) →
      ∃ t z, exec (.ackMsg m) s = .next t ∧ sessOf t n = some z ∧ tidOver d.tid z ∧ t.tx = s.tx ∧ t.cells = s.cells)
    ∧ (∀ m d n x y u, wellSent m d 0xC s → hears m d n x y s → (∀ q ∈ x.quar, q.tid ≠ d.tid) → txnOf x d.tid = some u →
      u.tid = d.tid → d.payload.length = 4 →
      ∃ t z, exec (.abortMsg m) s = .next t ∧ sessOf t n = some z ∧ tidOver d.tid z ∧ t.tx = s.tx ∧ t.cells = s.cells)
    ∧ (∀ n (tid : BitVec 16) k x u a r, sessOf s n = some x → x.txSeq + 20 < 2 ^ 32 → txnOf x tid.toNat = some u →
      u.tid = tid.toNat → u.kind = 0 → tblFind u.sent k = some (a, r) → a + segTimeout x.carrier ≤ s.time.dur →
      ∃ t z, exec (.segmentResendTimeout n tid k) s = .next t ∧ sessOf t n = some z ∧ t.cells = s.cells
        ∧ (r < 3 → txnOf z tid.toNat = some { u with sent := tblSet k (s.time.dur, r + 1) u.sent })
        ∧ (3 ≤ r → tidOver tid.toNat z ∧ sentOn x.carrier (dzBytes n x 0xC 0 tid.toNat (leBytes 4 0x0A040005)) t))
    ∧ (∀ n (tid : BitVec 16) x u, sessOf s n = some x → x.txSeq + 20 < 2 ^ 32 → txnOf x tid.toNat = some u →
      u.tid = tid.toNat → u.kind = 1 → u.last + 8 * segTimeout x.carrier ≤ s.time.dur →
      ∃ t z, exec (.transferTimeout n tid) s = .next t ∧ sessOf t n = some z ∧ tidOver tid.toNat z ∧ t.cells = s.cells
        ∧ sentOn x.carrier (dzBytes n x 0xC 0 tid.toNat (leBytes 4 0x0A040005)) t)
    ∧ (∀ n (tid : BitVec 16) x, n ≠ 0 → sessOf s n = some x →
      ∃ t z, exec (.quarantineEnd n tid) s = .next t ∧ sessOf t n = some z ∧ z.txs = x.txs ∧ t.tx = s.tx ∧ t.cells = s.cells
        ∧ ∀ q, q ∈ z.quar ↔ q ∈ x.quar ∧ ¬(q.tid = tid.toNat ∧ q.ends ≤ s.time.dur))
    ∧ (∀ (v : W) b, s.hw.pcie = true → v.toNat % 2 = 1 → s.dl.rsp = some b →
      ∃ t, exec (.rspack v) s = .next t ∧ t.dl.rsp = s.dl.rspQ.head? ∧ t.dl.rspQ = s.dl.rspQ.tail ∧ t.dl.sess = s.dl.sess
        ∧ t.cells = s.cells)

end Sys2Proof.Machine

/-- The life of a session on every carrier: the grant of the lowest free number under its next epoch, or the refusal
when none is free; CLOSE, PING, the two steps of AUTH with a right and a wrong proof; the idle time; the lockout's
end; and the events of a carrier. Nonces and signatures are free values, and one lockout holds for both CAN
controllers (log entries 24, 26 and 41). -/
def Obligations.LinkSessions : Prop := SessionsLive

/-- READ, WRITE, UPLOAD and DOWNLOAD with their RESULT or ABORT; segments, ACK and ABORT of a transfer; the resend and the
timeouts; the end of a quarantine; and the mailbox's release. -/
def Obligations.LinkTransfers : Prop := TransfersMove

/-! ## The debug port (R569 to R572) -/

namespace Sys2Proof.Machine

/-- What leaves the JTAG port. -/
def shifts (s : State) (bits value : Nat) : State := { s with tx := .jtag bits value :: s.tx }

end Sys2Proof.Machine

/-- With the chip powered and clocked, each instruction of the debug port shifts out what R569 says; a token that
passes unlocks the port for its life, and one that does not is counted, each with a fresh nonce, and nothing is taken
after three; MEMAP answers 0x05 while the port is closed, 0x0B when misaligned, and otherwise reads or writes at the
gate's check; and an unlock ends with its token's life. Nonces, signatures and the identity register are free values
(log entries 24, 26 and 27). -/
def Obligations.DebugPort : Prop :=
  ∀ (s : State), pstateOf s = 0 ∨ pstateOf s = 3 →
    (∀ b, exec (.bypassInst b) s = .next { shifts s 1 (if s.hw.bypass then 1 else 0) with hw := { s.hw with bypass := b } })
    ∧ exec .idcodeInst s = .next (shifts s 32 Config.idcode.toNat)
    ∧ (lcState s ≠ 2 → exec .statusInst s = .next (shifts s 8 1))
    ∧ (lcState s = 2 → exec .statusInst s =
        .next (shifts s 8 (if s.sec.unlock ≠ none then 2 else if 3 ≤ s.sec.rejects then 3 else 0)))
    ∧ (s.sec.nonce ≠ [] → exec .nonceInst s = .next (shifts s 128 (leNat s.sec.nonce)))
    ∧ (∀ b, lcState s = 2 → s.sec.rejects < 3 → tokenOk s b = true →
      ∃ t, exec (.tokenInst none b) s = .next t ∧ t.sec.nonce.length = 16 ∧ t.sec.rejects = s.sec.rejects
        ∧ t.sec.unlock = some (s.time.dur + leNat (slice b 40 4) * (1000000000 * 2 ^ 32), leNat (slice b 6 1))
        ∧ t.mem = s.mem ∧ t.cells = s.cells)
    ∧ (∀ b, lcState s = 2 → s.sec.rejects < 3 → tokenOk s b = false →
      ∃ t, exec (.tokenInst none b) s = .next t ∧ t.sec.nonce.length = 16 ∧ t.sec.rejects = s.sec.rejects + 1
        ∧ t.sec.unlock = s.sec.unlock ∧ t.mem = s.mem ∧ t.cells = s.cells)
    ∧ (∀ b, lcState s ≠ 2 ∨ 3 ≤ s.sec.rejects → exec (.tokenInst none b) s = .next s)
    ∧ (∀ n b, writer n 2 s → s.dev = 2 → lcState s = 2 → s.sec.rejects < 3 → tokenOk s b = true → b.length < 2 ^ 31 →
      ∃ t, exec (.tokenInst (some n) b) s = .next t ∧ t.mem = s.mem ∧ t.cells = s.cells
        ∧ t.sec.unlock = some (s.time.dur + leNat (slice b 40 4) * (1000000000 * 2 ^ 32), leNat (slice b 6 1)))
    ∧ (∀ a w wr data, memapOk s a = false → s.mon.comps = [] →
      exec (.memapInst a w wr data) s = .next (shifts s 145 (5 * 2 ^ 129)))
    ∧ (∀ a w wr data, memapOk s a = true → a % (if w then 16 else 8) ≠ 0 → s.mon.comps = [] →
      exec (.memapInst a w wr data) s = .next (shifts s 145 (0xB * 2 ^ 129)))
    ∧ (∀ a w data g, memapOk s a = true → a % (if w then 16 else 8) = 0 → inRam a (if w then 16 else 8) → s.mon.comps = [] →
      poisoned s a = false → reqWaits s 0x3FF a = false →
      gateCheck s 0x3FF a (if w then 16 else 8) (.dbg false) = .ok g →
      exec (.memapInst a w false data) s = .next (shifts s 145
        (leNat (memRead s.mem a (if w then 16 else 8)) + (if w ∧ memTag s a then 2 ^ 128 else 0))))
    ∧ (∀ a w (data : BitVec 128) g, memapOk s a = true → a % (if w then 16 else 8) = 0 → inRam a (if w then 16 else 8) →
      s.mon.comps = [] → poisoned s a = false → reqWaits s 0x3FF a = false → gateCheck s 0x3FF a (if w then 16 else 8) (.dbg true) = .ok g →
      exec (.memapInst a w true data) s = .next (shifts
        { s with mem := memWrite a (leBytes (if w then 16 else 8) data.toNat) s.mem,
                 tags := s.tags.filter (fun g => g ≠ a / 16), caches := cacheDrop a (if w then 16 else 8) s.caches } 145 0))
    ∧ (∀ e r, s.sec.unlock = some (e, r) → e ≤ s.time.dur →
      ∃ t, exec .debugUnlockExpiry s = .next t ∧ t.sec = { s.sec with unlock := none } ∧ t.mem = s.mem ∧ t.cells = s.cells)

/-! ## The module around the chip (R576 to R589) -/

/-- What the module's hardware does: the hot-swap controller connects and disconnects the internal bus and tries again
1 s after an overcurrent, whose loss puts a chip that is on into hibernate; a cage over its limit is off for 1 s and
its lanes lose link; a pluggable above 3.5 W is held in low-power mode; the references; link on a lane; and the PCIe
link and its accesses, which are checked at the gate under ID 0x140. PCIe configuration space is left out (log entry
42). -/
def Obligations.ModuleHardware : Prop :=
  ∀ (s : State),
    (s.hw.bus = false → s.hw.busOff = none →
      exec .hotSwapConnect s = .next { s with hw := { s.hw with bus := true, tcxo := none } })
    ∧ (s.hw.bus = true → s.chip.aux = true → pstateOf s = 0 →
      ∃ t, exec .hotSwapOvercurrent s = .next t ∧ t.hw.bus = false ∧ t.hw.busOff = some s.time.dur ∧ t.hw.ocxo = false
        ∧ pstateOf t = 2 ∧ t.cells = [] ∧ t.chip.mains = false)
    ∧ (∀ a, s.hw.busOff = some a → a + 1000000000 * 2 ^ 32 ≤ s.time.dur →
      exec .hotSwapRetry s = .next { s with hw := { s.hw with bus := true, busOff := none, tcxo := none } })
    ∧ (s.hw.bus = true → s.chip.aux = true → pstateOf s = 0 →
      ∃ t, exec .hotSwapDisconnect s = .next t ∧ t.hw.bus = false ∧ t.hw.busOff = none ∧ t.hw.ocxo = false
        ∧ pstateOf t = 2 ∧ t.cells = [])
    ∧ (∀ q < 4, (tblGet {} s.hw.cages q : Cage).off = none →
      ∃ t, exec (.cageOvercurrent q) s = .next t ∧ (tblGet {} t.hw.cages q : Cage).off = some s.time.dur
        ∧ (∀ n, n ∈ t.hw.up ↔ n ∈ s.hw.up ∧ n / 4 ≠ q) ∧ t.cells = s.cells ∧ t.mem = s.mem)
    ∧ (∀ q < 4, ∀ a, (tblGet {} s.hw.cages q : Cage).off = some a → a + 1000000000 * 2 ^ 32 ≤ s.time.dur →
      ∃ t, exec (.cageRetry q) s = .next t ∧ (tblGet {} t.hw.cages q : Cage).off = none ∧ t.hw.up = s.hw.up
        ∧ (∀ k, k ≠ q → (tblGet {} t.hw.cages k : Cage) = tblGet {} s.hw.cages k))
    ∧ (∀ q < 4, ∀ mw, ∃ t, exec (.pluggableInsert q mw) s = .next t
        ∧ (tblGet {} t.hw.cages q : Cage) = { (tblGet {} s.hw.cages q : Cage) with low := decide (3500 < mw) }
        ∧ (∀ n, n ∈ t.hw.up ↔ n ∈ s.hw.up ∧ (n / 4 ≠ q ∨ mw ≤ 3500)) ∧ t.cells = s.cells ∧ t.mem = s.mem)
    ∧ (s.hw.bus = true → exec .ocxoWarm s = .next { s with hw := { s.hw with ocxo := true } })
    ∧ (∀ a, s.hw.tcxo = some a → a + 10 * (1000000000 * 2 ^ 32) < s.time.dur →
      exec .tcxoHold s = .next { s with chip := { s.chip with islSt := 0 } })
    ∧ (∀ n < 16, ∃ t, exec (.laneLinkChange n false) s = .next t ∧ (∀ k, k ∈ t.hw.up ↔ k ∈ s.hw.up ∧ k ≠ n)
        ∧ t.cells = s.cells ∧ t.mem = s.mem)
    ∧ (∀ n < 16, laneMode s n ≠ 0 → (tblGet {} s.hw.cages (n / 4) : Cage) = {} → pstateOf s = 0 →
      ∃ t, exec (.laneLinkChange n true) s = .next t ∧ (∀ k, k ∈ t.hw.up ↔ k ∈ s.hw.up ∨ k = n)
        ∧ t.cells = s.cells ∧ t.mem = s.mem)
    ∧ (s.hw.perst = true → s.chip.aux = true → pstateOf s = 0 →
      exec .pcieLinkUp s = .next { s with hw := { s.hw with pcie := true } })
    ∧ exec (.perstN true) s = .next { s with hw := { s.hw with perst := true } }
    ∧ (∃ t, exec (.perstN false) s = .next t ∧ t.hw = { s.hw with perst := false, pcie := false } ∧ t.cells = s.cells
        ∧ t.mem = s.mem ∧ t.dl.rsp = none ∧ (∀ e ∈ t.dl.sess, e.2.carrier ≠ .pcie) ∧ reg t (partPcie + 0x10) = 0)
    ∧ (∀ off n, s.hw.pcie = true → 0 < n → n ≤ 512 → off + n ≤ 2 ^ 38 →
      rangeCheck s 0x140 (0x1000000000 + off) n .read = none →
      (∀ p ∈ linePieces (n / 64 + 2) (0x1000000000 + off) n,
        (∃ g, gateCheck s 0x140 p.1 p.2 .read = .ok g) ∧ poisoned s p.1 = false ∧ reqWaits s 0x140 p.1 = false) →
      exec (.pcieInboundRequest off n false []) s =
        .next { s with tx := .pcie true (memRead s.mem (0x1000000000 + off) n) :: s.tx })
    ∧ (∀ off (b : List Byte), s.hw.pcie = true → b ≠ [] → b.length ≤ 512 → off + b.length ≤ 2 ^ 38 →
      (∀ p ∈ linePieces (b.length / 64 + 2) (0x1000000000 + off) b.length,
        (∃ g, gateCheck s 0x140 p.1 p.2 .write = .ok g) ∧ poisoned s p.1 = false ∧ reqWaits s 0x140 p.1 = false) →
      ∃ t, exec (.pcieInboundRequest off b.length true b) s = .next t ∧ t.tx = s.tx
        ∧ t.mem = memWrite (0x1000000000 + off) b s.mem ∧ t.cells = s.cells
        ∧ (∀ i < b.length, memTag t (0x1000000000 + off + i) = false))

/-! ## The whole machine -/

/-- Every step keeps the canonical form of memory and of its tags: addresses strictly rising, and nothing listed that
reads as an unlisted address does. The canonical form is the model's own (log entry 38). -/
def Obligations.MemoryFormKept : Prop :=
  ∀ (s t : State), s.memWf = true → step s = .next t → t.memWf = true

/-- No command touches the queue of commands, and no command clears an OTP fuse that has been burned (R553). -/
def Obligations.QueueAndFusesKept : Prop :=
  ∀ (i : Instr) (s t : State), exec i s = .next t →
    t.pending = s.pending ∧ (∀ f ∈ s.sec.fuses, f ∈ t.sec.fuses)

/-- Every command of the table is carried out in every state: it faults in none and is refused in none. A command
whose condition is not met leaves the state as it is (log entry 4). -/
def Obligations.EveryCommandCompletes : Prop := ∀ (i : Instr) (s : State), ∃ t, exec i s = .next t

/-- Right after reset: memory reads as zeros without tags (R80) and has its canonical form, no command waits, and cell 0.0.00
runs its bank 5, with translation off (ASID 0), the root capabilities in c0 to c3, pcc at the start of the boot ROM, and
every other c register zero with its tag clear (R81); no other cell and no hub core runs or holds a tagged capability (R82).
That no command waits is the model's own. -/
def Obligations.ResetState : Prop :=
  let s := State.reset
  let k := runBank (cellOf s 0)
  let isRoot := fun (c : Cap) (base : Int) (len : Nat) (perms : BitVec 12) (a : W) (enc : Nat × Nat × Nat × Bool) =>
    c.tag = true ∧ capBase c = base ∧ capLen c = len ∧ capPerms c = perms ∧ capOtype c = 0 ∧ c.addr = a
      ∧ (capExp c, capBm c, capTm c, capFw c) = enc
  s.memWf = true ∧ s.pending = [] ∧ (∀ a, memGet s.mem a = 0 ∧ memTag s a = false)
  ∧ (cellOf s 0).run = 5 ∧ (cellOf s 0).stopped = false ∧ k.asid = 0
  ∧ isRoot (portC k 0x20) 0 (2 ^ 64) 0x27D 0 (50, 0, 0, true)
  ∧ isRoot (portC k 0x21) 0 (2 ^ 64) 0x017 0x60000000 (50, 0, 0, true)
  ∧ isRoot (portC k 0x22) 0x001 0xEFF 0x181 0x001 (0, 1, 0x0F00, false)
  ∧ isRoot (portC k 0x23) 0x60000000 0x0C000000 0x60D 0x60000000 (14, 0, 0x3000, false)
  ∧ isRoot k.pcc 0 (2 ^ 64) 0x017 0x60000000 (50, 0, 0, true)
  ∧ (∀ p, p < 0x20 ∨ 0x23 < p → portC k p = Cap.null) ∧ (∀ b, b ≠ 5 → bankOf (cellOf s 0) b = {})
  ∧ (∀ n, n ≠ 0 → (cellOf s n).stopped = true ∧ (∀ b, bankOf (cellOf s n) b = {}))
end

