-- ==== Sys2Proof/Laws/Memory.lean ====
section
/-! SUPPORT. Memory and tags: every operation keeps the canonical form, and what a read gives after a write. -/

namespace Sys2Proof.Machine

/-! The canonical form of the bytes. -/

theorem memWfFrom_mono {lo lo' : Option Nat} {m : List Host.Cell} (h : memWfFrom lo m = true)
    (hl : ∀ x, lo' = some x → ∃ y, lo = some y ∧ x ≤ y) : memWfFrom lo' m = true := by
  cases m with
  | nil => rfl
  | cons e m =>
    obtain ⟨a, b⟩ := e
    simp only [memWfFrom, Bool.and_eq_true] at h ⊢
    refine ⟨⟨?_, h.1.2⟩, h.2⟩
    cases lo' with
    | none => rfl
    | some x =>
      obtain ⟨y, rfl, hy⟩ := hl x rfl
      have := h.1.1
      simp only [decide_eq_true_eq] at this ⊢
      omega

theorem memPut_wfFrom {lo : Option Nat} {m : List Host.Cell} (x : Nat) (b : Byte) (h : memWfFrom lo m = true)
    (hx : ∀ l, lo = some l → l < x) : memWfFrom lo (memPut x b m) = true := by
  induction m generalizing lo with
  | nil =>
    simp only [memPut]
    split
    · rfl
    · cases lo <;> simp_all [memWfFrom]
  | cons e m ih =>
    obtain ⟨a, v⟩ := e
    simp only [memWfFrom, Bool.and_eq_true] at h
    obtain ⟨⟨h1, h2⟩, h3⟩ := h
    have hlo : ∀ l, lo = some l → l < a := by rintro l rfl; simpa using h1
    simp only [memPut]
    split
    · subst_vars
      split
      · exact memWfFrom_mono h3 (fun l hl => ⟨_, rfl, (hlo l hl).le⟩)
      · cases lo <;> simp_all [memWfFrom]
    · split
      · split
        · cases lo <;> simp_all [memWfFrom]
        · cases lo <;> simp_all [memWfFrom]
      · have := ih h3 (by rintro l ⟨rfl⟩; omega)
        cases lo <;> simp_all [memWfFrom]

/-- One byte written keeps the canonical form. -/
theorem memPut_wf {m : List Host.Cell} (x : Nat) (b : Byte) (h : Memory.wf m = true) :
    Memory.wf (memPut x b m) = true :=
  memPut_wfFrom x b h (by simp)

/-- Bytes written keep the canonical form. -/
theorem memWrite_wf {m : List Host.Cell} (a : Nat) (bs : List Byte) (h : Memory.wf m = true) :
    Memory.wf (memWrite a bs m) = true := by
  induction bs generalizing a m with
  | nil => exact h
  | cons b bs ih => exact ih (a + 1) (memPut_wf a b h)

theorem memFilter_wfFrom {lo : Option Nat} {m : List Host.Cell} (p : Host.Cell → Bool) (h : memWfFrom lo m = true) :
    memWfFrom lo (m.filter p) = true := by
  induction m generalizing lo with
  | nil => rfl
  | cons e m ih =>
    obtain ⟨a, v⟩ := e
    simp only [memWfFrom, Bool.and_eq_true] at h
    obtain ⟨⟨h1, h2⟩, h3⟩ := h
    simp only [List.filter_cons]
    split
    · simp [memWfFrom, h1, h2, ih h3]
    · refine ih (memWfFrom_mono h3 ?_)
      rintro l rfl
      exact ⟨a, rfl, by simp at h1; omega⟩

/-! The canonical form of the tags. -/

theorem tagsWfFrom_mono {lo lo' : Option Nat} {t : List Nat} (h : tagsWfFrom lo t = true)
    (hl : ∀ x, lo' = some x → ∃ y, lo = some y ∧ x ≤ y) : tagsWfFrom lo' t = true := by
  cases t with
  | nil => rfl
  | cons a t =>
    simp only [tagsWfFrom, Bool.and_eq_true] at h ⊢
    refine ⟨?_, h.2⟩
    cases lo' with
    | none => rfl
    | some x =>
      obtain ⟨y, rfl, hy⟩ := hl x rfl
      have := h.1
      simp only [decide_eq_true_eq] at this ⊢
      omega

theorem tagPut_wfFrom {lo : Option Nat} {t : List Nat} (g : Nat) (b : Bool) (h : tagsWfFrom lo t = true)
    (hg : ∀ l, lo = some l → l < g) : tagsWfFrom lo (tagPut g b t) = true := by
  induction t generalizing lo with
  | nil =>
    simp only [tagPut]
    split
    · cases lo <;> simp_all [tagsWfFrom]
    · rfl
  | cons a t ih =>
    simp only [tagsWfFrom, Bool.and_eq_true] at h
    obtain ⟨h1, h3⟩ := h
    have hlo : ∀ l, lo = some l → l < a := by rintro l rfl; simpa using h1
    simp only [tagPut]
    split
    · subst_vars
      split
      · cases lo <;> simp_all [tagsWfFrom]
      · exact tagsWfFrom_mono h3 (fun l hl => ⟨_, rfl, (hlo l hl).le⟩)
    · split
      · split
        · cases lo <;> simp_all [tagsWfFrom]
        · cases lo <;> simp_all [tagsWfFrom]
      · have := ih h3 (by rintro l ⟨rfl⟩; omega)
        cases lo <;> simp_all [tagsWfFrom]

theorem tagsFilter_wfFrom {lo : Option Nat} {t : List Nat} (p : Nat → Bool) (h : tagsWfFrom lo t = true) :
    tagsWfFrom lo (t.filter p) = true := by
  induction t generalizing lo with
  | nil => rfl
  | cons a t ih =>
    simp only [tagsWfFrom, Bool.and_eq_true] at h
    obtain ⟨h1, h3⟩ := h
    simp only [List.filter_cons]
    split
    · simp [tagsWfFrom, h1, ih h3]
    · refine ih (tagsWfFrom_mono h3 ?_)
      rintro l rfl
      exact ⟨a, rfl, by simp at h1; omega⟩

theorem tagsClear_wfFrom {lo : Option Nat} {t : List Nat} (a n : Nat) (h : tagsWfFrom lo t = true) :
    tagsWfFrom lo (tagsClear a n t) = true := by
  unfold tagsClear
  split
  · exact h
  · exact tagsFilter_wfFrom _ h

/-! The operations over both. -/

theorem memWf_iff (s : State) : s.memWf = true ↔ Memory.wf s.mem = true ∧ tagsWfFrom none s.tags = true := by
  simp [State.memWf]

/-- A data write keeps the canonical form. -/
theorem memStore_memWf {s : State} (a : Nat) (bs : List Byte) (h : s.memWf = true) : (memStore a bs s).memWf = true := by
  rw [memWf_iff] at *
  exact ⟨memWrite_wf a bs h.1, tagsClear_wfFrom a bs.length h.2⟩

/-- A capability write keeps the canonical form. -/
theorem memStoreCap_memWf {s : State} (a : Nat) (bs : List Byte) (tag : Bool) (h : s.memWf = true) :
    (memStoreCap a bs tag s).memWf = true := by
  rw [memWf_iff] at *
  exact ⟨memWrite_wf a bs h.1, tagPut_wfFrom _ tag h.2 (by simp)⟩

/-- Zeroing a range keeps the canonical form. -/
theorem memZero_memWf {s : State} (a n : Nat) (h : s.memWf = true) : (memZero a n s).memWf = true := by
  rw [memWf_iff] at *
  exact ⟨memFilter_wfFrom _ h.1, tagsClear_wfFrom a n h.2⟩

theorem reset_memWf : State.reset.memWf = true := rfl

/-! Reads after writes. -/

/-- Below the first listed address everything reads as unlisted. -/
theorem memGet_below {l : Nat} {m : List Host.Cell} (h : memWfFrom (some l) m = true) {x : Nat} (hx : x ≤ l) :
    memGet m x = memBlank := by
  induction m generalizing l with
  | nil => rfl
  | cons e m ih =>
    obtain ⟨a, v⟩ := e
    simp only [memWfFrom, Bool.and_eq_true, decide_eq_true_eq] at h
    have : a ≠ x := by omega
    simp only [memGet, this, if_false]
    exact ih h.2 (by omega)

theorem ite_swap_eq (x y : Nat) (p q : Byte) : (if x = y then p else q) = if y = x then p else q := by
  by_cases h : y = x
  · simp [h]
  · simp [h, Ne.symm h]

theorem memGet_memPut_from {lo : Option Nat} {m : List Host.Cell} (x : Nat) (b : Byte) (h : memWfFrom lo m = true) (y : Nat) :
    memGet (memPut x b m) y = if y = x then b else memGet m y := by
  induction m generalizing lo with
  | nil =>
    simp only [memPut]
    split
    · next hb => subst hb; simp [memGet]
    · simp only [memGet, ite_swap_eq x y]
  | cons e m ih =>
    obtain ⟨a, v⟩ := e
    simp only [memWfFrom, Bool.and_eq_true] at h
    have h3 := h.2
    simp only [memPut]
    split
    · next ha =>
      subst ha
      split
      · next hb =>
        subst hb
        by_cases hy : y = a
        · subst hy; simp [memGet_below h3 (Nat.le_refl y)]
        · simp [memGet, hy, Ne.symm hy]
      · by_cases hy : y = a
        · simp [memGet, hy]
        · simp [memGet, hy, Ne.symm hy]
    · next ha =>
      split
      · next hxa =>
        split
        · next hb =>
          subst hb
          by_cases hy : y = x
          · subst hy
            simp only [memGet, ha, if_false, if_true]
            exact memGet_below h3 (by omega)
          · simp [hy]
        · rw [memGet, ite_swap_eq x y]
      · simp only [memGet, ih h3]
        by_cases hy : y = x
        · subst hy; simp [ha]
        · simp [hy]

/-- The byte at an address after one byte is written. -/
theorem memGet_memPut {m : List Host.Cell} (x : Nat) (b : Byte) (h : Memory.wf m = true) (y : Nat) :
    memGet (memPut x b m) y = if y = x then b else memGet m y :=
  memGet_memPut_from x b h y

/-- The byte at an address after bytes are written. -/
theorem memGet_memWrite {m : List Host.Cell} (a : Nat) (bs : List Byte) (h : Memory.wf m = true) (y : Nat) :
    memGet (memWrite a bs m) y = if a ≤ y ∧ y < a + bs.length then bs.getD (y - a) memBlank else memGet m y := by
  induction bs generalizing a m with
  | nil =>
    have : ¬ (a ≤ y ∧ y < a + ([] : List Byte).length) := by simp
    simp only [memWrite, this, if_false]
  | cons b bs ih =>
    simp only [memWrite]
    rw [ih (a + 1) (memPut_wf a b h), memGet_memPut a b h]
    simp only [List.length_cons]
    by_cases hy : y = a
    · subst hy; simp
    · by_cases hr : a + 1 ≤ y ∧ y < a + 1 + bs.length
      · rw [if_pos hr, if_pos (by omega)]
        obtain ⟨d, rfl⟩ := Nat.exists_eq_add_of_le hr.1
        have e1 : a + 1 + d - (a + 1) = d := by omega
        have e2 : a + 1 + d - a = d + 1 := by omega
        simp [e1, e2]
      · rw [if_neg hr, if_neg hy, if_neg (by omega)]

@[simp] theorem memRead_length (m : List Host.Cell) (a n : Nat) : (memRead m a n).length = n := by
  induction n generalizing a with
  | zero => rfl
  | succ n ih => simp [memRead, ih]

theorem memRead_getD (m : List Host.Cell) (a n i : Nat) (h : i < n) (d : Byte) :
    (memRead m a n).getD i d = memGet m (a + i) := by
  induction n generalizing a i with
  | zero => omega
  | succ n ih =>
    cases i with
    | zero => simp [memRead]
    | succ i =>
      have := ih (a + 1) i (by omega)
      simp only [memRead, List.getD_cons_succ, this]
      congr 1; omega

/-- Two memories that agree on a range read alike there. -/
theorem memRead_congr {m m' : List Host.Cell} {a n : Nat} (h : ∀ i < n, memGet m (a + i) = memGet m' (a + i)) :
    memRead m a n = memRead m' a n := by
  induction n generalizing a with
  | zero => rfl
  | succ n ih =>
    simp only [memRead]
    rw [show memGet m a = memGet m' a from h 0 (by omega), ih (fun i hi => by
      have := h (i + 1) (by omega)
      rwa [show a + (i + 1) = a + 1 + i by omega] at this)]

/-- Reading back what was written. -/
theorem memRead_memWrite_same {m : List Host.Cell} (a : Nat) (bs : List Byte) (h : Memory.wf m = true) :
    memRead (memWrite a bs m) a bs.length = bs := by
  apply List.ext_getElem (by simp)
  intro i h1 h2
  have e := memRead_getD (memWrite a bs m) a bs.length i h2 memBlank
  rw [memGet_memWrite a bs h, if_pos (by omega)] at e
  have e3 : a + i - a = i := by omega
  rw [e3] at e
  simpa [List.getD_eq_getElem, h1, h2] using e

/-- A write leaves a range that it does not touch as it was. -/
theorem memRead_memWrite_apart {m : List Host.Cell} {a b n : Nat} (bs : List Byte) (h : Memory.wf m = true)
    (hd : b + n ≤ a ∨ a + bs.length ≤ b) : memRead (memWrite a bs m) b n = memRead m b n := by
  apply memRead_congr
  intro i hi
  rw [memGet_memWrite a bs h, if_neg (by omega)]

theorem mem_tagPut {lo : Option Nat} {t : List Nat} (g : Nat) (b : Bool) (h : tagsWfFrom lo t = true) (x : Nat) :
    x ∈ tagPut g b t ↔ (if x = g then b = true else x ∈ t) := by
  induction t generalizing lo with
  | nil => simp only [tagPut]; split <;> split <;> simp_all
  | cons a t ih =>
    simp only [tagsWfFrom, Bool.and_eq_true] at h
    have hb : ∀ (l : Nat) (u : List Nat), tagsWfFrom (some l) u = true → ∀ z ∈ u, l < z := by
      intro l u
      induction u generalizing l with
      | nil => simp
      | cons c u ihu =>
        intro hu z hz
        simp only [tagsWfFrom, Bool.and_eq_true, decide_eq_true_eq] at hu
        rcases List.mem_cons.1 hz with rfl | hz
        · exact hu.1
        · exact hu.1.trans (ihu c hu.2 z hz)
    have h3 := hb a t h.2
    have i2 := ih h.2
    simp only [tagPut]
    split
    · next ha =>
      subst ha
      have hn : ∀ z ∈ t, z ≠ a := fun z hz => by have := h3 z hz; omega
      by_cases hx : x = a
      · subst hx
        have : x ∉ t := fun hm => hn x hm rfl
        cases b <;> simp [this]
      · cases b <;> simp [hx]
    · next ha =>
      split
      · next hga =>
        have hn : g ∉ a :: t := fun hm => by
          rcases List.mem_cons.1 hm with rfl | hm
          · omega
          · have := h3 g hm; omega
        by_cases hx : x = g
        · subst hx; cases b <;> simp [hn]
        · cases b <;> simp [hx]
      · by_cases hx : x = g
        · subst hx; simp [i2, Ne.symm ha]
        · simp [i2, hx]

/-- The tag of an address after a capability write. -/
theorem memTag_memStoreCap {s : State} (a : Nat) (bs : List Byte) (tag : Bool) (h : s.memWf = true) (x : Nat) :
    memTag (memStoreCap a bs tag s) x = if x / 16 = a / 16 then tag else memTag s x := by
  have := mem_tagPut (a / 16) tag ((memWf_iff s).1 h).2 (x / 16)
  simp only [memTag, memStoreCap, List.contains_eq_mem]
  split
  · simp_all
  · simp_all

/-- The tag of an address after a data write: clear where a granule was touched (R77). -/
theorem memTag_memStore (a : Nat) (bs : List Byte) (s : State) (x : Nat) :
    memTag (memStore a bs s) x = (memTag s x
      && !(decide (bs ≠ []) && decide (a / 16 ≤ x / 16) && decide (x / 16 ≤ (a + bs.length - 1) / 16))) := by
  simp only [memTag, memStore, tagsClear, List.contains_eq_mem]
  cases bs with
  | nil => simp
  | cons b bs =>
    rw [if_neg (by simp), Bool.eq_iff_iff]
    simp only [decide_eq_true_eq, List.mem_filter, Bool.or_eq_true, Bool.and_eq_true, Bool.not_eq_true', Bool.and_eq_false_iff,
      decide_eq_false_iff_not]
    refine and_congr_right (fun _ => ?_)
    simp only [ne_eq, reduceCtorEq, not_false_eq_true, not_true_eq_false, false_or]
    omega

end Sys2Proof.Machine
end

