-- ==== Sys2Proof/Laws/Bank.lean ====
section
/-! SUPPORT. The retention banks (R474, R475): a bank that has been written passes its check and gives its records
back. -/

namespace Sys2Proof.Machine

@[simp] theorem leBytes_length (n v : Nat) : (leBytes n v).length = n := by
  induction n generalizing v with
  | zero => rfl
  | succ n ih => simp [leBytes, ih]

/-- A number written in `n` bytes reads back, modulo 256 to the power `n`. -/
theorem leNat_leBytes (n v : Nat) : leNat (leBytes n v) = v % 256 ^ n := by
  induction n generalizing v with
  | zero => simp [leBytes, leNat, Nat.mod_one]
  | succ n ih =>
    simp only [leBytes, leNat, ih]
    rw [BitVec.toNat_ofNat, show 256 ^ (n + 1) = 256 * 256 ^ n from Nat.pow_succ', Nat.mod_mul]

theorem slice_mid (p q r : List Byte) : slice (p ++ q ++ r) p.length q.length = q := by
  simp [slice]

theorem slice_at {l p q r : List Byte} {o n : Nat} (h : l = p ++ q ++ r) (ho : o = p.length) (hn : n = q.length) :
    slice l o n = q := by
  subst h ho hn; exact slice_mid p q r

/-- The records that a bank can hold: the fields of each fit, and all fit the payload (R474). -/
def recsFit (recs : List BankRec) : Prop :=
  (∀ r ∈ recs, r.idx < 2 ^ 16 ∧ r.sub < 256 ∧ r.val.length < 256) ∧ (recs.flatMap bankRecBytes).length ≤ 4084

/-- A payload parses to the records it was made of. -/
theorem bankParse_bytes (n : Nat) (recs : List BankRec) (hn : recs.length ≤ n)
    (h : ∀ r ∈ recs, r.idx < 2 ^ 16 ∧ r.sub < 256 ∧ r.val.length < 256) :
    bankParse n (recs.flatMap bankRecBytes) = some recs := by
  induction recs generalizing n with
  | nil => cases n <;> rfl
  | cons r recs ih =>
    cases n with
    | zero => simp at hn
    | succ n =>
      obtain ⟨h1, h2, h3⟩ := h r (by simp)
      have hl : (bankRecBytes r).length = 4 + r.val.length := by simp [bankRecBytes]; omega
      have e : (r :: recs).flatMap bankRecBytes = leBytes 2 r.idx ++ leBytes 1 r.sub ++ leBytes 1 r.val.length ++ r.val
          ++ recs.flatMap bankRecBytes := by simp [bankRecBytes]
      generalize hp : (r :: recs).flatMap bankRecBytes = p at e
      have s1 : slice p 0 2 = leBytes 2 r.idx :=
        slice_at (p := []) (r := leBytes 1 r.sub ++ leBytes 1 r.val.length ++ r.val ++ recs.flatMap bankRecBytes)
          (by rw [e]; simp) (by simp) (by simp)
      have s2 : slice p 2 1 = leBytes 1 r.sub :=
        slice_at (p := leBytes 2 r.idx) (r := leBytes 1 r.val.length ++ r.val ++ recs.flatMap bankRecBytes)
          (by rw [e]; simp) (by simp) (by simp)
      have s3 : slice p 3 1 = leBytes 1 r.val.length :=
        slice_at (p := leBytes 2 r.idx ++ leBytes 1 r.sub) (r := r.val ++ recs.flatMap bankRecBytes)
          (by rw [e]; simp) (by simp) (by simp)
      have n3 : leNat (slice p 3 1) = r.val.length := by rw [s3, leNat_leBytes]; omega
      have s4 : slice p 4 r.val.length = r.val :=
        slice_at (p := leBytes 2 r.idx ++ leBytes 1 r.sub ++ leBytes 1 r.val.length) (r := recs.flatMap bankRecBytes)
          (by rw [e]) (by simp) rfl
      have hd : p.drop (4 + r.val.length) = recs.flatMap bankRecBytes := by
        rw [← hp]; simp only [List.flatMap_cons]; rw [← hl]; simp
      have hlen : ¬ p.length < 4 + r.val.length := by
        rw [← hp]; simp only [List.flatMap_cons, List.length_append, hl]; omega
      cases hq : p with
      | nil => rw [hq] at hlen; simp at hlen
      | cons b bs =>
        rw [← hq]
        have eq : bankParse (n + 1) p = if p.length < 4 + leNat (slice p 3 1) then none
            else (bankParse n (p.drop (4 + leNat (slice p 3 1)))).map (fun l =>
              { idx := leNat (slice p 0 2), sub := leNat (slice p 2 1), val := slice p 4 (leNat (slice p 3 1)) } :: l) := by
          rw [hq]; rfl
        rw [eq, n3, if_neg hlen, hd, ih n (by simpa using hn) (fun r' hr' => h r' (by simp [hr'])), s1, s2, s4,
          leNat_leBytes, leNat_leBytes]
        have i1 : r.idx % 256 ^ 2 = r.idx := Nat.mod_eq_of_lt (by omega)
        have i2 : r.sub % 256 ^ 1 = r.sub := Nat.mod_eq_of_lt (by omega)
        rw [i1, i2]; rfl

theorem recs_length_le (recs : List BankRec) : recs.length ≤ (recs.flatMap bankRecBytes).length := by
  induction recs with
  | nil => simp
  | cons r recs ih => simp [bankRecBytes] at *; omega

/-- A bank's image passes the check of its bank and gives its generation and records. -/
theorem bankCheck_bankImage (k gen : Nat) (recs : List BankRec) (hk : k < 256) (hg : gen < 2 ^ 32) (h : recsFit recs) :
    bankCheck k (bankImage k gen recs) = some (gen, recs) := by
  obtain ⟨h1, h2⟩ := h
  generalize hp : recs.flatMap bankRecBytes = pay at h2
  have eb : bankImage k gen recs = (leBytes 4 gen ++ leBytes 1 k ++ leBytes 1 1 ++ leBytes 2 pay.length ++ pay
      ++ List.replicate (4084 - pay.length) 0) ++ leBytes 4 (crc32c (leBytes 4 gen ++ leBytes 1 k ++ leBytes 1 1
        ++ leBytes 2 pay.length ++ pay ++ List.replicate (4084 - pay.length) 0)).toNat := by
    simp only [bankImage, hp]
  generalize hB : leBytes 4 gen ++ leBytes 1 k ++ leBytes 1 1 ++ leBytes 2 pay.length ++ pay
      ++ List.replicate (4084 - pay.length) 0 = body at eb
  have hl : body.length = 0xFFC := by rw [← hB]; simp; omega
  generalize bankImage k gen recs = img at eb
  have c1 : img.take 0xFFC = body := by rw [eb, ← hl]; simp
  have c2 : slice img 0xFFC 4 = leBytes 4 (crc32c body).toNat :=
    slice_at (p := body) (r := []) (by rw [eb]; simp) hl.symm (by simp)
  have c3 : slice img 4 1 = leBytes 1 k :=
    slice_at (p := leBytes 4 gen) (r := leBytes 1 1 ++ leBytes 2 pay.length ++ pay
      ++ List.replicate (4084 - pay.length) 0 ++ leBytes 4 (crc32c body).toNat)
      (by rw [eb, ← hB]; simp only [List.append_assoc]) (by simp) (by simp)
  have c4 : slice img 5 1 = leBytes 1 1 :=
    slice_at (p := leBytes 4 gen ++ leBytes 1 k) (r := leBytes 2 pay.length ++ pay
      ++ List.replicate (4084 - pay.length) 0 ++ leBytes 4 (crc32c body).toNat)
      (by rw [eb, ← hB]; simp only [List.append_assoc]) (by simp) (by simp)
  have c5 : slice img 6 2 = leBytes 2 pay.length :=
    slice_at (p := leBytes 4 gen ++ leBytes 1 k ++ leBytes 1 1) (r := pay
      ++ List.replicate (4084 - pay.length) 0 ++ leBytes 4 (crc32c body).toNat)
      (by rw [eb, ← hB]; simp only [List.append_assoc]) (by simp) (by simp)
  have c6 : slice img 0 4 = leBytes 4 gen :=
    slice_at (p := []) (r := leBytes 1 k ++ leBytes 1 1 ++ leBytes 2 pay.length ++ pay
      ++ List.replicate (4084 - pay.length) 0 ++ leBytes 4 (crc32c body).toNat)
      (by rw [eb, ← hB]; simp only [List.append_assoc, List.nil_append]) (by simp) (by simp)
  have c7 : slice img 8 pay.length = pay :=
    slice_at (p := leBytes 4 gen ++ leBytes 1 k ++ leBytes 1 1 ++ leBytes 2 pay.length)
      (r := List.replicate (4084 - pay.length) 0 ++ leBytes 4 (crc32c body).toNat)
      (by rw [eb, ← hB]; simp only [List.append_assoc]) (by simp) rfl
  have n1 : leNat (leBytes 4 (crc32c body).toNat) = (crc32c body).toNat := by
    rw [leNat_leBytes]; exact Nat.mod_eq_of_lt (crc32c body).isLt
  have n2 : leNat (leBytes 1 k) = k := by rw [leNat_leBytes]; exact Nat.mod_eq_of_lt hk
  have n3 : leNat (leBytes 1 1) = 1 := by rfl
  have n4 : leNat (leBytes 2 pay.length) = pay.length := by rw [leNat_leBytes]; exact Nat.mod_eq_of_lt (by omega)
  have n5 : leNat (leBytes 4 gen) = gen := by rw [leNat_leBytes]; exact Nat.mod_eq_of_lt hg
  have hr : bankParse 4084 pay = some recs := by
    rw [← hp]; refine bankParse_bytes 4084 recs ?_ h1
    have := recs_length_le recs
    rw [hp] at this; omega
  unfold bankCheck
  rw [c1, c2, c3, c4, c5, c6, n1, n2, n3, n4, n5, if_pos ⟨rfl, rfl, rfl, h2⟩, c7, hr]
  rfl

theorem bankImage_length (k gen : Nat) (recs : List BankRec) (h : recsFit recs) :
    (bankImage k gen recs).length = 4096 := by
  obtain ⟨-, h2⟩ := h
  simp only [bankImage, List.length_append, leBytes_length, List.length_replicate]
  omega

/-- A bank that has been written reads back: every bank but 14, which holds the event tail. -/
theorem bankRead_bankPut {s : State} (k gen : Nat) (recs : List BankRec) (hs : s.memWf = true) (hk : k < 256) (h14 : k ≠ 14)
    (hg : gen < 2 ^ 32) (h : recsFit recs) : bankRead (bankPut k gen recs s) k = some (gen, recs) := by
  have hb : bankBytes (bankPut k gen recs s) k = bankImage k gen recs := by
    unfold bankBytes
    rw [if_neg h14, ← bankImage_length k gen recs h]
    exact memRead_memWrite_same _ _ ((memWf_iff s).1 hs).1
  unfold bankRead
  rw [hb, bankCheck_bankImage k gen recs hk hg h]

/-- The roles recorded in bank 10 are those of the anchors it was written with. -/
theorem bankAnchors_bankPut {s : State} (gen : Nat) (recs : List BankRec) (hs : s.memWf = true)
    (hg : gen < 2 ^ 32) (h : recsFit recs) : bankAnchors (bankPut 10 gen recs s) = anchorsOf recs := by
  unfold bankAnchors
  rw [bankRead_bankPut 10 gen recs hs (by decide) (by decide) hg h]; rfl

/-- A bank whose number field names another bank fails its check, and no role is recorded there. -/
theorem anchorRole_other {s : State} (cid : Nat) (h : leNat (slice (bankBytes s 10) 4 1) ≠ 10) : anchorRole s cid = 0 := by
  have hc : bankRead s 10 = none := by unfold bankRead bankCheck; rw [if_neg (fun hh => h hh.2.1)]
  unfold anchorRole bankAnchors
  rw [hc]; rfl

end Sys2Proof.Machine
end

