-- ==== Sys2Proof/Laws/Caches.lean ====
section
/-! SUPPORT. The caches (R277, R288): a line taken in, or a write that meets one, changes no memory beside the write
itself, and losing dirty lines keeps the canonical form. -/

namespace Sys2Proof.Machine

theorem dAlloc_frame (core l : Nat) (s : State) : ∃ k, dAlloc core l s = { s with caches := k } := ⟨_, rfl⟩

theorem wAlloc_frame (b l : Nat) (s : State) : ∃ k, wAlloc b l s = { s with caches := k } := by
  unfold wAlloc
  split
  · exact ⟨_, rfl⟩
  · exact ⟨_, rfl⟩

theorem lineFill_frame (core l : Nat) (s : State) : ∃ k, lineFill core l s = { s with caches := k } := by
  unfold lineFill
  split
  · exact ⟨_, rfl⟩
  · split
    · obtain ⟨k, h⟩ := wAlloc_frame (core / 16) l s
      rw [h]
      exact dAlloc_frame core l _
    · exact dAlloc_frame core l s

/-- What a load's lines leave: the caches, and nothing else. -/
theorem linesFill_frame (core : Nat) (ps : List (Nat × Nat)) (s : State) :
    ∃ k, linesFill core ps s = { s with caches := k } := by
  unfold linesFill
  generalize ps.flatMap (fun p => linesOf p.1 p.2) = ls
  induction ls generalizing s with
  | nil => exact ⟨_, rfl⟩
  | cons l ls ih =>
    obtain ⟨k, h⟩ := lineFill_frame core l s
    obtain ⟨k', h'⟩ := ih (lineFill core l s)
    exact ⟨k', by rw [List.foldl_cons, h', h]⟩

@[simp] theorem linesFill_mem (core : Nat) (ps : List (Nat × Nat)) (s : State) : (linesFill core ps s).mem = s.mem := by
  obtain ⟨k, h⟩ := linesFill_frame core ps s
  rw [h]

@[simp] theorem linesFill_tags (core : Nat) (ps : List (Nat × Nat)) (s : State) :
    (linesFill core ps s).tags = s.tags := by
  obtain ⟨k, h⟩ := linesFill_frame core ps s
  rw [h]

@[simp] theorem linesFill_regs (core : Nat) (ps : List (Nat × Nat)) (s : State) :
    (linesFill core ps s).regs = s.regs := by
  obtain ⟨k, h⟩ := linesFill_frame core ps s
  rw [h]

@[simp] theorem linesFill_cells (core : Nat) (ps : List (Nat × Nat)) (s : State) :
    (linesFill core ps s).cells = s.cells := by
  obtain ⟨k, h⟩ := linesFill_frame core ps s
  rw [h]

/-- A core's write leaves what the write at the home leaves, but for the caches. -/
theorem cachedWrite_frame (core a : Nat) (f : State → State) (s : State) :
    ∃ k, cachedWrite core a f s = { f s with caches := k } := by
  simp only [cachedWrite]
  cases (dLines s core).find? (fun c => c.line == a / 64 && !c.wt) with
  | some c => exact ⟨_, rfl⟩
  | none =>
    cases (wLines s (core / 16)).find? (fun c => c.2.line == a / 64 && !c.2.wt && decide (core < 256)) with
    | some c => exact ⟨_, rfl⟩
    | none => exact ⟨_, rfl⟩

theorem cachedWrite_memWf {core a : Nat} {f : State → State} {s : State} (h : (f s).memWf = true) :
    (cachedWrite core a f s).memWf = true := by
  obtain ⟨k, hk⟩ := cachedWrite_frame core a f s
  rw [hk]
  exact h

theorem tagsPut_wfFrom (gs : List Nat) {t : List Nat} (h : tagsWfFrom none t = true) :
    tagsWfFrom none (gs.foldl (fun t g => tagPut g true t) t) = true := by
  induction gs generalizing t with
  | nil => exact h
  | cons g gs ih => exact ih (tagPut_wfFrom g true h (by simp))

/-- A dirty line that is lost leaves the canonical form. -/
theorem lineLost_memWf {s : State} (c : CLine) (h : s.memWf = true) : (lineLost c s).memWf = true := by
  unfold lineLost
  split
  · exact h
  · have h' := memStore_memWf (c.line * 64) c.home h
    rw [memWf_iff] at h' ⊢
    exact ⟨h'.1, tagsPut_wfFrom c.tags h'.2⟩

/-- Emptying a block's caches leaves the canonical form, whether its dirty lines are written back or lost. -/
theorem blockCachesEmpty_memWf {s : State} (discard : Bool) (b : Nat) (h : s.memWf = true) :
    (blockCachesEmpty discard b s).memWf = true := by
  have hf : ∀ (ls : List CLine) (t : State), t.memWf = true → (ls.foldl (fun s c => lineLost c s) t).memWf = true := by
    intro ls
    induction ls with
    | nil => exact fun _ ht => ht
    | cons c ls ih => exact fun t ht => ih _ (lineLost_memWf c ht)
  unfold blockCachesEmpty
  cases discard
  · exact h
  · exact hf _ s h

end Sys2Proof.Machine
end

