-- ==== Sys2Proof/Laws/Tables.lean ====
section
/-! SUPPORT. Tables, cells and banks: what a read gives after a write. -/

namespace Sys2Proof.Machine

theorem tblSet_tblSet {α : Type} (k : Nat) (v w : α) (t : Tbl α) : tblSet k v (tblSet k w t) = tblSet k v t := by
  induction t with
  | nil => simp [tblSet]
  | cons e t ih =>
    obtain ⟨j, u⟩ := e
    simp only [tblSet]
    split
    · simp [tblSet]
    · split
      · simp [tblSet]
      · simp_all [tblSet]

theorem tblFind_tblSet_same {α : Type} (k : Nat) (v : α) (t : Tbl α) : tblFind (tblSet k v t) k = some v := by
  induction t with
  | nil => simp [tblSet, tblFind]
  | cons e t ih =>
    obtain ⟨j, u⟩ := e
    simp only [tblSet]
    split
    · simp [tblFind]
    · split
      · simp [tblFind]
      · simp_all [tblFind]

theorem tblFind_tblSet_other {α : Type} {j k : Nat} (h : j ≠ k) (v : α) (t : Tbl α) :
    tblFind (tblSet k v t) j = tblFind t j := by
  induction t with
  | nil => simp [tblSet, tblFind]; omega
  | cons e t ih =>
    obtain ⟨i, u⟩ := e
    simp only [tblSet]
    split
    · subst_vars; simp [tblFind]; split <;> simp_all
    · split
      · simp [tblFind]; intro; omega
      · simp_all [tblFind]

@[simp] theorem tblGet_tblSet_same {α : Type} (d : α) (k : Nat) (v : α) (t : Tbl α) : tblGet d (tblSet k v t) k = v := by
  simp [tblGet, tblFind_tblSet_same]

theorem tblGet_tblSet_other {α : Type} {j k : Nat} (h : j ≠ k) (d v : α) (t : Tbl α) :
    tblGet d (tblSet k v t) j = tblGet d t j := by
  simp [tblGet, tblFind_tblSet_other h]

@[simp] theorem cellOf_setCell (n : Nat) (c : Cell) (s : State) : cellOf (setCell n c s) n = c := by
  simp [cellOf, setCell]

@[simp] theorem setCell_setCell (n : Nat) (c d : Cell) (s : State) : setCell n c (setCell n d s) = setCell n c s := by
  simp [setCell, tblSet_tblSet]

@[simp] theorem modCell_setCell (n : Nat) (f : Cell → Cell) (c : Cell) (s : State) :
    modCell n f (setCell n c s) = setCell n (f c) s := by
  simp [modCell]

@[simp] theorem bankOf_setBank (b : Nat) (k : Bank) (c : Cell) : bankOf (setBank b k c) b = k := by
  simp [bankOf, setBank]

@[simp] theorem setBank_setBank (b : Nat) (k l : Bank) (c : Cell) : setBank b k (setBank b l c) = setBank b k c := by
  simp [setBank, tblSet_tblSet]

end Sys2Proof.Machine
end

