-- ==== Sys2Proof/Laws/Issue.lean ====
section
/-! SUPPORT. The issue of a command's bundle on a core that is ready for it. -/

namespace Sys2Proof.Machine

/-- A core that stays at its level has met no fault of its thread. -/
theorem noteFault_run {core : Nat} {s t : State} (h : (cellOf t core).run = (cellOf s core).run) :
    noteFault core s t = t := by
  have hf : faulted core s t = none := by
    simp only [faulted, h]
    rw [if_neg (by omega)]
  simp [noteFault, hf]

theorem flyRetire_nil {c : Cell} (n : Nat) (h : c.fly = []) : flyRetire n c = c := by
  cases c; simp_all [flyRetire]

theorem npRetire_idle {c : Cell} (n : Nat) (h : c.div.cur = none) (h' : c.ph.cur = none) : npRetire n c = c := by
  simp [npRetire, npRun, h, h']

theorem startCycle_quiet {c : Cell} (h : Quiet c) : startCycle c = c := by
  obtain ⟨h1, h2, h3, h4⟩ := h
  have e : (if c.now = 0 then c else npRetire (c.now - 1) (flyRetire (c.now - 1) c)) = c := by
    split
    · rfl
    · rw [flyRetire_nil _ h1, npRetire_idle _ h2 h3]
  simp only [startCycle]
  rw [e, h4]
  cases c; simp_all [loadsRetire]

theorem walkPass_calm {core : Nat} {s : State} (h : (cellOf s core).walked = false) : walkPass core s = s := by
  simp [walkPass, h]

theorem walkPass_setCell {core : Nat} {c : Cell} {s : State} (h : c.walked = false) :
    walkPass core (setCell core c s) = setCell core c s := by
  simp [walkPass, h]

theorem faultPass_undef {core : Nat} {a : W} {u : Undef} {s : State} (h : (cellOf s core).walked = false) :
    faultPass core (undefFlt a u) s = s := by
  have hc : (undefFlt a u).code ≠ causeGatedeny := by
    simp only [undefFlt, causeGatedeny]; decide
  rw [faultPass, if_neg hc, walkPass_calm h]

/-- The issue of a bundle whose one executed move is the command's own. -/
theorem issueBundle_ready {m : Iss} {dst : BitVec 10} {s : State} (h : Ready m dst s) :
    let k0 := issueBank m s
    let mv := ownMove m dst s
    let x := issueCtx m dst s
    issueBundle m.core (issueRet m) (issSlots m dst).1 (issSlots m dst).2 s =
      (match worstUndef (moveUndef (isHub m.core) x mv) with
        | some u => raiseSync m.core (undefFlt k0.pcc.addr u) (issueStart m s) m.vret
        | none =>
          match checkAll (isHub m.core) x [mv] (issueStart m s) with
          | (s2, some f) => if (cellOf s2 m.core).heldUp then s else raiseSync m.core f (faultPass m.core f s2) m.vret
          | (s2, none) =>
            if hasRoom (cellOf s2 m.core) (roomNeed (isHub m.core) x [mv]) then
              executeBundle (isHub m.core) x k0 (issSlots m dst).1 (issSlots m dst).2 [mv] m.vret s2
            else modCell m.core (fun c => { c with stall := .room (roomNeed (isHub m.core) x [mv]),
                                                   stallPc := some k0.pcc.addr, issueT := s.time.dur }) s) := by
  obtain ⟨h1, hr, hh, hw, hk, hq, h2, h3, h4, h5, h6⟩ := h
  have hs : modCell m.core (fun c => { pointWant (startCycle c) with issueT := s.time.dur, yielded := none }) s = issueStart m s := by
    simp only [modCell, startCycle_quiet h3, hq]; rfl
  have hc : cellOf (issueStart m s) m.core = { cellOf s m.core with issueT := s.time.dur, yielded := none } := by
    simp [issueStart]
  have hA : ∀ a b, activeMoves (isHub m.core) { cellOf s m.core with issueT := s.time.dur, yielded := none } a b
      = activeMoves (isHub m.core) (cellOf s m.core) a b := fun _ _ => rfl
  have hR : runBank { cellOf s m.core with issueT := s.time.dur, yielded := none } = runBank (cellOf s m.core) := rfl
  have hL : levelOf { cellOf s m.core with issueT := s.time.dur, yielded := none } = levelOf (cellOf s m.core) := rfl
  have hb : bundleCheck m.core (issueRet m) (issSlots m dst).1 (issSlots m dst).2 (issueStart m s) =
      (match worstUndef (moveUndef (isHub m.core) (issueCtx m dst s) (ownMove m dst s)) with
        | some u => (issueStart m s, .error (undefFlt (issueBank m s).pcc.addr u))
        | none =>
          match checkAll (isHub m.core) (issueCtx m dst s) [ownMove m dst s] (issueStart m s) with
          | (s2, some f) => (s2, .error f)
          | (s2, none) => (s2, .ok (issueCtx m dst s, [ownMove m dst s]))) := by
    unfold bundleCheck
    simp only [hc, hR, hL, hA, h4, h5, h6, List.nil_append, List.flatMap_cons, List.flatMap_nil, List.append_nil]
    rfl
  have hp : (issueRet m).ret ≠ Ret.parity := hr
  simp only
  unfold issueBundle
  simp only [h1, h2, hh, Bool.not_true, Bool.or_self, Bool.false_eq_true, if_false, if_neg hp, hs, hb, hc, hR]
  cases worstUndef (moveUndef (isHub m.core) (issueCtx m dst s) (ownMove m dst s)) with
  | some u =>
    have hf : (cellOf (issueStart m s) m.core).heldUp = false := by rw [hc]; exact hw
    have hv : (cellOf (issueStart m s) m.core).walked = false := by rw [hc]; exact hk
    simp only [hf, Bool.false_eq_true, if_false]
    rw [faultPass_undef hv]; rfl
  | none =>
    simp only
    rcases checkAll (isHub m.core) (issueCtx m dst s) [ownMove m dst s] (issueStart m s) with ⟨s2, _ | f⟩ <;> rfl

theorem mayIssue_runs {s : State} {n : Nat} (h : mayIssue s n = true) :
    ((cellOf s n).waiting || (cellOf s n).stopped || !hasContext (cellOf s n)) = false := by
  simp [mayIssue, canIssue] at h
  simp [h]

/-- A single trigger move carried out: one that starts no block operation and moves no flow. -/
theorem executeBundle_trigger {hub : Bool} {x : Ctx} {k0 : Bank} {a b : Slot} {mv : Move} {t : Trig} {v : Ret} {s : State}
    (ht : moveTrig hub mv = some t) (hb : isBlk hub mv = false) (hm : movesAway hub mv = false) :
    executeBundle hub x k0 a b [mv] v s =
      walkPass x.core (finishBundle hub x k0 a b [mv] (lateWrites hub x [mv]
        (trigDo x mv t { undoOf x.b (cellOf s x.core) with wrote := moveGroups hub [mv] }
          (modCell x.core (passCycles 1) s)))) := by
  have hreq : isMem hub mv = false ∨ isReq hub mv = false := by
    simp only [isMem, isReq, ht]
    cases trigUnit t <;> decide
  rcases hreq with h | h <;>
    simp [executeBundle, hb, h, hm, trigAll, ht, awayMoves]

theorem issue_trigger {m : Iss} {dst : BitVec 10} {s : State} {t : Trig} (h : Ready m dst s)
    (ht : moveTrig (isHub m.core) (ownMove m dst s) = some t)
    (hu : moveUndef (isHub m.core) (issueCtx m dst s) (ownMove m dst s) = [])
    (hc : trigCheck (issueCtx m dst s) (ownMove m dst s) t (issueStart m s) = (issueStart m s, none))
    (hn : hasRoom (cellOf s m.core) (roomNeed (isHub m.core) (issueCtx m dst s) [ownMove m dst s]) = true)
    (hb : isBlk (isHub m.core) (ownMove m dst s) = false)
    (hm : movesAway (isHub m.core) (ownMove m dst s) = false) :
    issueBundle m.core (issueRet m) (issSlots m dst).1 (issSlots m dst).2 s =
      walkPass m.core (finishBundle (isHub m.core) (issueCtx m dst s) (issueBank m s) (issSlots m dst).1 (issSlots m dst).2
        [ownMove m dst s]
        (lateWrites (isHub m.core) (issueCtx m dst s) [ownMove m dst s]
          (trigDo (issueCtx m dst s) (ownMove m dst s) t (issueUndo m dst s)
            (setCell m.core (issueCell m s) s)))) := by
  have e := issueBundle_ready h
  simp only at e
  rw [e]
  have hr : hasRoom (cellOf (issueStart m s) m.core) (roomNeed (isHub m.core) (issueCtx m dst s) [ownMove m dst s]) = true := by
    simpa [issueStart, hasRoom] using hn
  simp only [hu, worstUndef, minBy, checkAll, ht, hc, hr, if_true, executeBundle_trigger ht hb hm]
  have hcell : modCell (issueCtx m dst s).core (passCycles 1) (issueStart m s) = setCell m.core (issueCell m s) s := by
    simp only [issueStart, issueCtx, modCell_setCell]; rfl
  have hund : { undoOf (issueCtx m dst s).b (cellOf (issueStart m s) (issueCtx m dst s).core) with
        wrote := moveGroups (isHub m.core) [ownMove m dst s] } = issueUndo m dst s := by
    simp [issueStart, issueCtx, issueUndo, undoOf, bankOf]
  rw [hcell, hund]; rfl

theorem bundleRow_cell {m : Iss} {dst : BitVec 10} {s : State} {t : Trig} {c' : Cell} (h : Ready m dst s)
    (ht : moveTrig (isHub m.core) (ownMove m dst s) = some t)
    (hu : moveUndef (isHub m.core) (issueCtx m dst s) (ownMove m dst s) = [])
    (hc : trigCheck (issueCtx m dst s) (ownMove m dst s) t (issueStart m s) = (issueStart m s, none))
    (hn : hasRoom (cellOf s m.core) (roomNeed (isHub m.core) (issueCtx m dst s) [ownMove m dst s]) = true)
    (hb : isBlk (isHub m.core) (ownMove m dst s) = false)
    (hm : movesAway (isHub m.core) (ownMove m dst s) = false)
    (hg : trigDo (issueCtx m dst s) (ownMove m dst s) t (issueUndo m dst s)
      (setCell m.core (issueCell m s) s) = setCell m.core c' s)
    (hf : flyRetire (cellOf s m.core).now c' = c') (hp : npRetire (cellOf s m.core).now c' = c')
    (hw : c'.walked = false) (hy : c'.yielded = none) (hrun : c'.run = (cellOf s m.core).run) :
    bundleRow dst m s = .next (setCell m.core (endsBundle m dst s c') s) := by
  have hpl : ∀ k, plainMoves (isHub m.core) [ownMove m dst s] k = k := by
    intro k; simp [plainMoves, ht]
  have e : issueBundle m.core (issueRet m) (issSlots m dst).1 (issSlots m dst).2 s
      = setCell m.core (endsBundle m dst s c') s := by
    rw [issue_trigger h ht hu hc hn hb hm, hg]
    have hcc : (issueCtx m dst s).core = m.core := rfl
    have hnn : (issueCtx m dst s).n = (cellOf s m.core).now := rfl
    have hbb : (issueCtx m dst s).b = (cellOf s m.core).run := rfl
    simp only [lateWrites, finishBundle, hcc, hnn, modCell_setCell, hf, hp, hpl, List.any_cons, hm, List.any_nil,
      Bool.or_self, Bool.false_eq_true, if_false, Bool.or_false, bankOf_setBank, setBank_setBank]
    rw [walkPass_setCell (by exact hw)]
    simp only [endsBundle, hbb]
    rfl
  have hy' : (endsBundle m dst s c').yielded = none := hy
  have e' : bundleRow dst m s = .next (afterIssue m.core s (issueBundle m.core (issueRet m) (issSlots m dst).1 (issSlots m dst).2 s)) := rfl
  have hr' : (endsBundle m dst s c').run = (cellOf s m.core).run := hrun
  rw [e', e]
  simp only [afterIssue, cellOf_setCell, hy']
  rw [noteFault_run (by rw [cellOf_setCell]; exact hr')]

/-- Of the running bank, the passing of cycles changes the cycle count, and with it the group of the status. -/
theorem passCycles_runBank (n : Nat) (c : Cell) : runBank (passCycles n c) =
    if c.waiting || c.stopped || !hasContext c then runBank c
    else markDirty 7 { runBank c with cyc := (runBank c).cyc + n } := by
  have key : ∀ c : Cell, runBank (match c.cur with
    | some t => if c.run ≤ 4 then
        setSlot t { slotOf c t with runcyc := (slotOf c t).runcyc + n, used := (slotOf c t).used + n } c else c
    | none => c) = runBank c := by
    intro c
    cases c.cur with
    | none => rfl
    | some t => simp only; split <;> rfl
  unfold passCycles
  split
  · exact key _
  · refine (key _).trans ?_
    simp [runBank, modRun, setBank, bankOf]

/-- The passing of cycles changes the running bank, a slot's counts, and the cycle. -/
theorem passCycles_frame (n : Nat) (c : Cell) :
    ∃ b sl, passCycles n c = { c with banks := b, slots := sl, now := c.now + n } := by
  have key : ∀ (c : Cell) (o : Option Nat), ∃ sl, (match o with
    | some t => if c.run ≤ 4 then
        setSlot t { slotOf c t with runcyc := (slotOf c t).runcyc + n, used := (slotOf c t).used + n } c else c
    | none => c) = { c with slots := sl } := by
    intro c o
    cases o with
    | none => exact ⟨c.slots, rfl⟩
    | some t => simp only; split; exacts [⟨_, rfl⟩, ⟨c.slots, rfl⟩]
  unfold passCycles
  split
  · obtain ⟨sl, h⟩ := key c c.cur
    exact ⟨c.banks, sl, congrArg (fun d : Cell => { d with now := d.now + n }) h⟩
  · obtain ⟨sl, h⟩ := key (modRun (fun b => markDirty 7 { b with cyc := b.cyc + n }) c) c.cur
    exact ⟨_, sl, congrArg (fun d : Cell => { d with now := d.now + n }) h⟩

theorem issueCell_frame (m : Iss) (s : State) :
    ∃ b sl, issueCell m s = { cellOf s m.core with banks := b, slots := sl, now := (cellOf s m.core).now + 1, issueT := s.time.dur, yielded := none } := by
  obtain ⟨b, sl, h⟩ := passCycles_frame 1 { cellOf s m.core with issueT := s.time.dur, yielded := none }
  exact ⟨b, sl, h⟩

@[simp] theorem issueCell_fly (m : Iss) (s : State) : (issueCell m s).fly = (cellOf s m.core).fly := by
  obtain ⟨b, sl, h⟩ := issueCell_frame m s; rw [h]

@[simp] theorem issueCell_div (m : Iss) (s : State) : (issueCell m s).div = (cellOf s m.core).div := by
  obtain ⟨b, sl, h⟩ := issueCell_frame m s; rw [h]

@[simp] theorem issueCell_ph (m : Iss) (s : State) : (issueCell m s).ph = (cellOf s m.core).ph := by
  obtain ⟨b, sl, h⟩ := issueCell_frame m s; rw [h]

@[simp] theorem issueCell_loads (m : Iss) (s : State) : (issueCell m s).loads = (cellOf s m.core).loads := by
  obtain ⟨b, sl, h⟩ := issueCell_frame m s; rw [h]

@[simp] theorem issueCell_run (m : Iss) (s : State) : (issueCell m s).run = (cellOf s m.core).run := by
  obtain ⟨b, sl, h⟩ := issueCell_frame m s; rw [h]

@[simp] theorem issueCell_stall (m : Iss) (s : State) : (issueCell m s).stall = (cellOf s m.core).stall := by
  obtain ⟨b, sl, h⟩ := issueCell_frame m s; rw [h]

@[simp] theorem issueCell_sb (m : Iss) (s : State) : (issueCell m s).sb = (cellOf s m.core).sb := by
  obtain ⟨b, sl, h⟩ := issueCell_frame m s; rw [h]

@[simp] theorem issueCell_yielded (m : Iss) (s : State) : (issueCell m s).yielded = none := by
  obtain ⟨b, sl, h⟩ := issueCell_frame m s; rw [h]

@[simp] theorem issueCell_now (m : Iss) (s : State) : (issueCell m s).now = (cellOf s m.core).now + 1 := by
  obtain ⟨b, sl, h⟩ := issueCell_frame m s; rw [h]

/-- The running bank in a bundle's cycle, its count and the marks of its groups apart. -/
theorem issueCell_bank (m : Iss) (s : State) :
    ∃ n d, bankOf (issueCell m s) (cellOf s m.core).run = { issueBank m s with cyc := n, dirty := d } := by
  have h := passCycles_runBank 1 { cellOf s m.core with issueT := s.time.dur, yielded := none }
  have e : runBank (issueCell m s) = bankOf (issueCell m s) (cellOf s m.core).run := by
    rw [runBank, issueCell_run]
  have h' := e.symm.trans h
  rw [h']
  split
  · exact ⟨_, _, rfl⟩
  · exact ⟨_, _, rfl⟩

/-- A trigger's operands are the bank's own when the bundle has no other move. -/
theorem issueCtx_k {m : Iss} {dst : BitVec 10} {s : State} {t : Trig}
    (h : moveTrig (isHub m.core) (ownMove m dst s) = some t) : (issueCtx m dst s).k = issueBank m s := by
  simp only [issueCtx, operandView, List.foldl_cons, List.foldl_nil]
  simp only [moveTrig] at h
  split at h <;> simp_all

/-- The trigger of a command's own move. -/
theorem own_trig {m : Iss} {dst : BitVec 10} {s : State} {t : Trig}
    (h : portKind (isHub m.core) dst.toNat = .trig t) : moveTrig (isHub m.core) (ownMove m dst s) = some t := by
  simp [moveTrig, ownMove, h]

end Sys2Proof.Machine
end

