-- ==== Sys2Proof/Laws/State.lean ====
section
/-! SUPPORT. What an update of one part of the state leaves: one lemma per update and field, each true by unfolding. -/

namespace Sys2Proof.Machine

/-! setReg -/

@[simp] theorem setReg_pending (a : Nat) (v : W) (s : State) : (setReg a v s).pending = s.pending := rfl
@[simp] theorem setReg_fresh (a : Nat) (v : W) (s : State) : (setReg a v s).fresh = s.fresh := rfl
@[simp] theorem setReg_cells (a : Nat) (v : W) (s : State) : (setReg a v s).cells = s.cells := rfl
@[simp] theorem setReg_mem (a : Nat) (v : W) (s : State) : (setReg a v s).mem = s.mem := rfl
@[simp] theorem setReg_tags (a : Nat) (v : W) (s : State) : (setReg a v s).tags = s.tags := rfl
@[simp] theorem setReg_caches (a : Nat) (v : W) (s : State) : (setReg a v s).caches = s.caches := rfl
@[simp] theorem setReg_time (a : Nat) (v : W) (s : State) : (setReg a v s).time = s.time := rfl
@[simp] theorem setReg_v128 (a : Nat) (v : W) (s : State) : (setReg a v s).v128 = s.v128 := rfl
@[simp] theorem setReg_striped (a : Nat) (v : W) (s : State) : (setReg a v s).striped = s.striped := rfl
@[simp] theorem setReg_fenced (a : Nat) (v : W) (s : State) : (setReg a v s).fenced = s.fenced := rfl
@[simp] theorem setReg_offline (a : Nat) (v : W) (s : State) : (setReg a v s).offline = s.offline := rfl
@[simp] theorem setReg_gatePend (a : Nat) (v : W) (s : State) : (setReg a v s).gatePend = s.gatePend := rfl
@[simp] theorem setReg_posts (a : Nat) (v : W) (s : State) : (setReg a v s).posts = s.posts := rfl
@[simp] theorem setReg_qman (a : Nat) (v : W) (s : State) : (setReg a v s).qman = s.qman := rfl
@[simp] theorem setReg_qcache (a : Nat) (v : W) (s : State) : (setReg a v s).qcache = s.qcache := rfl
@[simp] theorem setReg_qwait (a : Nat) (v : W) (s : State) : (setReg a v s).qwait = s.qwait := rfl
@[simp] theorem setReg_qReady (a : Nat) (v : W) (s : State) : (setReg a v s).qReady = s.qReady := rfl
@[simp] theorem setReg_qbaseSet (a : Nat) (v : W) (s : State) : (setReg a v s).qbaseSet = s.qbaseSet := rfl
@[simp] theorem setReg_links (a : Nat) (v : W) (s : State) : (setReg a v s).links = s.links := rfl
@[simp] theorem setReg_subs (a : Nat) (v : W) (s : State) : (setReg a v s).subs = s.subs := rfl
@[simp] theorem setReg_grids (a : Nat) (v : W) (s : State) : (setReg a v s).grids = s.grids := rfl
@[simp] theorem setReg_dups (a : Nat) (v : W) (s : State) : (setReg a v s).dups = s.dups := rfl
@[simp] theorem setReg_busLost (a : Nat) (v : W) (s : State) : (setReg a v s).busLost = s.busLost := rfl
@[simp] theorem setReg_qmet (a : Nat) (v : W) (s : State) : (setReg a v s).qmet = s.qmet := rfl
@[simp] theorem setReg_waits (a : Nat) (v : W) (s : State) : (setReg a v s).waits = s.waits := rfl
@[simp] theorem setReg_supvAt (a : Nat) (v : W) (s : State) : (setReg a v s).supvAt = s.supvAt := rfl
@[simp] theorem setReg_trip (a : Nat) (v : W) (s : State) : (setReg a v s).trip = s.trip := rfl
@[simp] theorem setReg_pairSeq (a : Nat) (v : W) (s : State) : (setReg a v s).pairSeq = s.pairSeq := rfl
@[simp] theorem setReg_gtimer (a : Nat) (v : W) (s : State) : (setReg a v s).gtimer = s.gtimer := rfl
@[simp] theorem setReg_gocbTail (a : Nat) (v : W) (s : State) : (setReg a v s).gocbTail = s.gocbTail := rfl
@[simp] theorem setReg_bins (a : Nat) (v : W) (s : State) : (setReg a v s).bins = s.bins := rfl
@[simp] theorem setReg_binSeq (a : Nat) (v : W) (s : State) : (setReg a v s).binSeq = s.binSeq := rfl
@[simp] theorem setReg_irig (a : Nat) (v : W) (s : State) : (setReg a v s).irig = s.irig := rfl
@[simp] theorem setReg_pps (a : Nat) (v : W) (s : State) : (setReg a v s).pps = s.pps := rfl
@[simp] theorem setReg_ptp (a : Nat) (v : W) (s : State) : (setReg a v s).ptp = s.ptp := rfl
@[simp] theorem setReg_outs (a : Nat) (v : W) (s : State) : (setReg a v s).outs = s.outs := rfl
@[simp] theorem setReg_blks (a : Nat) (v : W) (s : State) : (setReg a v s).blks = s.blks := rfl
@[simp] theorem setReg_vin (a : Nat) (v : W) (s : State) : (setReg a v s).vin = s.vin := rfl
@[simp] theorem setReg_tx (a : Nat) (v : W) (s : State) : (setReg a v s).tx = s.tx := rfl
@[simp] theorem setReg_dma (a : Nat) (v : W) (s : State) : (setReg a v s).dma = s.dma := rfl
@[simp] theorem setReg_dev (a : Nat) (v : W) (s : State) : (setReg a v s).dev = s.dev := rfl
@[simp] theorem setReg_hubLost (a : Nat) (v : W) (s : State) : (setReg a v s).hubLost = s.hubLost := rfl
@[simp] theorem setReg_fatal (a : Nat) (v : W) (s : State) : (setReg a v s).fatal = s.fatal := rfl
@[simp] theorem setReg_log (a : Nat) (v : W) (s : State) : (setReg a v s).log = s.log := rfl
@[simp] theorem setReg_tail (a : Nat) (v : W) (s : State) : (setReg a v s).tail = s.tail := rfl
@[simp] theorem setReg_tailGen (a : Nat) (v : W) (s : State) : (setReg a v s).tailGen = s.tailGen := rfl
@[simp] theorem setReg_tailPatch (a : Nat) (v : W) (s : State) : (setReg a v s).tailPatch = s.tailPatch := rfl
@[simp] theorem setReg_logNext (a : Nat) (v : W) (s : State) : (setReg a v s).logNext = s.logNext := rfl
@[simp] theorem setReg_logLost (a : Nat) (v : W) (s : State) : (setReg a v s).logLost = s.logLost := rfl
@[simp] theorem setReg_objs (a : Nat) (v : W) (s : State) : (setReg a v s).objs = s.objs := rfl
@[simp] theorem setReg_mon (a : Nat) (v : W) (s : State) : (setReg a v s).mon = s.mon := rfl
@[simp] theorem setReg_twin (a : Nat) (v : W) (s : State) : (setReg a v s).twin = s.twin := rfl
@[simp] theorem setReg_chip (a : Nat) (v : W) (s : State) : (setReg a v s).chip = s.chip := rfl
@[simp] theorem setReg_sec (a : Nat) (v : W) (s : State) : (setReg a v s).sec = s.sec := rfl
@[simp] theorem setReg_sha (a : Nat) (v : W) (s : State) : (setReg a v s).sha = s.sha := rfl
@[simp] theorem setReg_dict (a : Nat) (v : W) (s : State) : (setReg a v s).dict = s.dict := rfl
@[simp] theorem setReg_dl (a : Nat) (v : W) (s : State) : (setReg a v s).dl = s.dl := rfl
@[simp] theorem setReg_hw (a : Nat) (v : W) (s : State) : (setReg a v s).hw = s.hw := rfl

/-! setRegF -/

@[simp] theorem setRegF_pending (a hi lo v : Nat) (s : State) : (setRegF a hi lo v s).pending = s.pending := rfl
@[simp] theorem setRegF_fresh (a hi lo v : Nat) (s : State) : (setRegF a hi lo v s).fresh = s.fresh := rfl
@[simp] theorem setRegF_cells (a hi lo v : Nat) (s : State) : (setRegF a hi lo v s).cells = s.cells := rfl
@[simp] theorem setRegF_mem (a hi lo v : Nat) (s : State) : (setRegF a hi lo v s).mem = s.mem := rfl
@[simp] theorem setRegF_tags (a hi lo v : Nat) (s : State) : (setRegF a hi lo v s).tags = s.tags := rfl
@[simp] theorem setRegF_caches (a hi lo v : Nat) (s : State) : (setRegF a hi lo v s).caches = s.caches := rfl
@[simp] theorem setRegF_time (a hi lo v : Nat) (s : State) : (setRegF a hi lo v s).time = s.time := rfl
@[simp] theorem setRegF_v128 (a hi lo v : Nat) (s : State) : (setRegF a hi lo v s).v128 = s.v128 := rfl
@[simp] theorem setRegF_striped (a hi lo v : Nat) (s : State) : (setRegF a hi lo v s).striped = s.striped := rfl
@[simp] theorem setRegF_fenced (a hi lo v : Nat) (s : State) : (setRegF a hi lo v s).fenced = s.fenced := rfl
@[simp] theorem setRegF_offline (a hi lo v : Nat) (s : State) : (setRegF a hi lo v s).offline = s.offline := rfl
@[simp] theorem setRegF_gatePend (a hi lo v : Nat) (s : State) : (setRegF a hi lo v s).gatePend = s.gatePend := rfl
@[simp] theorem setRegF_posts (a hi lo v : Nat) (s : State) : (setRegF a hi lo v s).posts = s.posts := rfl
@[simp] theorem setRegF_qman (a hi lo v : Nat) (s : State) : (setRegF a hi lo v s).qman = s.qman := rfl
@[simp] theorem setRegF_qcache (a hi lo v : Nat) (s : State) : (setRegF a hi lo v s).qcache = s.qcache := rfl
@[simp] theorem setRegF_qwait (a hi lo v : Nat) (s : State) : (setRegF a hi lo v s).qwait = s.qwait := rfl
@[simp] theorem setRegF_qReady (a hi lo v : Nat) (s : State) : (setRegF a hi lo v s).qReady = s.qReady := rfl
@[simp] theorem setRegF_qbaseSet (a hi lo v : Nat) (s : State) : (setRegF a hi lo v s).qbaseSet = s.qbaseSet := rfl
@[simp] theorem setRegF_links (a hi lo v : Nat) (s : State) : (setRegF a hi lo v s).links = s.links := rfl
@[simp] theorem setRegF_subs (a hi lo v : Nat) (s : State) : (setRegF a hi lo v s).subs = s.subs := rfl
@[simp] theorem setRegF_grids (a hi lo v : Nat) (s : State) : (setRegF a hi lo v s).grids = s.grids := rfl
@[simp] theorem setRegF_dups (a hi lo v : Nat) (s : State) : (setRegF a hi lo v s).dups = s.dups := rfl
@[simp] theorem setRegF_busLost (a hi lo v : Nat) (s : State) : (setRegF a hi lo v s).busLost = s.busLost := rfl
@[simp] theorem setRegF_qmet (a hi lo v : Nat) (s : State) : (setRegF a hi lo v s).qmet = s.qmet := rfl
@[simp] theorem setRegF_waits (a hi lo v : Nat) (s : State) : (setRegF a hi lo v s).waits = s.waits := rfl
@[simp] theorem setRegF_supvAt (a hi lo v : Nat) (s : State) : (setRegF a hi lo v s).supvAt = s.supvAt := rfl
@[simp] theorem setRegF_trip (a hi lo v : Nat) (s : State) : (setRegF a hi lo v s).trip = s.trip := rfl
@[simp] theorem setRegF_pairSeq (a hi lo v : Nat) (s : State) : (setRegF a hi lo v s).pairSeq = s.pairSeq := rfl
@[simp] theorem setRegF_gtimer (a hi lo v : Nat) (s : State) : (setRegF a hi lo v s).gtimer = s.gtimer := rfl
@[simp] theorem setRegF_gocbTail (a hi lo v : Nat) (s : State) : (setRegF a hi lo v s).gocbTail = s.gocbTail := rfl
@[simp] theorem setRegF_bins (a hi lo v : Nat) (s : State) : (setRegF a hi lo v s).bins = s.bins := rfl
@[simp] theorem setRegF_binSeq (a hi lo v : Nat) (s : State) : (setRegF a hi lo v s).binSeq = s.binSeq := rfl
@[simp] theorem setRegF_irig (a hi lo v : Nat) (s : State) : (setRegF a hi lo v s).irig = s.irig := rfl
@[simp] theorem setRegF_pps (a hi lo v : Nat) (s : State) : (setRegF a hi lo v s).pps = s.pps := rfl
@[simp] theorem setRegF_ptp (a hi lo v : Nat) (s : State) : (setRegF a hi lo v s).ptp = s.ptp := rfl
@[simp] theorem setRegF_outs (a hi lo v : Nat) (s : State) : (setRegF a hi lo v s).outs = s.outs := rfl
@[simp] theorem setRegF_blks (a hi lo v : Nat) (s : State) : (setRegF a hi lo v s).blks = s.blks := rfl
@[simp] theorem setRegF_vin (a hi lo v : Nat) (s : State) : (setRegF a hi lo v s).vin = s.vin := rfl
@[simp] theorem setRegF_tx (a hi lo v : Nat) (s : State) : (setRegF a hi lo v s).tx = s.tx := rfl
@[simp] theorem setRegF_dma (a hi lo v : Nat) (s : State) : (setRegF a hi lo v s).dma = s.dma := rfl
@[simp] theorem setRegF_dev (a hi lo v : Nat) (s : State) : (setRegF a hi lo v s).dev = s.dev := rfl
@[simp] theorem setRegF_hubLost (a hi lo v : Nat) (s : State) : (setRegF a hi lo v s).hubLost = s.hubLost := rfl
@[simp] theorem setRegF_fatal (a hi lo v : Nat) (s : State) : (setRegF a hi lo v s).fatal = s.fatal := rfl
@[simp] theorem setRegF_log (a hi lo v : Nat) (s : State) : (setRegF a hi lo v s).log = s.log := rfl
@[simp] theorem setRegF_tail (a hi lo v : Nat) (s : State) : (setRegF a hi lo v s).tail = s.tail := rfl
@[simp] theorem setRegF_tailGen (a hi lo v : Nat) (s : State) : (setRegF a hi lo v s).tailGen = s.tailGen := rfl
@[simp] theorem setRegF_tailPatch (a hi lo v : Nat) (s : State) : (setRegF a hi lo v s).tailPatch = s.tailPatch := rfl
@[simp] theorem setRegF_logNext (a hi lo v : Nat) (s : State) : (setRegF a hi lo v s).logNext = s.logNext := rfl
@[simp] theorem setRegF_logLost (a hi lo v : Nat) (s : State) : (setRegF a hi lo v s).logLost = s.logLost := rfl
@[simp] theorem setRegF_objs (a hi lo v : Nat) (s : State) : (setRegF a hi lo v s).objs = s.objs := rfl
@[simp] theorem setRegF_mon (a hi lo v : Nat) (s : State) : (setRegF a hi lo v s).mon = s.mon := rfl
@[simp] theorem setRegF_twin (a hi lo v : Nat) (s : State) : (setRegF a hi lo v s).twin = s.twin := rfl
@[simp] theorem setRegF_chip (a hi lo v : Nat) (s : State) : (setRegF a hi lo v s).chip = s.chip := rfl
@[simp] theorem setRegF_sec (a hi lo v : Nat) (s : State) : (setRegF a hi lo v s).sec = s.sec := rfl
@[simp] theorem setRegF_sha (a hi lo v : Nat) (s : State) : (setRegF a hi lo v s).sha = s.sha := rfl
@[simp] theorem setRegF_dict (a hi lo v : Nat) (s : State) : (setRegF a hi lo v s).dict = s.dict := rfl
@[simp] theorem setRegF_dl (a hi lo v : Nat) (s : State) : (setRegF a hi lo v s).dl = s.dl := rfl
@[simp] theorem setRegF_hw (a hi lo v : Nat) (s : State) : (setRegF a hi lo v s).hw = s.hw := rfl

/-! setCell -/

@[simp] theorem setCell_pending (n : Nat) (c : Cell) (s : State) : (setCell n c s).pending = s.pending := rfl
@[simp] theorem setCell_fresh (n : Nat) (c : Cell) (s : State) : (setCell n c s).fresh = s.fresh := rfl
@[simp] theorem setCell_mem (n : Nat) (c : Cell) (s : State) : (setCell n c s).mem = s.mem := rfl
@[simp] theorem setCell_tags (n : Nat) (c : Cell) (s : State) : (setCell n c s).tags = s.tags := rfl
@[simp] theorem setCell_caches (n : Nat) (c : Cell) (s : State) : (setCell n c s).caches = s.caches := rfl
@[simp] theorem setCell_regs (n : Nat) (c : Cell) (s : State) : (setCell n c s).regs = s.regs := rfl
@[simp] theorem setCell_time (n : Nat) (c : Cell) (s : State) : (setCell n c s).time = s.time := rfl
@[simp] theorem setCell_v128 (n : Nat) (c : Cell) (s : State) : (setCell n c s).v128 = s.v128 := rfl
@[simp] theorem setCell_striped (n : Nat) (c : Cell) (s : State) : (setCell n c s).striped = s.striped := rfl
@[simp] theorem setCell_fenced (n : Nat) (c : Cell) (s : State) : (setCell n c s).fenced = s.fenced := rfl
@[simp] theorem setCell_offline (n : Nat) (c : Cell) (s : State) : (setCell n c s).offline = s.offline := rfl
@[simp] theorem setCell_gatePend (n : Nat) (c : Cell) (s : State) : (setCell n c s).gatePend = s.gatePend := rfl
@[simp] theorem setCell_posts (n : Nat) (c : Cell) (s : State) : (setCell n c s).posts = s.posts := rfl
@[simp] theorem setCell_qman (n : Nat) (c : Cell) (s : State) : (setCell n c s).qman = s.qman := rfl
@[simp] theorem setCell_qcache (n : Nat) (c : Cell) (s : State) : (setCell n c s).qcache = s.qcache := rfl
@[simp] theorem setCell_qwait (n : Nat) (c : Cell) (s : State) : (setCell n c s).qwait = s.qwait := rfl
@[simp] theorem setCell_qReady (n : Nat) (c : Cell) (s : State) : (setCell n c s).qReady = s.qReady := rfl
@[simp] theorem setCell_qbaseSet (n : Nat) (c : Cell) (s : State) : (setCell n c s).qbaseSet = s.qbaseSet := rfl
@[simp] theorem setCell_links (n : Nat) (c : Cell) (s : State) : (setCell n c s).links = s.links := rfl
@[simp] theorem setCell_subs (n : Nat) (c : Cell) (s : State) : (setCell n c s).subs = s.subs := rfl
@[simp] theorem setCell_grids (n : Nat) (c : Cell) (s : State) : (setCell n c s).grids = s.grids := rfl
@[simp] theorem setCell_dups (n : Nat) (c : Cell) (s : State) : (setCell n c s).dups = s.dups := rfl
@[simp] theorem setCell_busLost (n : Nat) (c : Cell) (s : State) : (setCell n c s).busLost = s.busLost := rfl
@[simp] theorem setCell_qmet (n : Nat) (c : Cell) (s : State) : (setCell n c s).qmet = s.qmet := rfl
@[simp] theorem setCell_waits (n : Nat) (c : Cell) (s : State) : (setCell n c s).waits = s.waits := rfl
@[simp] theorem setCell_supvAt (n : Nat) (c : Cell) (s : State) : (setCell n c s).supvAt = s.supvAt := rfl
@[simp] theorem setCell_trip (n : Nat) (c : Cell) (s : State) : (setCell n c s).trip = s.trip := rfl
@[simp] theorem setCell_pairSeq (n : Nat) (c : Cell) (s : State) : (setCell n c s).pairSeq = s.pairSeq := rfl
@[simp] theorem setCell_gtimer (n : Nat) (c : Cell) (s : State) : (setCell n c s).gtimer = s.gtimer := rfl
@[simp] theorem setCell_gocbTail (n : Nat) (c : Cell) (s : State) : (setCell n c s).gocbTail = s.gocbTail := rfl
@[simp] theorem setCell_bins (n : Nat) (c : Cell) (s : State) : (setCell n c s).bins = s.bins := rfl
@[simp] theorem setCell_binSeq (n : Nat) (c : Cell) (s : State) : (setCell n c s).binSeq = s.binSeq := rfl
@[simp] theorem setCell_irig (n : Nat) (c : Cell) (s : State) : (setCell n c s).irig = s.irig := rfl
@[simp] theorem setCell_pps (n : Nat) (c : Cell) (s : State) : (setCell n c s).pps = s.pps := rfl
@[simp] theorem setCell_ptp (n : Nat) (c : Cell) (s : State) : (setCell n c s).ptp = s.ptp := rfl
@[simp] theorem setCell_outs (n : Nat) (c : Cell) (s : State) : (setCell n c s).outs = s.outs := rfl
@[simp] theorem setCell_blks (n : Nat) (c : Cell) (s : State) : (setCell n c s).blks = s.blks := rfl
@[simp] theorem setCell_vin (n : Nat) (c : Cell) (s : State) : (setCell n c s).vin = s.vin := rfl
@[simp] theorem setCell_tx (n : Nat) (c : Cell) (s : State) : (setCell n c s).tx = s.tx := rfl
@[simp] theorem setCell_dma (n : Nat) (c : Cell) (s : State) : (setCell n c s).dma = s.dma := rfl
@[simp] theorem setCell_dev (n : Nat) (c : Cell) (s : State) : (setCell n c s).dev = s.dev := rfl
@[simp] theorem setCell_hubLost (n : Nat) (c : Cell) (s : State) : (setCell n c s).hubLost = s.hubLost := rfl
@[simp] theorem setCell_fatal (n : Nat) (c : Cell) (s : State) : (setCell n c s).fatal = s.fatal := rfl
@[simp] theorem setCell_log (n : Nat) (c : Cell) (s : State) : (setCell n c s).log = s.log := rfl
@[simp] theorem setCell_tail (n : Nat) (c : Cell) (s : State) : (setCell n c s).tail = s.tail := rfl
@[simp] theorem setCell_tailGen (n : Nat) (c : Cell) (s : State) : (setCell n c s).tailGen = s.tailGen := rfl
@[simp] theorem setCell_tailPatch (n : Nat) (c : Cell) (s : State) : (setCell n c s).tailPatch = s.tailPatch := rfl
@[simp] theorem setCell_logNext (n : Nat) (c : Cell) (s : State) : (setCell n c s).logNext = s.logNext := rfl
@[simp] theorem setCell_logLost (n : Nat) (c : Cell) (s : State) : (setCell n c s).logLost = s.logLost := rfl
@[simp] theorem setCell_objs (n : Nat) (c : Cell) (s : State) : (setCell n c s).objs = s.objs := rfl
@[simp] theorem setCell_mon (n : Nat) (c : Cell) (s : State) : (setCell n c s).mon = s.mon := rfl
@[simp] theorem setCell_twin (n : Nat) (c : Cell) (s : State) : (setCell n c s).twin = s.twin := rfl
@[simp] theorem setCell_chip (n : Nat) (c : Cell) (s : State) : (setCell n c s).chip = s.chip := rfl
@[simp] theorem setCell_sec (n : Nat) (c : Cell) (s : State) : (setCell n c s).sec = s.sec := rfl
@[simp] theorem setCell_sha (n : Nat) (c : Cell) (s : State) : (setCell n c s).sha = s.sha := rfl
@[simp] theorem setCell_dict (n : Nat) (c : Cell) (s : State) : (setCell n c s).dict = s.dict := rfl
@[simp] theorem setCell_dl (n : Nat) (c : Cell) (s : State) : (setCell n c s).dl = s.dl := rfl
@[simp] theorem setCell_hw (n : Nat) (c : Cell) (s : State) : (setCell n c s).hw = s.hw := rfl

/-! modCell -/

@[simp] theorem modCell_pending (n : Nat) (f : Cell → Cell) (s : State) : (modCell n f s).pending = s.pending := rfl
@[simp] theorem modCell_fresh (n : Nat) (f : Cell → Cell) (s : State) : (modCell n f s).fresh = s.fresh := rfl
@[simp] theorem modCell_mem (n : Nat) (f : Cell → Cell) (s : State) : (modCell n f s).mem = s.mem := rfl
@[simp] theorem modCell_tags (n : Nat) (f : Cell → Cell) (s : State) : (modCell n f s).tags = s.tags := rfl
@[simp] theorem modCell_caches (n : Nat) (f : Cell → Cell) (s : State) : (modCell n f s).caches = s.caches := rfl
@[simp] theorem modCell_regs (n : Nat) (f : Cell → Cell) (s : State) : (modCell n f s).regs = s.regs := rfl
@[simp] theorem modCell_time (n : Nat) (f : Cell → Cell) (s : State) : (modCell n f s).time = s.time := rfl
@[simp] theorem modCell_v128 (n : Nat) (f : Cell → Cell) (s : State) : (modCell n f s).v128 = s.v128 := rfl
@[simp] theorem modCell_striped (n : Nat) (f : Cell → Cell) (s : State) : (modCell n f s).striped = s.striped := rfl
@[simp] theorem modCell_fenced (n : Nat) (f : Cell → Cell) (s : State) : (modCell n f s).fenced = s.fenced := rfl
@[simp] theorem modCell_offline (n : Nat) (f : Cell → Cell) (s : State) : (modCell n f s).offline = s.offline := rfl
@[simp] theorem modCell_gatePend (n : Nat) (f : Cell → Cell) (s : State) : (modCell n f s).gatePend = s.gatePend := rfl
@[simp] theorem modCell_posts (n : Nat) (f : Cell → Cell) (s : State) : (modCell n f s).posts = s.posts := rfl
@[simp] theorem modCell_qman (n : Nat) (f : Cell → Cell) (s : State) : (modCell n f s).qman = s.qman := rfl
@[simp] theorem modCell_qcache (n : Nat) (f : Cell → Cell) (s : State) : (modCell n f s).qcache = s.qcache := rfl
@[simp] theorem modCell_qwait (n : Nat) (f : Cell → Cell) (s : State) : (modCell n f s).qwait = s.qwait := rfl
@[simp] theorem modCell_qReady (n : Nat) (f : Cell → Cell) (s : State) : (modCell n f s).qReady = s.qReady := rfl
@[simp] theorem modCell_qbaseSet (n : Nat) (f : Cell → Cell) (s : State) : (modCell n f s).qbaseSet = s.qbaseSet := rfl
@[simp] theorem modCell_links (n : Nat) (f : Cell → Cell) (s : State) : (modCell n f s).links = s.links := rfl
@[simp] theorem modCell_subs (n : Nat) (f : Cell → Cell) (s : State) : (modCell n f s).subs = s.subs := rfl
@[simp] theorem modCell_grids (n : Nat) (f : Cell → Cell) (s : State) : (modCell n f s).grids = s.grids := rfl
@[simp] theorem modCell_dups (n : Nat) (f : Cell → Cell) (s : State) : (modCell n f s).dups = s.dups := rfl
@[simp] theorem modCell_busLost (n : Nat) (f : Cell → Cell) (s : State) : (modCell n f s).busLost = s.busLost := rfl
@[simp] theorem modCell_qmet (n : Nat) (f : Cell → Cell) (s : State) : (modCell n f s).qmet = s.qmet := rfl
@[simp] theorem modCell_waits (n : Nat) (f : Cell → Cell) (s : State) : (modCell n f s).waits = s.waits := rfl
@[simp] theorem modCell_supvAt (n : Nat) (f : Cell → Cell) (s : State) : (modCell n f s).supvAt = s.supvAt := rfl
@[simp] theorem modCell_trip (n : Nat) (f : Cell → Cell) (s : State) : (modCell n f s).trip = s.trip := rfl
@[simp] theorem modCell_pairSeq (n : Nat) (f : Cell → Cell) (s : State) : (modCell n f s).pairSeq = s.pairSeq := rfl
@[simp] theorem modCell_gtimer (n : Nat) (f : Cell → Cell) (s : State) : (modCell n f s).gtimer = s.gtimer := rfl
@[simp] theorem modCell_gocbTail (n : Nat) (f : Cell → Cell) (s : State) : (modCell n f s).gocbTail = s.gocbTail := rfl
@[simp] theorem modCell_bins (n : Nat) (f : Cell → Cell) (s : State) : (modCell n f s).bins = s.bins := rfl
@[simp] theorem modCell_binSeq (n : Nat) (f : Cell → Cell) (s : State) : (modCell n f s).binSeq = s.binSeq := rfl
@[simp] theorem modCell_irig (n : Nat) (f : Cell → Cell) (s : State) : (modCell n f s).irig = s.irig := rfl
@[simp] theorem modCell_pps (n : Nat) (f : Cell → Cell) (s : State) : (modCell n f s).pps = s.pps := rfl
@[simp] theorem modCell_ptp (n : Nat) (f : Cell → Cell) (s : State) : (modCell n f s).ptp = s.ptp := rfl
@[simp] theorem modCell_outs (n : Nat) (f : Cell → Cell) (s : State) : (modCell n f s).outs = s.outs := rfl
@[simp] theorem modCell_blks (n : Nat) (f : Cell → Cell) (s : State) : (modCell n f s).blks = s.blks := rfl
@[simp] theorem modCell_vin (n : Nat) (f : Cell → Cell) (s : State) : (modCell n f s).vin = s.vin := rfl
@[simp] theorem modCell_tx (n : Nat) (f : Cell → Cell) (s : State) : (modCell n f s).tx = s.tx := rfl
@[simp] theorem modCell_dma (n : Nat) (f : Cell → Cell) (s : State) : (modCell n f s).dma = s.dma := rfl
@[simp] theorem modCell_dev (n : Nat) (f : Cell → Cell) (s : State) : (modCell n f s).dev = s.dev := rfl
@[simp] theorem modCell_hubLost (n : Nat) (f : Cell → Cell) (s : State) : (modCell n f s).hubLost = s.hubLost := rfl
@[simp] theorem modCell_fatal (n : Nat) (f : Cell → Cell) (s : State) : (modCell n f s).fatal = s.fatal := rfl
@[simp] theorem modCell_log (n : Nat) (f : Cell → Cell) (s : State) : (modCell n f s).log = s.log := rfl
@[simp] theorem modCell_tail (n : Nat) (f : Cell → Cell) (s : State) : (modCell n f s).tail = s.tail := rfl
@[simp] theorem modCell_tailGen (n : Nat) (f : Cell → Cell) (s : State) : (modCell n f s).tailGen = s.tailGen := rfl
@[simp] theorem modCell_tailPatch (n : Nat) (f : Cell → Cell) (s : State) : (modCell n f s).tailPatch = s.tailPatch := rfl
@[simp] theorem modCell_logNext (n : Nat) (f : Cell → Cell) (s : State) : (modCell n f s).logNext = s.logNext := rfl
@[simp] theorem modCell_logLost (n : Nat) (f : Cell → Cell) (s : State) : (modCell n f s).logLost = s.logLost := rfl
@[simp] theorem modCell_objs (n : Nat) (f : Cell → Cell) (s : State) : (modCell n f s).objs = s.objs := rfl
@[simp] theorem modCell_mon (n : Nat) (f : Cell → Cell) (s : State) : (modCell n f s).mon = s.mon := rfl
@[simp] theorem modCell_twin (n : Nat) (f : Cell → Cell) (s : State) : (modCell n f s).twin = s.twin := rfl
@[simp] theorem modCell_chip (n : Nat) (f : Cell → Cell) (s : State) : (modCell n f s).chip = s.chip := rfl
@[simp] theorem modCell_sec (n : Nat) (f : Cell → Cell) (s : State) : (modCell n f s).sec = s.sec := rfl
@[simp] theorem modCell_sha (n : Nat) (f : Cell → Cell) (s : State) : (modCell n f s).sha = s.sha := rfl
@[simp] theorem modCell_dict (n : Nat) (f : Cell → Cell) (s : State) : (modCell n f s).dict = s.dict := rfl
@[simp] theorem modCell_dl (n : Nat) (f : Cell → Cell) (s : State) : (modCell n f s).dl = s.dl := rfl
@[simp] theorem modCell_hw (n : Nat) (f : Cell → Cell) (s : State) : (modCell n f s).hw = s.hw := rfl

/-! memStore -/

@[simp] theorem memStore_pending (a : Nat) (b : List Byte) (s : State) : (memStore a b s).pending = s.pending := rfl
@[simp] theorem memStore_fresh (a : Nat) (b : List Byte) (s : State) : (memStore a b s).fresh = s.fresh := rfl
@[simp] theorem memStore_cells (a : Nat) (b : List Byte) (s : State) : (memStore a b s).cells = s.cells := rfl
@[simp] theorem memStore_regs (a : Nat) (b : List Byte) (s : State) : (memStore a b s).regs = s.regs := rfl
@[simp] theorem memStore_time (a : Nat) (b : List Byte) (s : State) : (memStore a b s).time = s.time := rfl
@[simp] theorem memStore_v128 (a : Nat) (b : List Byte) (s : State) : (memStore a b s).v128 = s.v128 := rfl
@[simp] theorem memStore_striped (a : Nat) (b : List Byte) (s : State) : (memStore a b s).striped = s.striped := rfl
@[simp] theorem memStore_fenced (a : Nat) (b : List Byte) (s : State) : (memStore a b s).fenced = s.fenced := rfl
@[simp] theorem memStore_offline (a : Nat) (b : List Byte) (s : State) : (memStore a b s).offline = s.offline := rfl
@[simp] theorem memStore_gatePend (a : Nat) (b : List Byte) (s : State) : (memStore a b s).gatePend = s.gatePend := rfl
@[simp] theorem memStore_posts (a : Nat) (b : List Byte) (s : State) : (memStore a b s).posts = s.posts := rfl
@[simp] theorem memStore_qman (a : Nat) (b : List Byte) (s : State) : (memStore a b s).qman = s.qman := rfl
@[simp] theorem memStore_qcache (a : Nat) (b : List Byte) (s : State) : (memStore a b s).qcache = s.qcache := rfl
@[simp] theorem memStore_qwait (a : Nat) (b : List Byte) (s : State) : (memStore a b s).qwait = s.qwait := rfl
@[simp] theorem memStore_qReady (a : Nat) (b : List Byte) (s : State) : (memStore a b s).qReady = s.qReady := rfl
@[simp] theorem memStore_qbaseSet (a : Nat) (b : List Byte) (s : State) : (memStore a b s).qbaseSet = s.qbaseSet := rfl
@[simp] theorem memStore_links (a : Nat) (b : List Byte) (s : State) : (memStore a b s).links = s.links := rfl
@[simp] theorem memStore_subs (a : Nat) (b : List Byte) (s : State) : (memStore a b s).subs = s.subs := rfl
@[simp] theorem memStore_grids (a : Nat) (b : List Byte) (s : State) : (memStore a b s).grids = s.grids := rfl
@[simp] theorem memStore_dups (a : Nat) (b : List Byte) (s : State) : (memStore a b s).dups = s.dups := rfl
@[simp] theorem memStore_busLost (a : Nat) (b : List Byte) (s : State) : (memStore a b s).busLost = s.busLost := rfl
@[simp] theorem memStore_qmet (a : Nat) (b : List Byte) (s : State) : (memStore a b s).qmet = s.qmet := rfl
@[simp] theorem memStore_waits (a : Nat) (b : List Byte) (s : State) : (memStore a b s).waits = s.waits := rfl
@[simp] theorem memStore_supvAt (a : Nat) (b : List Byte) (s : State) : (memStore a b s).supvAt = s.supvAt := rfl
@[simp] theorem memStore_trip (a : Nat) (b : List Byte) (s : State) : (memStore a b s).trip = s.trip := rfl
@[simp] theorem memStore_pairSeq (a : Nat) (b : List Byte) (s : State) : (memStore a b s).pairSeq = s.pairSeq := rfl
@[simp] theorem memStore_gtimer (a : Nat) (b : List Byte) (s : State) : (memStore a b s).gtimer = s.gtimer := rfl
@[simp] theorem memStore_gocbTail (a : Nat) (b : List Byte) (s : State) : (memStore a b s).gocbTail = s.gocbTail := rfl
@[simp] theorem memStore_bins (a : Nat) (b : List Byte) (s : State) : (memStore a b s).bins = s.bins := rfl
@[simp] theorem memStore_binSeq (a : Nat) (b : List Byte) (s : State) : (memStore a b s).binSeq = s.binSeq := rfl
@[simp] theorem memStore_irig (a : Nat) (b : List Byte) (s : State) : (memStore a b s).irig = s.irig := rfl
@[simp] theorem memStore_pps (a : Nat) (b : List Byte) (s : State) : (memStore a b s).pps = s.pps := rfl
@[simp] theorem memStore_ptp (a : Nat) (b : List Byte) (s : State) : (memStore a b s).ptp = s.ptp := rfl
@[simp] theorem memStore_outs (a : Nat) (b : List Byte) (s : State) : (memStore a b s).outs = s.outs := rfl
@[simp] theorem memStore_blks (a : Nat) (b : List Byte) (s : State) : (memStore a b s).blks = s.blks := rfl
@[simp] theorem memStore_vin (a : Nat) (b : List Byte) (s : State) : (memStore a b s).vin = s.vin := rfl
@[simp] theorem memStore_tx (a : Nat) (b : List Byte) (s : State) : (memStore a b s).tx = s.tx := rfl
@[simp] theorem memStore_dma (a : Nat) (b : List Byte) (s : State) : (memStore a b s).dma = s.dma := rfl
@[simp] theorem memStore_dev (a : Nat) (b : List Byte) (s : State) : (memStore a b s).dev = s.dev := rfl
@[simp] theorem memStore_hubLost (a : Nat) (b : List Byte) (s : State) : (memStore a b s).hubLost = s.hubLost := rfl
@[simp] theorem memStore_fatal (a : Nat) (b : List Byte) (s : State) : (memStore a b s).fatal = s.fatal := rfl
@[simp] theorem memStore_log (a : Nat) (b : List Byte) (s : State) : (memStore a b s).log = s.log := rfl
@[simp] theorem memStore_tail (a : Nat) (b : List Byte) (s : State) : (memStore a b s).tail = s.tail := rfl
@[simp] theorem memStore_tailGen (a : Nat) (b : List Byte) (s : State) : (memStore a b s).tailGen = s.tailGen := rfl
@[simp] theorem memStore_tailPatch (a : Nat) (b : List Byte) (s : State) : (memStore a b s).tailPatch = s.tailPatch := rfl
@[simp] theorem memStore_logNext (a : Nat) (b : List Byte) (s : State) : (memStore a b s).logNext = s.logNext := rfl
@[simp] theorem memStore_logLost (a : Nat) (b : List Byte) (s : State) : (memStore a b s).logLost = s.logLost := rfl
@[simp] theorem memStore_objs (a : Nat) (b : List Byte) (s : State) : (memStore a b s).objs = s.objs := rfl
@[simp] theorem memStore_mon (a : Nat) (b : List Byte) (s : State) : (memStore a b s).mon = s.mon := rfl
@[simp] theorem memStore_twin (a : Nat) (b : List Byte) (s : State) : (memStore a b s).twin = s.twin := rfl
@[simp] theorem memStore_chip (a : Nat) (b : List Byte) (s : State) : (memStore a b s).chip = s.chip := rfl
@[simp] theorem memStore_sec (a : Nat) (b : List Byte) (s : State) : (memStore a b s).sec = s.sec := rfl
@[simp] theorem memStore_sha (a : Nat) (b : List Byte) (s : State) : (memStore a b s).sha = s.sha := rfl
@[simp] theorem memStore_dict (a : Nat) (b : List Byte) (s : State) : (memStore a b s).dict = s.dict := rfl
@[simp] theorem memStore_dl (a : Nat) (b : List Byte) (s : State) : (memStore a b s).dl = s.dl := rfl
@[simp] theorem memStore_hw (a : Nat) (b : List Byte) (s : State) : (memStore a b s).hw = s.hw := rfl

/-! memStoreCap -/

@[simp] theorem memStoreCap_pending (a : Nat) (b : List Byte) (g : Bool) (s : State) : (memStoreCap a b g s).pending = s.pending := rfl
@[simp] theorem memStoreCap_fresh (a : Nat) (b : List Byte) (g : Bool) (s : State) : (memStoreCap a b g s).fresh = s.fresh := rfl
@[simp] theorem memStoreCap_cells (a : Nat) (b : List Byte) (g : Bool) (s : State) : (memStoreCap a b g s).cells = s.cells := rfl
@[simp] theorem memStoreCap_regs (a : Nat) (b : List Byte) (g : Bool) (s : State) : (memStoreCap a b g s).regs = s.regs := rfl
@[simp] theorem memStoreCap_time (a : Nat) (b : List Byte) (g : Bool) (s : State) : (memStoreCap a b g s).time = s.time := rfl
@[simp] theorem memStoreCap_v128 (a : Nat) (b : List Byte) (g : Bool) (s : State) : (memStoreCap a b g s).v128 = s.v128 := rfl
@[simp] theorem memStoreCap_striped (a : Nat) (b : List Byte) (g : Bool) (s : State) : (memStoreCap a b g s).striped = s.striped := rfl
@[simp] theorem memStoreCap_fenced (a : Nat) (b : List Byte) (g : Bool) (s : State) : (memStoreCap a b g s).fenced = s.fenced := rfl
@[simp] theorem memStoreCap_offline (a : Nat) (b : List Byte) (g : Bool) (s : State) : (memStoreCap a b g s).offline = s.offline := rfl
@[simp] theorem memStoreCap_gatePend (a : Nat) (b : List Byte) (g : Bool) (s : State) : (memStoreCap a b g s).gatePend = s.gatePend := rfl
@[simp] theorem memStoreCap_posts (a : Nat) (b : List Byte) (g : Bool) (s : State) : (memStoreCap a b g s).posts = s.posts := rfl
@[simp] theorem memStoreCap_qman (a : Nat) (b : List Byte) (g : Bool) (s : State) : (memStoreCap a b g s).qman = s.qman := rfl
@[simp] theorem memStoreCap_qcache (a : Nat) (b : List Byte) (g : Bool) (s : State) : (memStoreCap a b g s).qcache = s.qcache := rfl
@[simp] theorem memStoreCap_qwait (a : Nat) (b : List Byte) (g : Bool) (s : State) : (memStoreCap a b g s).qwait = s.qwait := rfl
@[simp] theorem memStoreCap_qReady (a : Nat) (b : List Byte) (g : Bool) (s : State) : (memStoreCap a b g s).qReady = s.qReady := rfl
@[simp] theorem memStoreCap_qbaseSet (a : Nat) (b : List Byte) (g : Bool) (s : State) : (memStoreCap a b g s).qbaseSet = s.qbaseSet := rfl
@[simp] theorem memStoreCap_links (a : Nat) (b : List Byte) (g : Bool) (s : State) : (memStoreCap a b g s).links = s.links := rfl
@[simp] theorem memStoreCap_subs (a : Nat) (b : List Byte) (g : Bool) (s : State) : (memStoreCap a b g s).subs = s.subs := rfl
@[simp] theorem memStoreCap_grids (a : Nat) (b : List Byte) (g : Bool) (s : State) : (memStoreCap a b g s).grids = s.grids := rfl
@[simp] theorem memStoreCap_dups (a : Nat) (b : List Byte) (g : Bool) (s : State) : (memStoreCap a b g s).dups = s.dups := rfl
@[simp] theorem memStoreCap_busLost (a : Nat) (b : List Byte) (g : Bool) (s : State) : (memStoreCap a b g s).busLost = s.busLost := rfl
@[simp] theorem memStoreCap_qmet (a : Nat) (b : List Byte) (g : Bool) (s : State) : (memStoreCap a b g s).qmet = s.qmet := rfl
@[simp] theorem memStoreCap_waits (a : Nat) (b : List Byte) (g : Bool) (s : State) : (memStoreCap a b g s).waits = s.waits := rfl
@[simp] theorem memStoreCap_supvAt (a : Nat) (b : List Byte) (g : Bool) (s : State) : (memStoreCap a b g s).supvAt = s.supvAt := rfl
@[simp] theorem memStoreCap_trip (a : Nat) (b : List Byte) (g : Bool) (s : State) : (memStoreCap a b g s).trip = s.trip := rfl
@[simp] theorem memStoreCap_pairSeq (a : Nat) (b : List Byte) (g : Bool) (s : State) : (memStoreCap a b g s).pairSeq = s.pairSeq := rfl
@[simp] theorem memStoreCap_gtimer (a : Nat) (b : List Byte) (g : Bool) (s : State) : (memStoreCap a b g s).gtimer = s.gtimer := rfl
@[simp] theorem memStoreCap_gocbTail (a : Nat) (b : List Byte) (g : Bool) (s : State) : (memStoreCap a b g s).gocbTail = s.gocbTail := rfl
@[simp] theorem memStoreCap_bins (a : Nat) (b : List Byte) (g : Bool) (s : State) : (memStoreCap a b g s).bins = s.bins := rfl
@[simp] theorem memStoreCap_binSeq (a : Nat) (b : List Byte) (g : Bool) (s : State) : (memStoreCap a b g s).binSeq = s.binSeq := rfl
@[simp] theorem memStoreCap_irig (a : Nat) (b : List Byte) (g : Bool) (s : State) : (memStoreCap a b g s).irig = s.irig := rfl
@[simp] theorem memStoreCap_pps (a : Nat) (b : List Byte) (g : Bool) (s : State) : (memStoreCap a b g s).pps = s.pps := rfl
@[simp] theorem memStoreCap_ptp (a : Nat) (b : List Byte) (g : Bool) (s : State) : (memStoreCap a b g s).ptp = s.ptp := rfl
@[simp] theorem memStoreCap_outs (a : Nat) (b : List Byte) (g : Bool) (s : State) : (memStoreCap a b g s).outs = s.outs := rfl
@[simp] theorem memStoreCap_blks (a : Nat) (b : List Byte) (g : Bool) (s : State) : (memStoreCap a b g s).blks = s.blks := rfl
@[simp] theorem memStoreCap_vin (a : Nat) (b : List Byte) (g : Bool) (s : State) : (memStoreCap a b g s).vin = s.vin := rfl
@[simp] theorem memStoreCap_tx (a : Nat) (b : List Byte) (g : Bool) (s : State) : (memStoreCap a b g s).tx = s.tx := rfl
@[simp] theorem memStoreCap_dma (a : Nat) (b : List Byte) (g : Bool) (s : State) : (memStoreCap a b g s).dma = s.dma := rfl
@[simp] theorem memStoreCap_dev (a : Nat) (b : List Byte) (g : Bool) (s : State) : (memStoreCap a b g s).dev = s.dev := rfl
@[simp] theorem memStoreCap_hubLost (a : Nat) (b : List Byte) (g : Bool) (s : State) : (memStoreCap a b g s).hubLost = s.hubLost := rfl
@[simp] theorem memStoreCap_fatal (a : Nat) (b : List Byte) (g : Bool) (s : State) : (memStoreCap a b g s).fatal = s.fatal := rfl
@[simp] theorem memStoreCap_log (a : Nat) (b : List Byte) (g : Bool) (s : State) : (memStoreCap a b g s).log = s.log := rfl
@[simp] theorem memStoreCap_tail (a : Nat) (b : List Byte) (g : Bool) (s : State) : (memStoreCap a b g s).tail = s.tail := rfl
@[simp] theorem memStoreCap_tailGen (a : Nat) (b : List Byte) (g : Bool) (s : State) : (memStoreCap a b g s).tailGen = s.tailGen := rfl
@[simp] theorem memStoreCap_tailPatch (a : Nat) (b : List Byte) (g : Bool) (s : State) : (memStoreCap a b g s).tailPatch = s.tailPatch := rfl
@[simp] theorem memStoreCap_logNext (a : Nat) (b : List Byte) (g : Bool) (s : State) : (memStoreCap a b g s).logNext = s.logNext := rfl
@[simp] theorem memStoreCap_logLost (a : Nat) (b : List Byte) (g : Bool) (s : State) : (memStoreCap a b g s).logLost = s.logLost := rfl
@[simp] theorem memStoreCap_objs (a : Nat) (b : List Byte) (g : Bool) (s : State) : (memStoreCap a b g s).objs = s.objs := rfl
@[simp] theorem memStoreCap_mon (a : Nat) (b : List Byte) (g : Bool) (s : State) : (memStoreCap a b g s).mon = s.mon := rfl
@[simp] theorem memStoreCap_twin (a : Nat) (b : List Byte) (g : Bool) (s : State) : (memStoreCap a b g s).twin = s.twin := rfl
@[simp] theorem memStoreCap_chip (a : Nat) (b : List Byte) (g : Bool) (s : State) : (memStoreCap a b g s).chip = s.chip := rfl
@[simp] theorem memStoreCap_sec (a : Nat) (b : List Byte) (g : Bool) (s : State) : (memStoreCap a b g s).sec = s.sec := rfl
@[simp] theorem memStoreCap_sha (a : Nat) (b : List Byte) (g : Bool) (s : State) : (memStoreCap a b g s).sha = s.sha := rfl
@[simp] theorem memStoreCap_dict (a : Nat) (b : List Byte) (g : Bool) (s : State) : (memStoreCap a b g s).dict = s.dict := rfl
@[simp] theorem memStoreCap_dl (a : Nat) (b : List Byte) (g : Bool) (s : State) : (memStoreCap a b g s).dl = s.dl := rfl
@[simp] theorem memStoreCap_hw (a : Nat) (b : List Byte) (g : Bool) (s : State) : (memStoreCap a b g s).hw = s.hw := rfl

/-! memZero -/

@[simp] theorem memZero_pending (a n : Nat) (s : State) : (memZero a n s).pending = s.pending := rfl
@[simp] theorem memZero_fresh (a n : Nat) (s : State) : (memZero a n s).fresh = s.fresh := rfl
@[simp] theorem memZero_cells (a n : Nat) (s : State) : (memZero a n s).cells = s.cells := rfl
@[simp] theorem memZero_regs (a n : Nat) (s : State) : (memZero a n s).regs = s.regs := rfl
@[simp] theorem memZero_time (a n : Nat) (s : State) : (memZero a n s).time = s.time := rfl
@[simp] theorem memZero_v128 (a n : Nat) (s : State) : (memZero a n s).v128 = s.v128 := rfl
@[simp] theorem memZero_striped (a n : Nat) (s : State) : (memZero a n s).striped = s.striped := rfl
@[simp] theorem memZero_fenced (a n : Nat) (s : State) : (memZero a n s).fenced = s.fenced := rfl
@[simp] theorem memZero_offline (a n : Nat) (s : State) : (memZero a n s).offline = s.offline := rfl
@[simp] theorem memZero_gatePend (a n : Nat) (s : State) : (memZero a n s).gatePend = s.gatePend := rfl
@[simp] theorem memZero_posts (a n : Nat) (s : State) : (memZero a n s).posts = s.posts := rfl
@[simp] theorem memZero_qman (a n : Nat) (s : State) : (memZero a n s).qman = s.qman := rfl
@[simp] theorem memZero_qcache (a n : Nat) (s : State) : (memZero a n s).qcache = s.qcache := rfl
@[simp] theorem memZero_qwait (a n : Nat) (s : State) : (memZero a n s).qwait = s.qwait := rfl
@[simp] theorem memZero_qReady (a n : Nat) (s : State) : (memZero a n s).qReady = s.qReady := rfl
@[simp] theorem memZero_qbaseSet (a n : Nat) (s : State) : (memZero a n s).qbaseSet = s.qbaseSet := rfl
@[simp] theorem memZero_links (a n : Nat) (s : State) : (memZero a n s).links = s.links := rfl
@[simp] theorem memZero_subs (a n : Nat) (s : State) : (memZero a n s).subs = s.subs := rfl
@[simp] theorem memZero_grids (a n : Nat) (s : State) : (memZero a n s).grids = s.grids := rfl
@[simp] theorem memZero_dups (a n : Nat) (s : State) : (memZero a n s).dups = s.dups := rfl
@[simp] theorem memZero_busLost (a n : Nat) (s : State) : (memZero a n s).busLost = s.busLost := rfl
@[simp] theorem memZero_qmet (a n : Nat) (s : State) : (memZero a n s).qmet = s.qmet := rfl
@[simp] theorem memZero_waits (a n : Nat) (s : State) : (memZero a n s).waits = s.waits := rfl
@[simp] theorem memZero_supvAt (a n : Nat) (s : State) : (memZero a n s).supvAt = s.supvAt := rfl
@[simp] theorem memZero_trip (a n : Nat) (s : State) : (memZero a n s).trip = s.trip := rfl
@[simp] theorem memZero_pairSeq (a n : Nat) (s : State) : (memZero a n s).pairSeq = s.pairSeq := rfl
@[simp] theorem memZero_gtimer (a n : Nat) (s : State) : (memZero a n s).gtimer = s.gtimer := rfl
@[simp] theorem memZero_gocbTail (a n : Nat) (s : State) : (memZero a n s).gocbTail = s.gocbTail := rfl
@[simp] theorem memZero_bins (a n : Nat) (s : State) : (memZero a n s).bins = s.bins := rfl
@[simp] theorem memZero_binSeq (a n : Nat) (s : State) : (memZero a n s).binSeq = s.binSeq := rfl
@[simp] theorem memZero_irig (a n : Nat) (s : State) : (memZero a n s).irig = s.irig := rfl
@[simp] theorem memZero_pps (a n : Nat) (s : State) : (memZero a n s).pps = s.pps := rfl
@[simp] theorem memZero_ptp (a n : Nat) (s : State) : (memZero a n s).ptp = s.ptp := rfl
@[simp] theorem memZero_outs (a n : Nat) (s : State) : (memZero a n s).outs = s.outs := rfl
@[simp] theorem memZero_blks (a n : Nat) (s : State) : (memZero a n s).blks = s.blks := rfl
@[simp] theorem memZero_vin (a n : Nat) (s : State) : (memZero a n s).vin = s.vin := rfl
@[simp] theorem memZero_tx (a n : Nat) (s : State) : (memZero a n s).tx = s.tx := rfl
@[simp] theorem memZero_dma (a n : Nat) (s : State) : (memZero a n s).dma = s.dma := rfl
@[simp] theorem memZero_dev (a n : Nat) (s : State) : (memZero a n s).dev = s.dev := rfl
@[simp] theorem memZero_hubLost (a n : Nat) (s : State) : (memZero a n s).hubLost = s.hubLost := rfl
@[simp] theorem memZero_fatal (a n : Nat) (s : State) : (memZero a n s).fatal = s.fatal := rfl
@[simp] theorem memZero_log (a n : Nat) (s : State) : (memZero a n s).log = s.log := rfl
@[simp] theorem memZero_tail (a n : Nat) (s : State) : (memZero a n s).tail = s.tail := rfl
@[simp] theorem memZero_tailGen (a n : Nat) (s : State) : (memZero a n s).tailGen = s.tailGen := rfl
@[simp] theorem memZero_tailPatch (a n : Nat) (s : State) : (memZero a n s).tailPatch = s.tailPatch := rfl
@[simp] theorem memZero_logNext (a n : Nat) (s : State) : (memZero a n s).logNext = s.logNext := rfl
@[simp] theorem memZero_logLost (a n : Nat) (s : State) : (memZero a n s).logLost = s.logLost := rfl
@[simp] theorem memZero_objs (a n : Nat) (s : State) : (memZero a n s).objs = s.objs := rfl
@[simp] theorem memZero_mon (a n : Nat) (s : State) : (memZero a n s).mon = s.mon := rfl
@[simp] theorem memZero_twin (a n : Nat) (s : State) : (memZero a n s).twin = s.twin := rfl
@[simp] theorem memZero_chip (a n : Nat) (s : State) : (memZero a n s).chip = s.chip := rfl
@[simp] theorem memZero_sec (a n : Nat) (s : State) : (memZero a n s).sec = s.sec := rfl
@[simp] theorem memZero_sha (a n : Nat) (s : State) : (memZero a n s).sha = s.sha := rfl
@[simp] theorem memZero_dict (a n : Nat) (s : State) : (memZero a n s).dict = s.dict := rfl
@[simp] theorem memZero_dl (a n : Nat) (s : State) : (memZero a n s).dl = s.dl := rfl
@[simp] theorem memZero_hw (a n : Nat) (s : State) : (memZero a n s).hw = s.hw := rfl

/-! setObj -/

@[simp] theorem setObj_pending (i j : Nat) (v : List Byte) (s : State) : (setObj i j v s).pending = s.pending := rfl
@[simp] theorem setObj_fresh (i j : Nat) (v : List Byte) (s : State) : (setObj i j v s).fresh = s.fresh := rfl
@[simp] theorem setObj_cells (i j : Nat) (v : List Byte) (s : State) : (setObj i j v s).cells = s.cells := rfl
@[simp] theorem setObj_mem (i j : Nat) (v : List Byte) (s : State) : (setObj i j v s).mem = s.mem := rfl
@[simp] theorem setObj_tags (i j : Nat) (v : List Byte) (s : State) : (setObj i j v s).tags = s.tags := rfl
@[simp] theorem setObj_caches (i j : Nat) (v : List Byte) (s : State) : (setObj i j v s).caches = s.caches := rfl
@[simp] theorem setObj_regs (i j : Nat) (v : List Byte) (s : State) : (setObj i j v s).regs = s.regs := rfl
@[simp] theorem setObj_time (i j : Nat) (v : List Byte) (s : State) : (setObj i j v s).time = s.time := rfl
@[simp] theorem setObj_v128 (i j : Nat) (v : List Byte) (s : State) : (setObj i j v s).v128 = s.v128 := rfl
@[simp] theorem setObj_striped (i j : Nat) (v : List Byte) (s : State) : (setObj i j v s).striped = s.striped := rfl
@[simp] theorem setObj_fenced (i j : Nat) (v : List Byte) (s : State) : (setObj i j v s).fenced = s.fenced := rfl
@[simp] theorem setObj_offline (i j : Nat) (v : List Byte) (s : State) : (setObj i j v s).offline = s.offline := rfl
@[simp] theorem setObj_gatePend (i j : Nat) (v : List Byte) (s : State) : (setObj i j v s).gatePend = s.gatePend := rfl
@[simp] theorem setObj_posts (i j : Nat) (v : List Byte) (s : State) : (setObj i j v s).posts = s.posts := rfl
@[simp] theorem setObj_qman (i j : Nat) (v : List Byte) (s : State) : (setObj i j v s).qman = s.qman := rfl
@[simp] theorem setObj_qcache (i j : Nat) (v : List Byte) (s : State) : (setObj i j v s).qcache = s.qcache := rfl
@[simp] theorem setObj_qwait (i j : Nat) (v : List Byte) (s : State) : (setObj i j v s).qwait = s.qwait := rfl
@[simp] theorem setObj_qReady (i j : Nat) (v : List Byte) (s : State) : (setObj i j v s).qReady = s.qReady := rfl
@[simp] theorem setObj_qbaseSet (i j : Nat) (v : List Byte) (s : State) : (setObj i j v s).qbaseSet = s.qbaseSet := rfl
@[simp] theorem setObj_links (i j : Nat) (v : List Byte) (s : State) : (setObj i j v s).links = s.links := rfl
@[simp] theorem setObj_subs (i j : Nat) (v : List Byte) (s : State) : (setObj i j v s).subs = s.subs := rfl
@[simp] theorem setObj_grids (i j : Nat) (v : List Byte) (s : State) : (setObj i j v s).grids = s.grids := rfl
@[simp] theorem setObj_dups (i j : Nat) (v : List Byte) (s : State) : (setObj i j v s).dups = s.dups := rfl
@[simp] theorem setObj_busLost (i j : Nat) (v : List Byte) (s : State) : (setObj i j v s).busLost = s.busLost := rfl
@[simp] theorem setObj_qmet (i j : Nat) (v : List Byte) (s : State) : (setObj i j v s).qmet = s.qmet := rfl
@[simp] theorem setObj_waits (i j : Nat) (v : List Byte) (s : State) : (setObj i j v s).waits = s.waits := rfl
@[simp] theorem setObj_supvAt (i j : Nat) (v : List Byte) (s : State) : (setObj i j v s).supvAt = s.supvAt := rfl
@[simp] theorem setObj_trip (i j : Nat) (v : List Byte) (s : State) : (setObj i j v s).trip = s.trip := rfl
@[simp] theorem setObj_pairSeq (i j : Nat) (v : List Byte) (s : State) : (setObj i j v s).pairSeq = s.pairSeq := rfl
@[simp] theorem setObj_gtimer (i j : Nat) (v : List Byte) (s : State) : (setObj i j v s).gtimer = s.gtimer := rfl
@[simp] theorem setObj_gocbTail (i j : Nat) (v : List Byte) (s : State) : (setObj i j v s).gocbTail = s.gocbTail := rfl
@[simp] theorem setObj_bins (i j : Nat) (v : List Byte) (s : State) : (setObj i j v s).bins = s.bins := rfl
@[simp] theorem setObj_binSeq (i j : Nat) (v : List Byte) (s : State) : (setObj i j v s).binSeq = s.binSeq := rfl
@[simp] theorem setObj_irig (i j : Nat) (v : List Byte) (s : State) : (setObj i j v s).irig = s.irig := rfl
@[simp] theorem setObj_pps (i j : Nat) (v : List Byte) (s : State) : (setObj i j v s).pps = s.pps := rfl
@[simp] theorem setObj_ptp (i j : Nat) (v : List Byte) (s : State) : (setObj i j v s).ptp = s.ptp := rfl
@[simp] theorem setObj_outs (i j : Nat) (v : List Byte) (s : State) : (setObj i j v s).outs = s.outs := rfl
@[simp] theorem setObj_blks (i j : Nat) (v : List Byte) (s : State) : (setObj i j v s).blks = s.blks := rfl
@[simp] theorem setObj_vin (i j : Nat) (v : List Byte) (s : State) : (setObj i j v s).vin = s.vin := rfl
@[simp] theorem setObj_tx (i j : Nat) (v : List Byte) (s : State) : (setObj i j v s).tx = s.tx := rfl
@[simp] theorem setObj_dma (i j : Nat) (v : List Byte) (s : State) : (setObj i j v s).dma = s.dma := rfl
@[simp] theorem setObj_dev (i j : Nat) (v : List Byte) (s : State) : (setObj i j v s).dev = s.dev := rfl
@[simp] theorem setObj_hubLost (i j : Nat) (v : List Byte) (s : State) : (setObj i j v s).hubLost = s.hubLost := rfl
@[simp] theorem setObj_fatal (i j : Nat) (v : List Byte) (s : State) : (setObj i j v s).fatal = s.fatal := rfl
@[simp] theorem setObj_log (i j : Nat) (v : List Byte) (s : State) : (setObj i j v s).log = s.log := rfl
@[simp] theorem setObj_tail (i j : Nat) (v : List Byte) (s : State) : (setObj i j v s).tail = s.tail := rfl
@[simp] theorem setObj_tailGen (i j : Nat) (v : List Byte) (s : State) : (setObj i j v s).tailGen = s.tailGen := rfl
@[simp] theorem setObj_tailPatch (i j : Nat) (v : List Byte) (s : State) : (setObj i j v s).tailPatch = s.tailPatch := rfl
@[simp] theorem setObj_logNext (i j : Nat) (v : List Byte) (s : State) : (setObj i j v s).logNext = s.logNext := rfl
@[simp] theorem setObj_logLost (i j : Nat) (v : List Byte) (s : State) : (setObj i j v s).logLost = s.logLost := rfl
@[simp] theorem setObj_mon (i j : Nat) (v : List Byte) (s : State) : (setObj i j v s).mon = s.mon := rfl
@[simp] theorem setObj_twin (i j : Nat) (v : List Byte) (s : State) : (setObj i j v s).twin = s.twin := rfl
@[simp] theorem setObj_chip (i j : Nat) (v : List Byte) (s : State) : (setObj i j v s).chip = s.chip := rfl
@[simp] theorem setObj_sec (i j : Nat) (v : List Byte) (s : State) : (setObj i j v s).sec = s.sec := rfl
@[simp] theorem setObj_sha (i j : Nat) (v : List Byte) (s : State) : (setObj i j v s).sha = s.sha := rfl
@[simp] theorem setObj_dict (i j : Nat) (v : List Byte) (s : State) : (setObj i j v s).dict = s.dict := rfl
@[simp] theorem setObj_dl (i j : Nat) (v : List Byte) (s : State) : (setObj i j v s).dl = s.dl := rfl
@[simp] theorem setObj_hw (i j : Nat) (v : List Byte) (s : State) : (setObj i j v s).hw = s.hw := rfl

/-! setSess -/

@[simp] theorem setSess_pending (n : Nat) (x : Sess) (s : State) : (setSess n x s).pending = s.pending := rfl
@[simp] theorem setSess_fresh (n : Nat) (x : Sess) (s : State) : (setSess n x s).fresh = s.fresh := rfl
@[simp] theorem setSess_cells (n : Nat) (x : Sess) (s : State) : (setSess n x s).cells = s.cells := rfl
@[simp] theorem setSess_mem (n : Nat) (x : Sess) (s : State) : (setSess n x s).mem = s.mem := rfl
@[simp] theorem setSess_tags (n : Nat) (x : Sess) (s : State) : (setSess n x s).tags = s.tags := rfl
@[simp] theorem setSess_caches (n : Nat) (x : Sess) (s : State) : (setSess n x s).caches = s.caches := rfl
@[simp] theorem setSess_regs (n : Nat) (x : Sess) (s : State) : (setSess n x s).regs = s.regs := rfl
@[simp] theorem setSess_time (n : Nat) (x : Sess) (s : State) : (setSess n x s).time = s.time := rfl
@[simp] theorem setSess_v128 (n : Nat) (x : Sess) (s : State) : (setSess n x s).v128 = s.v128 := rfl
@[simp] theorem setSess_striped (n : Nat) (x : Sess) (s : State) : (setSess n x s).striped = s.striped := rfl
@[simp] theorem setSess_fenced (n : Nat) (x : Sess) (s : State) : (setSess n x s).fenced = s.fenced := rfl
@[simp] theorem setSess_offline (n : Nat) (x : Sess) (s : State) : (setSess n x s).offline = s.offline := rfl
@[simp] theorem setSess_gatePend (n : Nat) (x : Sess) (s : State) : (setSess n x s).gatePend = s.gatePend := rfl
@[simp] theorem setSess_posts (n : Nat) (x : Sess) (s : State) : (setSess n x s).posts = s.posts := rfl
@[simp] theorem setSess_qman (n : Nat) (x : Sess) (s : State) : (setSess n x s).qman = s.qman := rfl
@[simp] theorem setSess_qcache (n : Nat) (x : Sess) (s : State) : (setSess n x s).qcache = s.qcache := rfl
@[simp] theorem setSess_qwait (n : Nat) (x : Sess) (s : State) : (setSess n x s).qwait = s.qwait := rfl
@[simp] theorem setSess_qReady (n : Nat) (x : Sess) (s : State) : (setSess n x s).qReady = s.qReady := rfl
@[simp] theorem setSess_qbaseSet (n : Nat) (x : Sess) (s : State) : (setSess n x s).qbaseSet = s.qbaseSet := rfl
@[simp] theorem setSess_links (n : Nat) (x : Sess) (s : State) : (setSess n x s).links = s.links := rfl
@[simp] theorem setSess_subs (n : Nat) (x : Sess) (s : State) : (setSess n x s).subs = s.subs := rfl
@[simp] theorem setSess_grids (n : Nat) (x : Sess) (s : State) : (setSess n x s).grids = s.grids := rfl
@[simp] theorem setSess_dups (n : Nat) (x : Sess) (s : State) : (setSess n x s).dups = s.dups := rfl
@[simp] theorem setSess_busLost (n : Nat) (x : Sess) (s : State) : (setSess n x s).busLost = s.busLost := rfl
@[simp] theorem setSess_qmet (n : Nat) (x : Sess) (s : State) : (setSess n x s).qmet = s.qmet := rfl
@[simp] theorem setSess_waits (n : Nat) (x : Sess) (s : State) : (setSess n x s).waits = s.waits := rfl
@[simp] theorem setSess_supvAt (n : Nat) (x : Sess) (s : State) : (setSess n x s).supvAt = s.supvAt := rfl
@[simp] theorem setSess_trip (n : Nat) (x : Sess) (s : State) : (setSess n x s).trip = s.trip := rfl
@[simp] theorem setSess_pairSeq (n : Nat) (x : Sess) (s : State) : (setSess n x s).pairSeq = s.pairSeq := rfl
@[simp] theorem setSess_gtimer (n : Nat) (x : Sess) (s : State) : (setSess n x s).gtimer = s.gtimer := rfl
@[simp] theorem setSess_gocbTail (n : Nat) (x : Sess) (s : State) : (setSess n x s).gocbTail = s.gocbTail := rfl
@[simp] theorem setSess_bins (n : Nat) (x : Sess) (s : State) : (setSess n x s).bins = s.bins := rfl
@[simp] theorem setSess_binSeq (n : Nat) (x : Sess) (s : State) : (setSess n x s).binSeq = s.binSeq := rfl
@[simp] theorem setSess_irig (n : Nat) (x : Sess) (s : State) : (setSess n x s).irig = s.irig := rfl
@[simp] theorem setSess_pps (n : Nat) (x : Sess) (s : State) : (setSess n x s).pps = s.pps := rfl
@[simp] theorem setSess_ptp (n : Nat) (x : Sess) (s : State) : (setSess n x s).ptp = s.ptp := rfl
@[simp] theorem setSess_outs (n : Nat) (x : Sess) (s : State) : (setSess n x s).outs = s.outs := rfl
@[simp] theorem setSess_blks (n : Nat) (x : Sess) (s : State) : (setSess n x s).blks = s.blks := rfl
@[simp] theorem setSess_vin (n : Nat) (x : Sess) (s : State) : (setSess n x s).vin = s.vin := rfl
@[simp] theorem setSess_tx (n : Nat) (x : Sess) (s : State) : (setSess n x s).tx = s.tx := rfl
@[simp] theorem setSess_dma (n : Nat) (x : Sess) (s : State) : (setSess n x s).dma = s.dma := rfl
@[simp] theorem setSess_dev (n : Nat) (x : Sess) (s : State) : (setSess n x s).dev = s.dev := rfl
@[simp] theorem setSess_hubLost (n : Nat) (x : Sess) (s : State) : (setSess n x s).hubLost = s.hubLost := rfl
@[simp] theorem setSess_fatal (n : Nat) (x : Sess) (s : State) : (setSess n x s).fatal = s.fatal := rfl
@[simp] theorem setSess_log (n : Nat) (x : Sess) (s : State) : (setSess n x s).log = s.log := rfl
@[simp] theorem setSess_tail (n : Nat) (x : Sess) (s : State) : (setSess n x s).tail = s.tail := rfl
@[simp] theorem setSess_tailGen (n : Nat) (x : Sess) (s : State) : (setSess n x s).tailGen = s.tailGen := rfl
@[simp] theorem setSess_tailPatch (n : Nat) (x : Sess) (s : State) : (setSess n x s).tailPatch = s.tailPatch := rfl
@[simp] theorem setSess_logNext (n : Nat) (x : Sess) (s : State) : (setSess n x s).logNext = s.logNext := rfl
@[simp] theorem setSess_logLost (n : Nat) (x : Sess) (s : State) : (setSess n x s).logLost = s.logLost := rfl
@[simp] theorem setSess_objs (n : Nat) (x : Sess) (s : State) : (setSess n x s).objs = s.objs := rfl
@[simp] theorem setSess_mon (n : Nat) (x : Sess) (s : State) : (setSess n x s).mon = s.mon := rfl
@[simp] theorem setSess_twin (n : Nat) (x : Sess) (s : State) : (setSess n x s).twin = s.twin := rfl
@[simp] theorem setSess_chip (n : Nat) (x : Sess) (s : State) : (setSess n x s).chip = s.chip := rfl
@[simp] theorem setSess_sec (n : Nat) (x : Sess) (s : State) : (setSess n x s).sec = s.sec := rfl
@[simp] theorem setSess_sha (n : Nat) (x : Sess) (s : State) : (setSess n x s).sha = s.sha := rfl
@[simp] theorem setSess_dict (n : Nat) (x : Sess) (s : State) : (setSess n x s).dict = s.dict := rfl
@[simp] theorem setSess_hw (n : Nat) (x : Sess) (s : State) : (setSess n x s).hw = s.hw := rfl

/-! setSub -/

@[simp] theorem setSub_pending (n : Nat) (x : SubSt) (s : State) : (setSub n x s).pending = s.pending := rfl
@[simp] theorem setSub_fresh (n : Nat) (x : SubSt) (s : State) : (setSub n x s).fresh = s.fresh := rfl
@[simp] theorem setSub_cells (n : Nat) (x : SubSt) (s : State) : (setSub n x s).cells = s.cells := rfl
@[simp] theorem setSub_mem (n : Nat) (x : SubSt) (s : State) : (setSub n x s).mem = s.mem := rfl
@[simp] theorem setSub_tags (n : Nat) (x : SubSt) (s : State) : (setSub n x s).tags = s.tags := rfl
@[simp] theorem setSub_caches (n : Nat) (x : SubSt) (s : State) : (setSub n x s).caches = s.caches := rfl
@[simp] theorem setSub_regs (n : Nat) (x : SubSt) (s : State) : (setSub n x s).regs = s.regs := rfl
@[simp] theorem setSub_time (n : Nat) (x : SubSt) (s : State) : (setSub n x s).time = s.time := rfl
@[simp] theorem setSub_v128 (n : Nat) (x : SubSt) (s : State) : (setSub n x s).v128 = s.v128 := rfl
@[simp] theorem setSub_striped (n : Nat) (x : SubSt) (s : State) : (setSub n x s).striped = s.striped := rfl
@[simp] theorem setSub_fenced (n : Nat) (x : SubSt) (s : State) : (setSub n x s).fenced = s.fenced := rfl
@[simp] theorem setSub_offline (n : Nat) (x : SubSt) (s : State) : (setSub n x s).offline = s.offline := rfl
@[simp] theorem setSub_gatePend (n : Nat) (x : SubSt) (s : State) : (setSub n x s).gatePend = s.gatePend := rfl
@[simp] theorem setSub_posts (n : Nat) (x : SubSt) (s : State) : (setSub n x s).posts = s.posts := rfl
@[simp] theorem setSub_qman (n : Nat) (x : SubSt) (s : State) : (setSub n x s).qman = s.qman := rfl
@[simp] theorem setSub_qcache (n : Nat) (x : SubSt) (s : State) : (setSub n x s).qcache = s.qcache := rfl
@[simp] theorem setSub_qwait (n : Nat) (x : SubSt) (s : State) : (setSub n x s).qwait = s.qwait := rfl
@[simp] theorem setSub_qReady (n : Nat) (x : SubSt) (s : State) : (setSub n x s).qReady = s.qReady := rfl
@[simp] theorem setSub_qbaseSet (n : Nat) (x : SubSt) (s : State) : (setSub n x s).qbaseSet = s.qbaseSet := rfl
@[simp] theorem setSub_links (n : Nat) (x : SubSt) (s : State) : (setSub n x s).links = s.links := rfl
@[simp] theorem setSub_grids (n : Nat) (x : SubSt) (s : State) : (setSub n x s).grids = s.grids := rfl
@[simp] theorem setSub_dups (n : Nat) (x : SubSt) (s : State) : (setSub n x s).dups = s.dups := rfl
@[simp] theorem setSub_busLost (n : Nat) (x : SubSt) (s : State) : (setSub n x s).busLost = s.busLost := rfl
@[simp] theorem setSub_qmet (n : Nat) (x : SubSt) (s : State) : (setSub n x s).qmet = s.qmet := rfl
@[simp] theorem setSub_waits (n : Nat) (x : SubSt) (s : State) : (setSub n x s).waits = s.waits := rfl
@[simp] theorem setSub_supvAt (n : Nat) (x : SubSt) (s : State) : (setSub n x s).supvAt = s.supvAt := rfl
@[simp] theorem setSub_trip (n : Nat) (x : SubSt) (s : State) : (setSub n x s).trip = s.trip := rfl
@[simp] theorem setSub_pairSeq (n : Nat) (x : SubSt) (s : State) : (setSub n x s).pairSeq = s.pairSeq := rfl
@[simp] theorem setSub_gtimer (n : Nat) (x : SubSt) (s : State) : (setSub n x s).gtimer = s.gtimer := rfl
@[simp] theorem setSub_gocbTail (n : Nat) (x : SubSt) (s : State) : (setSub n x s).gocbTail = s.gocbTail := rfl
@[simp] theorem setSub_bins (n : Nat) (x : SubSt) (s : State) : (setSub n x s).bins = s.bins := rfl
@[simp] theorem setSub_binSeq (n : Nat) (x : SubSt) (s : State) : (setSub n x s).binSeq = s.binSeq := rfl
@[simp] theorem setSub_irig (n : Nat) (x : SubSt) (s : State) : (setSub n x s).irig = s.irig := rfl
@[simp] theorem setSub_pps (n : Nat) (x : SubSt) (s : State) : (setSub n x s).pps = s.pps := rfl
@[simp] theorem setSub_ptp (n : Nat) (x : SubSt) (s : State) : (setSub n x s).ptp = s.ptp := rfl
@[simp] theorem setSub_outs (n : Nat) (x : SubSt) (s : State) : (setSub n x s).outs = s.outs := rfl
@[simp] theorem setSub_blks (n : Nat) (x : SubSt) (s : State) : (setSub n x s).blks = s.blks := rfl
@[simp] theorem setSub_vin (n : Nat) (x : SubSt) (s : State) : (setSub n x s).vin = s.vin := rfl
@[simp] theorem setSub_tx (n : Nat) (x : SubSt) (s : State) : (setSub n x s).tx = s.tx := rfl
@[simp] theorem setSub_dma (n : Nat) (x : SubSt) (s : State) : (setSub n x s).dma = s.dma := rfl
@[simp] theorem setSub_dev (n : Nat) (x : SubSt) (s : State) : (setSub n x s).dev = s.dev := rfl
@[simp] theorem setSub_hubLost (n : Nat) (x : SubSt) (s : State) : (setSub n x s).hubLost = s.hubLost := rfl
@[simp] theorem setSub_fatal (n : Nat) (x : SubSt) (s : State) : (setSub n x s).fatal = s.fatal := rfl
@[simp] theorem setSub_log (n : Nat) (x : SubSt) (s : State) : (setSub n x s).log = s.log := rfl
@[simp] theorem setSub_tail (n : Nat) (x : SubSt) (s : State) : (setSub n x s).tail = s.tail := rfl
@[simp] theorem setSub_tailGen (n : Nat) (x : SubSt) (s : State) : (setSub n x s).tailGen = s.tailGen := rfl
@[simp] theorem setSub_tailPatch (n : Nat) (x : SubSt) (s : State) : (setSub n x s).tailPatch = s.tailPatch := rfl
@[simp] theorem setSub_logNext (n : Nat) (x : SubSt) (s : State) : (setSub n x s).logNext = s.logNext := rfl
@[simp] theorem setSub_logLost (n : Nat) (x : SubSt) (s : State) : (setSub n x s).logLost = s.logLost := rfl
@[simp] theorem setSub_objs (n : Nat) (x : SubSt) (s : State) : (setSub n x s).objs = s.objs := rfl
@[simp] theorem setSub_mon (n : Nat) (x : SubSt) (s : State) : (setSub n x s).mon = s.mon := rfl
@[simp] theorem setSub_twin (n : Nat) (x : SubSt) (s : State) : (setSub n x s).twin = s.twin := rfl
@[simp] theorem setSub_chip (n : Nat) (x : SubSt) (s : State) : (setSub n x s).chip = s.chip := rfl
@[simp] theorem setSub_sec (n : Nat) (x : SubSt) (s : State) : (setSub n x s).sec = s.sec := rfl
@[simp] theorem setSub_sha (n : Nat) (x : SubSt) (s : State) : (setSub n x s).sha = s.sha := rfl
@[simp] theorem setSub_dict (n : Nat) (x : SubSt) (s : State) : (setSub n x s).dict = s.dict := rfl
@[simp] theorem setSub_dl (n : Nat) (x : SubSt) (s : State) : (setSub n x s).dl = s.dl := rfl
@[simp] theorem setSub_hw (n : Nat) (x : SubSt) (s : State) : (setSub n x s).hw = s.hw := rfl

/-! setDups -/

@[simp] theorem setDups_pending (p : Nat) (l : List DupEntry) (s : State) : (setDups p l s).pending = s.pending := rfl
@[simp] theorem setDups_fresh (p : Nat) (l : List DupEntry) (s : State) : (setDups p l s).fresh = s.fresh := rfl
@[simp] theorem setDups_cells (p : Nat) (l : List DupEntry) (s : State) : (setDups p l s).cells = s.cells := rfl
@[simp] theorem setDups_mem (p : Nat) (l : List DupEntry) (s : State) : (setDups p l s).mem = s.mem := rfl
@[simp] theorem setDups_tags (p : Nat) (l : List DupEntry) (s : State) : (setDups p l s).tags = s.tags := rfl
@[simp] theorem setDups_caches (p : Nat) (l : List DupEntry) (s : State) : (setDups p l s).caches = s.caches := rfl
@[simp] theorem setDups_regs (p : Nat) (l : List DupEntry) (s : State) : (setDups p l s).regs = s.regs := rfl
@[simp] theorem setDups_time (p : Nat) (l : List DupEntry) (s : State) : (setDups p l s).time = s.time := rfl
@[simp] theorem setDups_v128 (p : Nat) (l : List DupEntry) (s : State) : (setDups p l s).v128 = s.v128 := rfl
@[simp] theorem setDups_striped (p : Nat) (l : List DupEntry) (s : State) : (setDups p l s).striped = s.striped := rfl
@[simp] theorem setDups_fenced (p : Nat) (l : List DupEntry) (s : State) : (setDups p l s).fenced = s.fenced := rfl
@[simp] theorem setDups_offline (p : Nat) (l : List DupEntry) (s : State) : (setDups p l s).offline = s.offline := rfl
@[simp] theorem setDups_gatePend (p : Nat) (l : List DupEntry) (s : State) : (setDups p l s).gatePend = s.gatePend := rfl
@[simp] theorem setDups_posts (p : Nat) (l : List DupEntry) (s : State) : (setDups p l s).posts = s.posts := rfl
@[simp] theorem setDups_qman (p : Nat) (l : List DupEntry) (s : State) : (setDups p l s).qman = s.qman := rfl
@[simp] theorem setDups_qcache (p : Nat) (l : List DupEntry) (s : State) : (setDups p l s).qcache = s.qcache := rfl
@[simp] theorem setDups_qwait (p : Nat) (l : List DupEntry) (s : State) : (setDups p l s).qwait = s.qwait := rfl
@[simp] theorem setDups_qReady (p : Nat) (l : List DupEntry) (s : State) : (setDups p l s).qReady = s.qReady := rfl
@[simp] theorem setDups_qbaseSet (p : Nat) (l : List DupEntry) (s : State) : (setDups p l s).qbaseSet = s.qbaseSet := rfl
@[simp] theorem setDups_links (p : Nat) (l : List DupEntry) (s : State) : (setDups p l s).links = s.links := rfl
@[simp] theorem setDups_subs (p : Nat) (l : List DupEntry) (s : State) : (setDups p l s).subs = s.subs := rfl
@[simp] theorem setDups_grids (p : Nat) (l : List DupEntry) (s : State) : (setDups p l s).grids = s.grids := rfl
@[simp] theorem setDups_busLost (p : Nat) (l : List DupEntry) (s : State) : (setDups p l s).busLost = s.busLost := rfl
@[simp] theorem setDups_qmet (p : Nat) (l : List DupEntry) (s : State) : (setDups p l s).qmet = s.qmet := rfl
@[simp] theorem setDups_waits (p : Nat) (l : List DupEntry) (s : State) : (setDups p l s).waits = s.waits := rfl
@[simp] theorem setDups_supvAt (p : Nat) (l : List DupEntry) (s : State) : (setDups p l s).supvAt = s.supvAt := rfl
@[simp] theorem setDups_trip (p : Nat) (l : List DupEntry) (s : State) : (setDups p l s).trip = s.trip := rfl
@[simp] theorem setDups_pairSeq (p : Nat) (l : List DupEntry) (s : State) : (setDups p l s).pairSeq = s.pairSeq := rfl
@[simp] theorem setDups_gtimer (p : Nat) (l : List DupEntry) (s : State) : (setDups p l s).gtimer = s.gtimer := rfl
@[simp] theorem setDups_gocbTail (p : Nat) (l : List DupEntry) (s : State) : (setDups p l s).gocbTail = s.gocbTail := rfl
@[simp] theorem setDups_bins (p : Nat) (l : List DupEntry) (s : State) : (setDups p l s).bins = s.bins := rfl
@[simp] theorem setDups_binSeq (p : Nat) (l : List DupEntry) (s : State) : (setDups p l s).binSeq = s.binSeq := rfl
@[simp] theorem setDups_irig (p : Nat) (l : List DupEntry) (s : State) : (setDups p l s).irig = s.irig := rfl
@[simp] theorem setDups_pps (p : Nat) (l : List DupEntry) (s : State) : (setDups p l s).pps = s.pps := rfl
@[simp] theorem setDups_ptp (p : Nat) (l : List DupEntry) (s : State) : (setDups p l s).ptp = s.ptp := rfl
@[simp] theorem setDups_outs (p : Nat) (l : List DupEntry) (s : State) : (setDups p l s).outs = s.outs := rfl
@[simp] theorem setDups_blks (p : Nat) (l : List DupEntry) (s : State) : (setDups p l s).blks = s.blks := rfl
@[simp] theorem setDups_vin (p : Nat) (l : List DupEntry) (s : State) : (setDups p l s).vin = s.vin := rfl
@[simp] theorem setDups_tx (p : Nat) (l : List DupEntry) (s : State) : (setDups p l s).tx = s.tx := rfl
@[simp] theorem setDups_dma (p : Nat) (l : List DupEntry) (s : State) : (setDups p l s).dma = s.dma := rfl
@[simp] theorem setDups_dev (p : Nat) (l : List DupEntry) (s : State) : (setDups p l s).dev = s.dev := rfl
@[simp] theorem setDups_hubLost (p : Nat) (l : List DupEntry) (s : State) : (setDups p l s).hubLost = s.hubLost := rfl
@[simp] theorem setDups_fatal (p : Nat) (l : List DupEntry) (s : State) : (setDups p l s).fatal = s.fatal := rfl
@[simp] theorem setDups_log (p : Nat) (l : List DupEntry) (s : State) : (setDups p l s).log = s.log := rfl
@[simp] theorem setDups_tail (p : Nat) (l : List DupEntry) (s : State) : (setDups p l s).tail = s.tail := rfl
@[simp] theorem setDups_tailGen (p : Nat) (l : List DupEntry) (s : State) : (setDups p l s).tailGen = s.tailGen := rfl
@[simp] theorem setDups_tailPatch (p : Nat) (l : List DupEntry) (s : State) : (setDups p l s).tailPatch = s.tailPatch := rfl
@[simp] theorem setDups_logNext (p : Nat) (l : List DupEntry) (s : State) : (setDups p l s).logNext = s.logNext := rfl
@[simp] theorem setDups_logLost (p : Nat) (l : List DupEntry) (s : State) : (setDups p l s).logLost = s.logLost := rfl
@[simp] theorem setDups_objs (p : Nat) (l : List DupEntry) (s : State) : (setDups p l s).objs = s.objs := rfl
@[simp] theorem setDups_mon (p : Nat) (l : List DupEntry) (s : State) : (setDups p l s).mon = s.mon := rfl
@[simp] theorem setDups_twin (p : Nat) (l : List DupEntry) (s : State) : (setDups p l s).twin = s.twin := rfl
@[simp] theorem setDups_chip (p : Nat) (l : List DupEntry) (s : State) : (setDups p l s).chip = s.chip := rfl
@[simp] theorem setDups_sec (p : Nat) (l : List DupEntry) (s : State) : (setDups p l s).sec = s.sec := rfl
@[simp] theorem setDups_sha (p : Nat) (l : List DupEntry) (s : State) : (setDups p l s).sha = s.sha := rfl
@[simp] theorem setDups_dict (p : Nat) (l : List DupEntry) (s : State) : (setDups p l s).dict = s.dict := rfl
@[simp] theorem setDups_dl (p : Nat) (l : List DupEntry) (s : State) : (setDups p l s).dl = s.dl := rfl
@[simp] theorem setDups_hw (p : Nat) (l : List DupEntry) (s : State) : (setDups p l s).hw = s.hw := rfl

/-! setGrid -/

@[simp] theorem setGrid_pending (g : Nat) (x : GridSt) (s : State) : (setGrid g x s).pending = s.pending := rfl
@[simp] theorem setGrid_fresh (g : Nat) (x : GridSt) (s : State) : (setGrid g x s).fresh = s.fresh := rfl
@[simp] theorem setGrid_cells (g : Nat) (x : GridSt) (s : State) : (setGrid g x s).cells = s.cells := rfl
@[simp] theorem setGrid_mem (g : Nat) (x : GridSt) (s : State) : (setGrid g x s).mem = s.mem := rfl
@[simp] theorem setGrid_tags (g : Nat) (x : GridSt) (s : State) : (setGrid g x s).tags = s.tags := rfl
@[simp] theorem setGrid_caches (g : Nat) (x : GridSt) (s : State) : (setGrid g x s).caches = s.caches := rfl
@[simp] theorem setGrid_regs (g : Nat) (x : GridSt) (s : State) : (setGrid g x s).regs = s.regs := rfl
@[simp] theorem setGrid_time (g : Nat) (x : GridSt) (s : State) : (setGrid g x s).time = s.time := rfl
@[simp] theorem setGrid_v128 (g : Nat) (x : GridSt) (s : State) : (setGrid g x s).v128 = s.v128 := rfl
@[simp] theorem setGrid_striped (g : Nat) (x : GridSt) (s : State) : (setGrid g x s).striped = s.striped := rfl
@[simp] theorem setGrid_fenced (g : Nat) (x : GridSt) (s : State) : (setGrid g x s).fenced = s.fenced := rfl
@[simp] theorem setGrid_offline (g : Nat) (x : GridSt) (s : State) : (setGrid g x s).offline = s.offline := rfl
@[simp] theorem setGrid_gatePend (g : Nat) (x : GridSt) (s : State) : (setGrid g x s).gatePend = s.gatePend := rfl
@[simp] theorem setGrid_posts (g : Nat) (x : GridSt) (s : State) : (setGrid g x s).posts = s.posts := rfl
@[simp] theorem setGrid_qman (g : Nat) (x : GridSt) (s : State) : (setGrid g x s).qman = s.qman := rfl
@[simp] theorem setGrid_qcache (g : Nat) (x : GridSt) (s : State) : (setGrid g x s).qcache = s.qcache := rfl
@[simp] theorem setGrid_qwait (g : Nat) (x : GridSt) (s : State) : (setGrid g x s).qwait = s.qwait := rfl
@[simp] theorem setGrid_qReady (g : Nat) (x : GridSt) (s : State) : (setGrid g x s).qReady = s.qReady := rfl
@[simp] theorem setGrid_qbaseSet (g : Nat) (x : GridSt) (s : State) : (setGrid g x s).qbaseSet = s.qbaseSet := rfl
@[simp] theorem setGrid_links (g : Nat) (x : GridSt) (s : State) : (setGrid g x s).links = s.links := rfl
@[simp] theorem setGrid_subs (g : Nat) (x : GridSt) (s : State) : (setGrid g x s).subs = s.subs := rfl
@[simp] theorem setGrid_dups (g : Nat) (x : GridSt) (s : State) : (setGrid g x s).dups = s.dups := rfl
@[simp] theorem setGrid_busLost (g : Nat) (x : GridSt) (s : State) : (setGrid g x s).busLost = s.busLost := rfl
@[simp] theorem setGrid_qmet (g : Nat) (x : GridSt) (s : State) : (setGrid g x s).qmet = s.qmet := rfl
@[simp] theorem setGrid_waits (g : Nat) (x : GridSt) (s : State) : (setGrid g x s).waits = s.waits := rfl
@[simp] theorem setGrid_supvAt (g : Nat) (x : GridSt) (s : State) : (setGrid g x s).supvAt = s.supvAt := rfl
@[simp] theorem setGrid_trip (g : Nat) (x : GridSt) (s : State) : (setGrid g x s).trip = s.trip := rfl
@[simp] theorem setGrid_pairSeq (g : Nat) (x : GridSt) (s : State) : (setGrid g x s).pairSeq = s.pairSeq := rfl
@[simp] theorem setGrid_gtimer (g : Nat) (x : GridSt) (s : State) : (setGrid g x s).gtimer = s.gtimer := rfl
@[simp] theorem setGrid_gocbTail (g : Nat) (x : GridSt) (s : State) : (setGrid g x s).gocbTail = s.gocbTail := rfl
@[simp] theorem setGrid_bins (g : Nat) (x : GridSt) (s : State) : (setGrid g x s).bins = s.bins := rfl
@[simp] theorem setGrid_binSeq (g : Nat) (x : GridSt) (s : State) : (setGrid g x s).binSeq = s.binSeq := rfl
@[simp] theorem setGrid_irig (g : Nat) (x : GridSt) (s : State) : (setGrid g x s).irig = s.irig := rfl
@[simp] theorem setGrid_pps (g : Nat) (x : GridSt) (s : State) : (setGrid g x s).pps = s.pps := rfl
@[simp] theorem setGrid_ptp (g : Nat) (x : GridSt) (s : State) : (setGrid g x s).ptp = s.ptp := rfl
@[simp] theorem setGrid_outs (g : Nat) (x : GridSt) (s : State) : (setGrid g x s).outs = s.outs := rfl
@[simp] theorem setGrid_blks (g : Nat) (x : GridSt) (s : State) : (setGrid g x s).blks = s.blks := rfl
@[simp] theorem setGrid_vin (g : Nat) (x : GridSt) (s : State) : (setGrid g x s).vin = s.vin := rfl
@[simp] theorem setGrid_tx (g : Nat) (x : GridSt) (s : State) : (setGrid g x s).tx = s.tx := rfl
@[simp] theorem setGrid_dma (g : Nat) (x : GridSt) (s : State) : (setGrid g x s).dma = s.dma := rfl
@[simp] theorem setGrid_dev (g : Nat) (x : GridSt) (s : State) : (setGrid g x s).dev = s.dev := rfl
@[simp] theorem setGrid_hubLost (g : Nat) (x : GridSt) (s : State) : (setGrid g x s).hubLost = s.hubLost := rfl
@[simp] theorem setGrid_fatal (g : Nat) (x : GridSt) (s : State) : (setGrid g x s).fatal = s.fatal := rfl
@[simp] theorem setGrid_log (g : Nat) (x : GridSt) (s : State) : (setGrid g x s).log = s.log := rfl
@[simp] theorem setGrid_tail (g : Nat) (x : GridSt) (s : State) : (setGrid g x s).tail = s.tail := rfl
@[simp] theorem setGrid_tailGen (g : Nat) (x : GridSt) (s : State) : (setGrid g x s).tailGen = s.tailGen := rfl
@[simp] theorem setGrid_tailPatch (g : Nat) (x : GridSt) (s : State) : (setGrid g x s).tailPatch = s.tailPatch := rfl
@[simp] theorem setGrid_logNext (g : Nat) (x : GridSt) (s : State) : (setGrid g x s).logNext = s.logNext := rfl
@[simp] theorem setGrid_logLost (g : Nat) (x : GridSt) (s : State) : (setGrid g x s).logLost = s.logLost := rfl
@[simp] theorem setGrid_objs (g : Nat) (x : GridSt) (s : State) : (setGrid g x s).objs = s.objs := rfl
@[simp] theorem setGrid_mon (g : Nat) (x : GridSt) (s : State) : (setGrid g x s).mon = s.mon := rfl
@[simp] theorem setGrid_twin (g : Nat) (x : GridSt) (s : State) : (setGrid g x s).twin = s.twin := rfl
@[simp] theorem setGrid_chip (g : Nat) (x : GridSt) (s : State) : (setGrid g x s).chip = s.chip := rfl
@[simp] theorem setGrid_sec (g : Nat) (x : GridSt) (s : State) : (setGrid g x s).sec = s.sec := rfl
@[simp] theorem setGrid_sha (g : Nat) (x : GridSt) (s : State) : (setGrid g x s).sha = s.sha := rfl
@[simp] theorem setGrid_dict (g : Nat) (x : GridSt) (s : State) : (setGrid g x s).dict = s.dict := rfl
@[simp] theorem setGrid_dl (g : Nat) (x : GridSt) (s : State) : (setGrid g x s).dl = s.dl := rfl
@[simp] theorem setGrid_hw (g : Nat) (x : GridSt) (s : State) : (setGrid g x s).hw = s.hw := rfl

/-! setTrip -/

@[simp] theorem setTrip_pending (n : Nat) (o : TripObj) (s : State) : (setTrip n o s).pending = s.pending := rfl
@[simp] theorem setTrip_fresh (n : Nat) (o : TripObj) (s : State) : (setTrip n o s).fresh = s.fresh := rfl
@[simp] theorem setTrip_cells (n : Nat) (o : TripObj) (s : State) : (setTrip n o s).cells = s.cells := rfl
@[simp] theorem setTrip_mem (n : Nat) (o : TripObj) (s : State) : (setTrip n o s).mem = s.mem := rfl
@[simp] theorem setTrip_tags (n : Nat) (o : TripObj) (s : State) : (setTrip n o s).tags = s.tags := rfl
@[simp] theorem setTrip_caches (n : Nat) (o : TripObj) (s : State) : (setTrip n o s).caches = s.caches := rfl
@[simp] theorem setTrip_regs (n : Nat) (o : TripObj) (s : State) : (setTrip n o s).regs = s.regs := rfl
@[simp] theorem setTrip_time (n : Nat) (o : TripObj) (s : State) : (setTrip n o s).time = s.time := rfl
@[simp] theorem setTrip_v128 (n : Nat) (o : TripObj) (s : State) : (setTrip n o s).v128 = s.v128 := rfl
@[simp] theorem setTrip_striped (n : Nat) (o : TripObj) (s : State) : (setTrip n o s).striped = s.striped := rfl
@[simp] theorem setTrip_fenced (n : Nat) (o : TripObj) (s : State) : (setTrip n o s).fenced = s.fenced := rfl
@[simp] theorem setTrip_offline (n : Nat) (o : TripObj) (s : State) : (setTrip n o s).offline = s.offline := rfl
@[simp] theorem setTrip_gatePend (n : Nat) (o : TripObj) (s : State) : (setTrip n o s).gatePend = s.gatePend := rfl
@[simp] theorem setTrip_posts (n : Nat) (o : TripObj) (s : State) : (setTrip n o s).posts = s.posts := rfl
@[simp] theorem setTrip_qman (n : Nat) (o : TripObj) (s : State) : (setTrip n o s).qman = s.qman := rfl
@[simp] theorem setTrip_qcache (n : Nat) (o : TripObj) (s : State) : (setTrip n o s).qcache = s.qcache := rfl
@[simp] theorem setTrip_qwait (n : Nat) (o : TripObj) (s : State) : (setTrip n o s).qwait = s.qwait := rfl
@[simp] theorem setTrip_qReady (n : Nat) (o : TripObj) (s : State) : (setTrip n o s).qReady = s.qReady := rfl
@[simp] theorem setTrip_qbaseSet (n : Nat) (o : TripObj) (s : State) : (setTrip n o s).qbaseSet = s.qbaseSet := rfl
@[simp] theorem setTrip_links (n : Nat) (o : TripObj) (s : State) : (setTrip n o s).links = s.links := rfl
@[simp] theorem setTrip_subs (n : Nat) (o : TripObj) (s : State) : (setTrip n o s).subs = s.subs := rfl
@[simp] theorem setTrip_grids (n : Nat) (o : TripObj) (s : State) : (setTrip n o s).grids = s.grids := rfl
@[simp] theorem setTrip_dups (n : Nat) (o : TripObj) (s : State) : (setTrip n o s).dups = s.dups := rfl
@[simp] theorem setTrip_busLost (n : Nat) (o : TripObj) (s : State) : (setTrip n o s).busLost = s.busLost := rfl
@[simp] theorem setTrip_qmet (n : Nat) (o : TripObj) (s : State) : (setTrip n o s).qmet = s.qmet := rfl
@[simp] theorem setTrip_waits (n : Nat) (o : TripObj) (s : State) : (setTrip n o s).waits = s.waits := rfl
@[simp] theorem setTrip_supvAt (n : Nat) (o : TripObj) (s : State) : (setTrip n o s).supvAt = s.supvAt := rfl
@[simp] theorem setTrip_pairSeq (n : Nat) (o : TripObj) (s : State) : (setTrip n o s).pairSeq = s.pairSeq := rfl
@[simp] theorem setTrip_gtimer (n : Nat) (o : TripObj) (s : State) : (setTrip n o s).gtimer = s.gtimer := rfl
@[simp] theorem setTrip_gocbTail (n : Nat) (o : TripObj) (s : State) : (setTrip n o s).gocbTail = s.gocbTail := rfl
@[simp] theorem setTrip_bins (n : Nat) (o : TripObj) (s : State) : (setTrip n o s).bins = s.bins := rfl
@[simp] theorem setTrip_binSeq (n : Nat) (o : TripObj) (s : State) : (setTrip n o s).binSeq = s.binSeq := rfl
@[simp] theorem setTrip_irig (n : Nat) (o : TripObj) (s : State) : (setTrip n o s).irig = s.irig := rfl
@[simp] theorem setTrip_pps (n : Nat) (o : TripObj) (s : State) : (setTrip n o s).pps = s.pps := rfl
@[simp] theorem setTrip_ptp (n : Nat) (o : TripObj) (s : State) : (setTrip n o s).ptp = s.ptp := rfl
@[simp] theorem setTrip_outs (n : Nat) (o : TripObj) (s : State) : (setTrip n o s).outs = s.outs := rfl
@[simp] theorem setTrip_blks (n : Nat) (o : TripObj) (s : State) : (setTrip n o s).blks = s.blks := rfl
@[simp] theorem setTrip_vin (n : Nat) (o : TripObj) (s : State) : (setTrip n o s).vin = s.vin := rfl
@[simp] theorem setTrip_tx (n : Nat) (o : TripObj) (s : State) : (setTrip n o s).tx = s.tx := rfl
@[simp] theorem setTrip_dma (n : Nat) (o : TripObj) (s : State) : (setTrip n o s).dma = s.dma := rfl
@[simp] theorem setTrip_dev (n : Nat) (o : TripObj) (s : State) : (setTrip n o s).dev = s.dev := rfl
@[simp] theorem setTrip_hubLost (n : Nat) (o : TripObj) (s : State) : (setTrip n o s).hubLost = s.hubLost := rfl
@[simp] theorem setTrip_fatal (n : Nat) (o : TripObj) (s : State) : (setTrip n o s).fatal = s.fatal := rfl
@[simp] theorem setTrip_log (n : Nat) (o : TripObj) (s : State) : (setTrip n o s).log = s.log := rfl
@[simp] theorem setTrip_tail (n : Nat) (o : TripObj) (s : State) : (setTrip n o s).tail = s.tail := rfl
@[simp] theorem setTrip_tailGen (n : Nat) (o : TripObj) (s : State) : (setTrip n o s).tailGen = s.tailGen := rfl
@[simp] theorem setTrip_tailPatch (n : Nat) (o : TripObj) (s : State) : (setTrip n o s).tailPatch = s.tailPatch := rfl
@[simp] theorem setTrip_logNext (n : Nat) (o : TripObj) (s : State) : (setTrip n o s).logNext = s.logNext := rfl
@[simp] theorem setTrip_logLost (n : Nat) (o : TripObj) (s : State) : (setTrip n o s).logLost = s.logLost := rfl
@[simp] theorem setTrip_objs (n : Nat) (o : TripObj) (s : State) : (setTrip n o s).objs = s.objs := rfl
@[simp] theorem setTrip_mon (n : Nat) (o : TripObj) (s : State) : (setTrip n o s).mon = s.mon := rfl
@[simp] theorem setTrip_twin (n : Nat) (o : TripObj) (s : State) : (setTrip n o s).twin = s.twin := rfl
@[simp] theorem setTrip_chip (n : Nat) (o : TripObj) (s : State) : (setTrip n o s).chip = s.chip := rfl
@[simp] theorem setTrip_sec (n : Nat) (o : TripObj) (s : State) : (setTrip n o s).sec = s.sec := rfl
@[simp] theorem setTrip_sha (n : Nat) (o : TripObj) (s : State) : (setTrip n o s).sha = s.sha := rfl
@[simp] theorem setTrip_dict (n : Nat) (o : TripObj) (s : State) : (setTrip n o s).dict = s.dict := rfl
@[simp] theorem setTrip_dl (n : Nat) (o : TripObj) (s : State) : (setTrip n o s).dl = s.dl := rfl
@[simp] theorem setTrip_hw (n : Nat) (o : TripObj) (s : State) : (setTrip n o s).hw = s.hw := rfl

/-! setPub -/

@[simp] theorem setPub_pending (p : Nat) (x : Pub) (s : State) : (setPub p x s).pending = s.pending := rfl
@[simp] theorem setPub_fresh (p : Nat) (x : Pub) (s : State) : (setPub p x s).fresh = s.fresh := rfl
@[simp] theorem setPub_cells (p : Nat) (x : Pub) (s : State) : (setPub p x s).cells = s.cells := rfl
@[simp] theorem setPub_mem (p : Nat) (x : Pub) (s : State) : (setPub p x s).mem = s.mem := rfl
@[simp] theorem setPub_tags (p : Nat) (x : Pub) (s : State) : (setPub p x s).tags = s.tags := rfl
@[simp] theorem setPub_caches (p : Nat) (x : Pub) (s : State) : (setPub p x s).caches = s.caches := rfl
@[simp] theorem setPub_regs (p : Nat) (x : Pub) (s : State) : (setPub p x s).regs = s.regs := rfl
@[simp] theorem setPub_time (p : Nat) (x : Pub) (s : State) : (setPub p x s).time = s.time := rfl
@[simp] theorem setPub_v128 (p : Nat) (x : Pub) (s : State) : (setPub p x s).v128 = s.v128 := rfl
@[simp] theorem setPub_striped (p : Nat) (x : Pub) (s : State) : (setPub p x s).striped = s.striped := rfl
@[simp] theorem setPub_fenced (p : Nat) (x : Pub) (s : State) : (setPub p x s).fenced = s.fenced := rfl
@[simp] theorem setPub_offline (p : Nat) (x : Pub) (s : State) : (setPub p x s).offline = s.offline := rfl
@[simp] theorem setPub_gatePend (p : Nat) (x : Pub) (s : State) : (setPub p x s).gatePend = s.gatePend := rfl
@[simp] theorem setPub_posts (p : Nat) (x : Pub) (s : State) : (setPub p x s).posts = s.posts := rfl
@[simp] theorem setPub_qman (p : Nat) (x : Pub) (s : State) : (setPub p x s).qman = s.qman := rfl
@[simp] theorem setPub_qcache (p : Nat) (x : Pub) (s : State) : (setPub p x s).qcache = s.qcache := rfl
@[simp] theorem setPub_qwait (p : Nat) (x : Pub) (s : State) : (setPub p x s).qwait = s.qwait := rfl
@[simp] theorem setPub_qReady (p : Nat) (x : Pub) (s : State) : (setPub p x s).qReady = s.qReady := rfl
@[simp] theorem setPub_qbaseSet (p : Nat) (x : Pub) (s : State) : (setPub p x s).qbaseSet = s.qbaseSet := rfl
@[simp] theorem setPub_links (p : Nat) (x : Pub) (s : State) : (setPub p x s).links = s.links := rfl
@[simp] theorem setPub_subs (p : Nat) (x : Pub) (s : State) : (setPub p x s).subs = s.subs := rfl
@[simp] theorem setPub_grids (p : Nat) (x : Pub) (s : State) : (setPub p x s).grids = s.grids := rfl
@[simp] theorem setPub_dups (p : Nat) (x : Pub) (s : State) : (setPub p x s).dups = s.dups := rfl
@[simp] theorem setPub_busLost (p : Nat) (x : Pub) (s : State) : (setPub p x s).busLost = s.busLost := rfl
@[simp] theorem setPub_qmet (p : Nat) (x : Pub) (s : State) : (setPub p x s).qmet = s.qmet := rfl
@[simp] theorem setPub_waits (p : Nat) (x : Pub) (s : State) : (setPub p x s).waits = s.waits := rfl
@[simp] theorem setPub_supvAt (p : Nat) (x : Pub) (s : State) : (setPub p x s).supvAt = s.supvAt := rfl
@[simp] theorem setPub_pairSeq (p : Nat) (x : Pub) (s : State) : (setPub p x s).pairSeq = s.pairSeq := rfl
@[simp] theorem setPub_gtimer (p : Nat) (x : Pub) (s : State) : (setPub p x s).gtimer = s.gtimer := rfl
@[simp] theorem setPub_gocbTail (p : Nat) (x : Pub) (s : State) : (setPub p x s).gocbTail = s.gocbTail := rfl
@[simp] theorem setPub_bins (p : Nat) (x : Pub) (s : State) : (setPub p x s).bins = s.bins := rfl
@[simp] theorem setPub_binSeq (p : Nat) (x : Pub) (s : State) : (setPub p x s).binSeq = s.binSeq := rfl
@[simp] theorem setPub_irig (p : Nat) (x : Pub) (s : State) : (setPub p x s).irig = s.irig := rfl
@[simp] theorem setPub_pps (p : Nat) (x : Pub) (s : State) : (setPub p x s).pps = s.pps := rfl
@[simp] theorem setPub_ptp (p : Nat) (x : Pub) (s : State) : (setPub p x s).ptp = s.ptp := rfl
@[simp] theorem setPub_outs (p : Nat) (x : Pub) (s : State) : (setPub p x s).outs = s.outs := rfl
@[simp] theorem setPub_blks (p : Nat) (x : Pub) (s : State) : (setPub p x s).blks = s.blks := rfl
@[simp] theorem setPub_vin (p : Nat) (x : Pub) (s : State) : (setPub p x s).vin = s.vin := rfl
@[simp] theorem setPub_tx (p : Nat) (x : Pub) (s : State) : (setPub p x s).tx = s.tx := rfl
@[simp] theorem setPub_dma (p : Nat) (x : Pub) (s : State) : (setPub p x s).dma = s.dma := rfl
@[simp] theorem setPub_dev (p : Nat) (x : Pub) (s : State) : (setPub p x s).dev = s.dev := rfl
@[simp] theorem setPub_hubLost (p : Nat) (x : Pub) (s : State) : (setPub p x s).hubLost = s.hubLost := rfl
@[simp] theorem setPub_fatal (p : Nat) (x : Pub) (s : State) : (setPub p x s).fatal = s.fatal := rfl
@[simp] theorem setPub_log (p : Nat) (x : Pub) (s : State) : (setPub p x s).log = s.log := rfl
@[simp] theorem setPub_tail (p : Nat) (x : Pub) (s : State) : (setPub p x s).tail = s.tail := rfl
@[simp] theorem setPub_tailGen (p : Nat) (x : Pub) (s : State) : (setPub p x s).tailGen = s.tailGen := rfl
@[simp] theorem setPub_tailPatch (p : Nat) (x : Pub) (s : State) : (setPub p x s).tailPatch = s.tailPatch := rfl
@[simp] theorem setPub_logNext (p : Nat) (x : Pub) (s : State) : (setPub p x s).logNext = s.logNext := rfl
@[simp] theorem setPub_logLost (p : Nat) (x : Pub) (s : State) : (setPub p x s).logLost = s.logLost := rfl
@[simp] theorem setPub_objs (p : Nat) (x : Pub) (s : State) : (setPub p x s).objs = s.objs := rfl
@[simp] theorem setPub_mon (p : Nat) (x : Pub) (s : State) : (setPub p x s).mon = s.mon := rfl
@[simp] theorem setPub_twin (p : Nat) (x : Pub) (s : State) : (setPub p x s).twin = s.twin := rfl
@[simp] theorem setPub_chip (p : Nat) (x : Pub) (s : State) : (setPub p x s).chip = s.chip := rfl
@[simp] theorem setPub_sec (p : Nat) (x : Pub) (s : State) : (setPub p x s).sec = s.sec := rfl
@[simp] theorem setPub_sha (p : Nat) (x : Pub) (s : State) : (setPub p x s).sha = s.sha := rfl
@[simp] theorem setPub_dict (p : Nat) (x : Pub) (s : State) : (setPub p x s).dict = s.dict := rfl
@[simp] theorem setPub_dl (p : Nat) (x : Pub) (s : State) : (setPub p x s).dl = s.dl := rfl
@[simp] theorem setPub_hw (p : Nat) (x : Pub) (s : State) : (setPub p x s).hw = s.hw := rfl

/-! setBin -/

@[simp] theorem setBin_pending (k : Nat) (x : BinSt) (s : State) : (setBin k x s).pending = s.pending := rfl
@[simp] theorem setBin_fresh (k : Nat) (x : BinSt) (s : State) : (setBin k x s).fresh = s.fresh := rfl
@[simp] theorem setBin_cells (k : Nat) (x : BinSt) (s : State) : (setBin k x s).cells = s.cells := rfl
@[simp] theorem setBin_mem (k : Nat) (x : BinSt) (s : State) : (setBin k x s).mem = s.mem := rfl
@[simp] theorem setBin_tags (k : Nat) (x : BinSt) (s : State) : (setBin k x s).tags = s.tags := rfl
@[simp] theorem setBin_caches (k : Nat) (x : BinSt) (s : State) : (setBin k x s).caches = s.caches := rfl
@[simp] theorem setBin_regs (k : Nat) (x : BinSt) (s : State) : (setBin k x s).regs = s.regs := rfl
@[simp] theorem setBin_time (k : Nat) (x : BinSt) (s : State) : (setBin k x s).time = s.time := rfl
@[simp] theorem setBin_v128 (k : Nat) (x : BinSt) (s : State) : (setBin k x s).v128 = s.v128 := rfl
@[simp] theorem setBin_striped (k : Nat) (x : BinSt) (s : State) : (setBin k x s).striped = s.striped := rfl
@[simp] theorem setBin_fenced (k : Nat) (x : BinSt) (s : State) : (setBin k x s).fenced = s.fenced := rfl
@[simp] theorem setBin_offline (k : Nat) (x : BinSt) (s : State) : (setBin k x s).offline = s.offline := rfl
@[simp] theorem setBin_gatePend (k : Nat) (x : BinSt) (s : State) : (setBin k x s).gatePend = s.gatePend := rfl
@[simp] theorem setBin_posts (k : Nat) (x : BinSt) (s : State) : (setBin k x s).posts = s.posts := rfl
@[simp] theorem setBin_qman (k : Nat) (x : BinSt) (s : State) : (setBin k x s).qman = s.qman := rfl
@[simp] theorem setBin_qcache (k : Nat) (x : BinSt) (s : State) : (setBin k x s).qcache = s.qcache := rfl
@[simp] theorem setBin_qwait (k : Nat) (x : BinSt) (s : State) : (setBin k x s).qwait = s.qwait := rfl
@[simp] theorem setBin_qReady (k : Nat) (x : BinSt) (s : State) : (setBin k x s).qReady = s.qReady := rfl
@[simp] theorem setBin_qbaseSet (k : Nat) (x : BinSt) (s : State) : (setBin k x s).qbaseSet = s.qbaseSet := rfl
@[simp] theorem setBin_links (k : Nat) (x : BinSt) (s : State) : (setBin k x s).links = s.links := rfl
@[simp] theorem setBin_subs (k : Nat) (x : BinSt) (s : State) : (setBin k x s).subs = s.subs := rfl
@[simp] theorem setBin_grids (k : Nat) (x : BinSt) (s : State) : (setBin k x s).grids = s.grids := rfl
@[simp] theorem setBin_dups (k : Nat) (x : BinSt) (s : State) : (setBin k x s).dups = s.dups := rfl
@[simp] theorem setBin_busLost (k : Nat) (x : BinSt) (s : State) : (setBin k x s).busLost = s.busLost := rfl
@[simp] theorem setBin_qmet (k : Nat) (x : BinSt) (s : State) : (setBin k x s).qmet = s.qmet := rfl
@[simp] theorem setBin_waits (k : Nat) (x : BinSt) (s : State) : (setBin k x s).waits = s.waits := rfl
@[simp] theorem setBin_supvAt (k : Nat) (x : BinSt) (s : State) : (setBin k x s).supvAt = s.supvAt := rfl
@[simp] theorem setBin_trip (k : Nat) (x : BinSt) (s : State) : (setBin k x s).trip = s.trip := rfl
@[simp] theorem setBin_pairSeq (k : Nat) (x : BinSt) (s : State) : (setBin k x s).pairSeq = s.pairSeq := rfl
@[simp] theorem setBin_gtimer (k : Nat) (x : BinSt) (s : State) : (setBin k x s).gtimer = s.gtimer := rfl
@[simp] theorem setBin_gocbTail (k : Nat) (x : BinSt) (s : State) : (setBin k x s).gocbTail = s.gocbTail := rfl
@[simp] theorem setBin_binSeq (k : Nat) (x : BinSt) (s : State) : (setBin k x s).binSeq = s.binSeq := rfl
@[simp] theorem setBin_irig (k : Nat) (x : BinSt) (s : State) : (setBin k x s).irig = s.irig := rfl
@[simp] theorem setBin_pps (k : Nat) (x : BinSt) (s : State) : (setBin k x s).pps = s.pps := rfl
@[simp] theorem setBin_ptp (k : Nat) (x : BinSt) (s : State) : (setBin k x s).ptp = s.ptp := rfl
@[simp] theorem setBin_outs (k : Nat) (x : BinSt) (s : State) : (setBin k x s).outs = s.outs := rfl
@[simp] theorem setBin_blks (k : Nat) (x : BinSt) (s : State) : (setBin k x s).blks = s.blks := rfl
@[simp] theorem setBin_vin (k : Nat) (x : BinSt) (s : State) : (setBin k x s).vin = s.vin := rfl
@[simp] theorem setBin_tx (k : Nat) (x : BinSt) (s : State) : (setBin k x s).tx = s.tx := rfl
@[simp] theorem setBin_dma (k : Nat) (x : BinSt) (s : State) : (setBin k x s).dma = s.dma := rfl
@[simp] theorem setBin_dev (k : Nat) (x : BinSt) (s : State) : (setBin k x s).dev = s.dev := rfl
@[simp] theorem setBin_hubLost (k : Nat) (x : BinSt) (s : State) : (setBin k x s).hubLost = s.hubLost := rfl
@[simp] theorem setBin_fatal (k : Nat) (x : BinSt) (s : State) : (setBin k x s).fatal = s.fatal := rfl
@[simp] theorem setBin_log (k : Nat) (x : BinSt) (s : State) : (setBin k x s).log = s.log := rfl
@[simp] theorem setBin_tail (k : Nat) (x : BinSt) (s : State) : (setBin k x s).tail = s.tail := rfl
@[simp] theorem setBin_tailGen (k : Nat) (x : BinSt) (s : State) : (setBin k x s).tailGen = s.tailGen := rfl
@[simp] theorem setBin_tailPatch (k : Nat) (x : BinSt) (s : State) : (setBin k x s).tailPatch = s.tailPatch := rfl
@[simp] theorem setBin_logNext (k : Nat) (x : BinSt) (s : State) : (setBin k x s).logNext = s.logNext := rfl
@[simp] theorem setBin_logLost (k : Nat) (x : BinSt) (s : State) : (setBin k x s).logLost = s.logLost := rfl
@[simp] theorem setBin_objs (k : Nat) (x : BinSt) (s : State) : (setBin k x s).objs = s.objs := rfl
@[simp] theorem setBin_mon (k : Nat) (x : BinSt) (s : State) : (setBin k x s).mon = s.mon := rfl
@[simp] theorem setBin_twin (k : Nat) (x : BinSt) (s : State) : (setBin k x s).twin = s.twin := rfl
@[simp] theorem setBin_chip (k : Nat) (x : BinSt) (s : State) : (setBin k x s).chip = s.chip := rfl
@[simp] theorem setBin_sec (k : Nat) (x : BinSt) (s : State) : (setBin k x s).sec = s.sec := rfl
@[simp] theorem setBin_sha (k : Nat) (x : BinSt) (s : State) : (setBin k x s).sha = s.sha := rfl
@[simp] theorem setBin_dict (k : Nat) (x : BinSt) (s : State) : (setBin k x s).dict = s.dict := rfl
@[simp] theorem setBin_dl (k : Nat) (x : BinSt) (s : State) : (setBin k x s).dl = s.dl := rfl
@[simp] theorem setBin_hw (k : Nat) (x : BinSt) (s : State) : (setBin k x s).hw = s.hw := rfl

/-! setPtp -/

@[simp] theorem setPtp_pending (n : Nat) (x : PtpPort) (s : State) : (setPtp n x s).pending = s.pending := rfl
@[simp] theorem setPtp_fresh (n : Nat) (x : PtpPort) (s : State) : (setPtp n x s).fresh = s.fresh := rfl
@[simp] theorem setPtp_cells (n : Nat) (x : PtpPort) (s : State) : (setPtp n x s).cells = s.cells := rfl
@[simp] theorem setPtp_mem (n : Nat) (x : PtpPort) (s : State) : (setPtp n x s).mem = s.mem := rfl
@[simp] theorem setPtp_tags (n : Nat) (x : PtpPort) (s : State) : (setPtp n x s).tags = s.tags := rfl
@[simp] theorem setPtp_caches (n : Nat) (x : PtpPort) (s : State) : (setPtp n x s).caches = s.caches := rfl
@[simp] theorem setPtp_regs (n : Nat) (x : PtpPort) (s : State) : (setPtp n x s).regs = s.regs := rfl
@[simp] theorem setPtp_time (n : Nat) (x : PtpPort) (s : State) : (setPtp n x s).time = s.time := rfl
@[simp] theorem setPtp_v128 (n : Nat) (x : PtpPort) (s : State) : (setPtp n x s).v128 = s.v128 := rfl
@[simp] theorem setPtp_striped (n : Nat) (x : PtpPort) (s : State) : (setPtp n x s).striped = s.striped := rfl
@[simp] theorem setPtp_fenced (n : Nat) (x : PtpPort) (s : State) : (setPtp n x s).fenced = s.fenced := rfl
@[simp] theorem setPtp_offline (n : Nat) (x : PtpPort) (s : State) : (setPtp n x s).offline = s.offline := rfl
@[simp] theorem setPtp_gatePend (n : Nat) (x : PtpPort) (s : State) : (setPtp n x s).gatePend = s.gatePend := rfl
@[simp] theorem setPtp_posts (n : Nat) (x : PtpPort) (s : State) : (setPtp n x s).posts = s.posts := rfl
@[simp] theorem setPtp_qman (n : Nat) (x : PtpPort) (s : State) : (setPtp n x s).qman = s.qman := rfl
@[simp] theorem setPtp_qcache (n : Nat) (x : PtpPort) (s : State) : (setPtp n x s).qcache = s.qcache := rfl
@[simp] theorem setPtp_qwait (n : Nat) (x : PtpPort) (s : State) : (setPtp n x s).qwait = s.qwait := rfl
@[simp] theorem setPtp_qReady (n : Nat) (x : PtpPort) (s : State) : (setPtp n x s).qReady = s.qReady := rfl
@[simp] theorem setPtp_qbaseSet (n : Nat) (x : PtpPort) (s : State) : (setPtp n x s).qbaseSet = s.qbaseSet := rfl
@[simp] theorem setPtp_links (n : Nat) (x : PtpPort) (s : State) : (setPtp n x s).links = s.links := rfl
@[simp] theorem setPtp_subs (n : Nat) (x : PtpPort) (s : State) : (setPtp n x s).subs = s.subs := rfl
@[simp] theorem setPtp_grids (n : Nat) (x : PtpPort) (s : State) : (setPtp n x s).grids = s.grids := rfl
@[simp] theorem setPtp_dups (n : Nat) (x : PtpPort) (s : State) : (setPtp n x s).dups = s.dups := rfl
@[simp] theorem setPtp_busLost (n : Nat) (x : PtpPort) (s : State) : (setPtp n x s).busLost = s.busLost := rfl
@[simp] theorem setPtp_qmet (n : Nat) (x : PtpPort) (s : State) : (setPtp n x s).qmet = s.qmet := rfl
@[simp] theorem setPtp_waits (n : Nat) (x : PtpPort) (s : State) : (setPtp n x s).waits = s.waits := rfl
@[simp] theorem setPtp_supvAt (n : Nat) (x : PtpPort) (s : State) : (setPtp n x s).supvAt = s.supvAt := rfl
@[simp] theorem setPtp_trip (n : Nat) (x : PtpPort) (s : State) : (setPtp n x s).trip = s.trip := rfl
@[simp] theorem setPtp_pairSeq (n : Nat) (x : PtpPort) (s : State) : (setPtp n x s).pairSeq = s.pairSeq := rfl
@[simp] theorem setPtp_gtimer (n : Nat) (x : PtpPort) (s : State) : (setPtp n x s).gtimer = s.gtimer := rfl
@[simp] theorem setPtp_gocbTail (n : Nat) (x : PtpPort) (s : State) : (setPtp n x s).gocbTail = s.gocbTail := rfl
@[simp] theorem setPtp_bins (n : Nat) (x : PtpPort) (s : State) : (setPtp n x s).bins = s.bins := rfl
@[simp] theorem setPtp_binSeq (n : Nat) (x : PtpPort) (s : State) : (setPtp n x s).binSeq = s.binSeq := rfl
@[simp] theorem setPtp_irig (n : Nat) (x : PtpPort) (s : State) : (setPtp n x s).irig = s.irig := rfl
@[simp] theorem setPtp_pps (n : Nat) (x : PtpPort) (s : State) : (setPtp n x s).pps = s.pps := rfl
@[simp] theorem setPtp_outs (n : Nat) (x : PtpPort) (s : State) : (setPtp n x s).outs = s.outs := rfl
@[simp] theorem setPtp_blks (n : Nat) (x : PtpPort) (s : State) : (setPtp n x s).blks = s.blks := rfl
@[simp] theorem setPtp_vin (n : Nat) (x : PtpPort) (s : State) : (setPtp n x s).vin = s.vin := rfl
@[simp] theorem setPtp_tx (n : Nat) (x : PtpPort) (s : State) : (setPtp n x s).tx = s.tx := rfl
@[simp] theorem setPtp_dma (n : Nat) (x : PtpPort) (s : State) : (setPtp n x s).dma = s.dma := rfl
@[simp] theorem setPtp_dev (n : Nat) (x : PtpPort) (s : State) : (setPtp n x s).dev = s.dev := rfl
@[simp] theorem setPtp_hubLost (n : Nat) (x : PtpPort) (s : State) : (setPtp n x s).hubLost = s.hubLost := rfl
@[simp] theorem setPtp_fatal (n : Nat) (x : PtpPort) (s : State) : (setPtp n x s).fatal = s.fatal := rfl
@[simp] theorem setPtp_log (n : Nat) (x : PtpPort) (s : State) : (setPtp n x s).log = s.log := rfl
@[simp] theorem setPtp_tail (n : Nat) (x : PtpPort) (s : State) : (setPtp n x s).tail = s.tail := rfl
@[simp] theorem setPtp_tailGen (n : Nat) (x : PtpPort) (s : State) : (setPtp n x s).tailGen = s.tailGen := rfl
@[simp] theorem setPtp_tailPatch (n : Nat) (x : PtpPort) (s : State) : (setPtp n x s).tailPatch = s.tailPatch := rfl
@[simp] theorem setPtp_logNext (n : Nat) (x : PtpPort) (s : State) : (setPtp n x s).logNext = s.logNext := rfl
@[simp] theorem setPtp_logLost (n : Nat) (x : PtpPort) (s : State) : (setPtp n x s).logLost = s.logLost := rfl
@[simp] theorem setPtp_objs (n : Nat) (x : PtpPort) (s : State) : (setPtp n x s).objs = s.objs := rfl
@[simp] theorem setPtp_mon (n : Nat) (x : PtpPort) (s : State) : (setPtp n x s).mon = s.mon := rfl
@[simp] theorem setPtp_twin (n : Nat) (x : PtpPort) (s : State) : (setPtp n x s).twin = s.twin := rfl
@[simp] theorem setPtp_chip (n : Nat) (x : PtpPort) (s : State) : (setPtp n x s).chip = s.chip := rfl
@[simp] theorem setPtp_sec (n : Nat) (x : PtpPort) (s : State) : (setPtp n x s).sec = s.sec := rfl
@[simp] theorem setPtp_sha (n : Nat) (x : PtpPort) (s : State) : (setPtp n x s).sha = s.sha := rfl
@[simp] theorem setPtp_dict (n : Nat) (x : PtpPort) (s : State) : (setPtp n x s).dict = s.dict := rfl
@[simp] theorem setPtp_dl (n : Nat) (x : PtpPort) (s : State) : (setPtp n x s).dl = s.dl := rfl
@[simp] theorem setPtp_hw (n : Nat) (x : PtpPort) (s : State) : (setPtp n x s).hw = s.hw := rfl

/-! setLink -/

@[simp] theorem setLink_pending (l : Nat) (x : LinkSt) (s : State) : (setLink l x s).pending = s.pending := rfl
@[simp] theorem setLink_fresh (l : Nat) (x : LinkSt) (s : State) : (setLink l x s).fresh = s.fresh := rfl
@[simp] theorem setLink_cells (l : Nat) (x : LinkSt) (s : State) : (setLink l x s).cells = s.cells := rfl
@[simp] theorem setLink_mem (l : Nat) (x : LinkSt) (s : State) : (setLink l x s).mem = s.mem := rfl
@[simp] theorem setLink_tags (l : Nat) (x : LinkSt) (s : State) : (setLink l x s).tags = s.tags := rfl
@[simp] theorem setLink_caches (l : Nat) (x : LinkSt) (s : State) : (setLink l x s).caches = s.caches := rfl
@[simp] theorem setLink_regs (l : Nat) (x : LinkSt) (s : State) : (setLink l x s).regs = s.regs := rfl
@[simp] theorem setLink_time (l : Nat) (x : LinkSt) (s : State) : (setLink l x s).time = s.time := rfl
@[simp] theorem setLink_v128 (l : Nat) (x : LinkSt) (s : State) : (setLink l x s).v128 = s.v128 := rfl
@[simp] theorem setLink_striped (l : Nat) (x : LinkSt) (s : State) : (setLink l x s).striped = s.striped := rfl
@[simp] theorem setLink_fenced (l : Nat) (x : LinkSt) (s : State) : (setLink l x s).fenced = s.fenced := rfl
@[simp] theorem setLink_offline (l : Nat) (x : LinkSt) (s : State) : (setLink l x s).offline = s.offline := rfl
@[simp] theorem setLink_gatePend (l : Nat) (x : LinkSt) (s : State) : (setLink l x s).gatePend = s.gatePend := rfl
@[simp] theorem setLink_posts (l : Nat) (x : LinkSt) (s : State) : (setLink l x s).posts = s.posts := rfl
@[simp] theorem setLink_qman (l : Nat) (x : LinkSt) (s : State) : (setLink l x s).qman = s.qman := rfl
@[simp] theorem setLink_qcache (l : Nat) (x : LinkSt) (s : State) : (setLink l x s).qcache = s.qcache := rfl
@[simp] theorem setLink_qwait (l : Nat) (x : LinkSt) (s : State) : (setLink l x s).qwait = s.qwait := rfl
@[simp] theorem setLink_qReady (l : Nat) (x : LinkSt) (s : State) : (setLink l x s).qReady = s.qReady := rfl
@[simp] theorem setLink_qbaseSet (l : Nat) (x : LinkSt) (s : State) : (setLink l x s).qbaseSet = s.qbaseSet := rfl
@[simp] theorem setLink_subs (l : Nat) (x : LinkSt) (s : State) : (setLink l x s).subs = s.subs := rfl
@[simp] theorem setLink_grids (l : Nat) (x : LinkSt) (s : State) : (setLink l x s).grids = s.grids := rfl
@[simp] theorem setLink_dups (l : Nat) (x : LinkSt) (s : State) : (setLink l x s).dups = s.dups := rfl
@[simp] theorem setLink_busLost (l : Nat) (x : LinkSt) (s : State) : (setLink l x s).busLost = s.busLost := rfl
@[simp] theorem setLink_qmet (l : Nat) (x : LinkSt) (s : State) : (setLink l x s).qmet = s.qmet := rfl
@[simp] theorem setLink_waits (l : Nat) (x : LinkSt) (s : State) : (setLink l x s).waits = s.waits := rfl
@[simp] theorem setLink_supvAt (l : Nat) (x : LinkSt) (s : State) : (setLink l x s).supvAt = s.supvAt := rfl
@[simp] theorem setLink_trip (l : Nat) (x : LinkSt) (s : State) : (setLink l x s).trip = s.trip := rfl
@[simp] theorem setLink_pairSeq (l : Nat) (x : LinkSt) (s : State) : (setLink l x s).pairSeq = s.pairSeq := rfl
@[simp] theorem setLink_gtimer (l : Nat) (x : LinkSt) (s : State) : (setLink l x s).gtimer = s.gtimer := rfl
@[simp] theorem setLink_gocbTail (l : Nat) (x : LinkSt) (s : State) : (setLink l x s).gocbTail = s.gocbTail := rfl
@[simp] theorem setLink_bins (l : Nat) (x : LinkSt) (s : State) : (setLink l x s).bins = s.bins := rfl
@[simp] theorem setLink_binSeq (l : Nat) (x : LinkSt) (s : State) : (setLink l x s).binSeq = s.binSeq := rfl
@[simp] theorem setLink_irig (l : Nat) (x : LinkSt) (s : State) : (setLink l x s).irig = s.irig := rfl
@[simp] theorem setLink_pps (l : Nat) (x : LinkSt) (s : State) : (setLink l x s).pps = s.pps := rfl
@[simp] theorem setLink_ptp (l : Nat) (x : LinkSt) (s : State) : (setLink l x s).ptp = s.ptp := rfl
@[simp] theorem setLink_outs (l : Nat) (x : LinkSt) (s : State) : (setLink l x s).outs = s.outs := rfl
@[simp] theorem setLink_blks (l : Nat) (x : LinkSt) (s : State) : (setLink l x s).blks = s.blks := rfl
@[simp] theorem setLink_vin (l : Nat) (x : LinkSt) (s : State) : (setLink l x s).vin = s.vin := rfl
@[simp] theorem setLink_tx (l : Nat) (x : LinkSt) (s : State) : (setLink l x s).tx = s.tx := rfl
@[simp] theorem setLink_dma (l : Nat) (x : LinkSt) (s : State) : (setLink l x s).dma = s.dma := rfl
@[simp] theorem setLink_dev (l : Nat) (x : LinkSt) (s : State) : (setLink l x s).dev = s.dev := rfl
@[simp] theorem setLink_hubLost (l : Nat) (x : LinkSt) (s : State) : (setLink l x s).hubLost = s.hubLost := rfl
@[simp] theorem setLink_fatal (l : Nat) (x : LinkSt) (s : State) : (setLink l x s).fatal = s.fatal := rfl
@[simp] theorem setLink_log (l : Nat) (x : LinkSt) (s : State) : (setLink l x s).log = s.log := rfl
@[simp] theorem setLink_tail (l : Nat) (x : LinkSt) (s : State) : (setLink l x s).tail = s.tail := rfl
@[simp] theorem setLink_tailGen (l : Nat) (x : LinkSt) (s : State) : (setLink l x s).tailGen = s.tailGen := rfl
@[simp] theorem setLink_tailPatch (l : Nat) (x : LinkSt) (s : State) : (setLink l x s).tailPatch = s.tailPatch := rfl
@[simp] theorem setLink_logNext (l : Nat) (x : LinkSt) (s : State) : (setLink l x s).logNext = s.logNext := rfl
@[simp] theorem setLink_logLost (l : Nat) (x : LinkSt) (s : State) : (setLink l x s).logLost = s.logLost := rfl
@[simp] theorem setLink_objs (l : Nat) (x : LinkSt) (s : State) : (setLink l x s).objs = s.objs := rfl
@[simp] theorem setLink_mon (l : Nat) (x : LinkSt) (s : State) : (setLink l x s).mon = s.mon := rfl
@[simp] theorem setLink_twin (l : Nat) (x : LinkSt) (s : State) : (setLink l x s).twin = s.twin := rfl
@[simp] theorem setLink_chip (l : Nat) (x : LinkSt) (s : State) : (setLink l x s).chip = s.chip := rfl
@[simp] theorem setLink_sec (l : Nat) (x : LinkSt) (s : State) : (setLink l x s).sec = s.sec := rfl
@[simp] theorem setLink_sha (l : Nat) (x : LinkSt) (s : State) : (setLink l x s).sha = s.sha := rfl
@[simp] theorem setLink_dict (l : Nat) (x : LinkSt) (s : State) : (setLink l x s).dict = s.dict := rfl
@[simp] theorem setLink_dl (l : Nat) (x : LinkSt) (s : State) : (setLink l x s).dl = s.dl := rfl
@[simp] theorem setLink_hw (l : Nat) (x : LinkSt) (s : State) : (setLink l x s).hw = s.hw := rfl

/-! setBlk -/

@[simp] theorem setBlk_pending (b : Nat) (x : BlkSt) (s : State) : (setBlk b x s).pending = s.pending := rfl
@[simp] theorem setBlk_fresh (b : Nat) (x : BlkSt) (s : State) : (setBlk b x s).fresh = s.fresh := rfl
@[simp] theorem setBlk_cells (b : Nat) (x : BlkSt) (s : State) : (setBlk b x s).cells = s.cells := rfl
@[simp] theorem setBlk_mem (b : Nat) (x : BlkSt) (s : State) : (setBlk b x s).mem = s.mem := rfl
@[simp] theorem setBlk_tags (b : Nat) (x : BlkSt) (s : State) : (setBlk b x s).tags = s.tags := rfl
@[simp] theorem setBlk_caches (b : Nat) (x : BlkSt) (s : State) : (setBlk b x s).caches = s.caches := rfl
@[simp] theorem setBlk_regs (b : Nat) (x : BlkSt) (s : State) : (setBlk b x s).regs = s.regs := rfl
@[simp] theorem setBlk_time (b : Nat) (x : BlkSt) (s : State) : (setBlk b x s).time = s.time := rfl
@[simp] theorem setBlk_v128 (b : Nat) (x : BlkSt) (s : State) : (setBlk b x s).v128 = s.v128 := rfl
@[simp] theorem setBlk_striped (b : Nat) (x : BlkSt) (s : State) : (setBlk b x s).striped = s.striped := rfl
@[simp] theorem setBlk_fenced (b : Nat) (x : BlkSt) (s : State) : (setBlk b x s).fenced = s.fenced := rfl
@[simp] theorem setBlk_offline (b : Nat) (x : BlkSt) (s : State) : (setBlk b x s).offline = s.offline := rfl
@[simp] theorem setBlk_gatePend (b : Nat) (x : BlkSt) (s : State) : (setBlk b x s).gatePend = s.gatePend := rfl
@[simp] theorem setBlk_posts (b : Nat) (x : BlkSt) (s : State) : (setBlk b x s).posts = s.posts := rfl
@[simp] theorem setBlk_qman (b : Nat) (x : BlkSt) (s : State) : (setBlk b x s).qman = s.qman := rfl
@[simp] theorem setBlk_qcache (b : Nat) (x : BlkSt) (s : State) : (setBlk b x s).qcache = s.qcache := rfl
@[simp] theorem setBlk_qwait (b : Nat) (x : BlkSt) (s : State) : (setBlk b x s).qwait = s.qwait := rfl
@[simp] theorem setBlk_qReady (b : Nat) (x : BlkSt) (s : State) : (setBlk b x s).qReady = s.qReady := rfl
@[simp] theorem setBlk_qbaseSet (b : Nat) (x : BlkSt) (s : State) : (setBlk b x s).qbaseSet = s.qbaseSet := rfl
@[simp] theorem setBlk_links (b : Nat) (x : BlkSt) (s : State) : (setBlk b x s).links = s.links := rfl
@[simp] theorem setBlk_subs (b : Nat) (x : BlkSt) (s : State) : (setBlk b x s).subs = s.subs := rfl
@[simp] theorem setBlk_grids (b : Nat) (x : BlkSt) (s : State) : (setBlk b x s).grids = s.grids := rfl
@[simp] theorem setBlk_dups (b : Nat) (x : BlkSt) (s : State) : (setBlk b x s).dups = s.dups := rfl
@[simp] theorem setBlk_busLost (b : Nat) (x : BlkSt) (s : State) : (setBlk b x s).busLost = s.busLost := rfl
@[simp] theorem setBlk_qmet (b : Nat) (x : BlkSt) (s : State) : (setBlk b x s).qmet = s.qmet := rfl
@[simp] theorem setBlk_waits (b : Nat) (x : BlkSt) (s : State) : (setBlk b x s).waits = s.waits := rfl
@[simp] theorem setBlk_supvAt (b : Nat) (x : BlkSt) (s : State) : (setBlk b x s).supvAt = s.supvAt := rfl
@[simp] theorem setBlk_trip (b : Nat) (x : BlkSt) (s : State) : (setBlk b x s).trip = s.trip := rfl
@[simp] theorem setBlk_pairSeq (b : Nat) (x : BlkSt) (s : State) : (setBlk b x s).pairSeq = s.pairSeq := rfl
@[simp] theorem setBlk_gtimer (b : Nat) (x : BlkSt) (s : State) : (setBlk b x s).gtimer = s.gtimer := rfl
@[simp] theorem setBlk_gocbTail (b : Nat) (x : BlkSt) (s : State) : (setBlk b x s).gocbTail = s.gocbTail := rfl
@[simp] theorem setBlk_bins (b : Nat) (x : BlkSt) (s : State) : (setBlk b x s).bins = s.bins := rfl
@[simp] theorem setBlk_binSeq (b : Nat) (x : BlkSt) (s : State) : (setBlk b x s).binSeq = s.binSeq := rfl
@[simp] theorem setBlk_irig (b : Nat) (x : BlkSt) (s : State) : (setBlk b x s).irig = s.irig := rfl
@[simp] theorem setBlk_pps (b : Nat) (x : BlkSt) (s : State) : (setBlk b x s).pps = s.pps := rfl
@[simp] theorem setBlk_ptp (b : Nat) (x : BlkSt) (s : State) : (setBlk b x s).ptp = s.ptp := rfl
@[simp] theorem setBlk_outs (b : Nat) (x : BlkSt) (s : State) : (setBlk b x s).outs = s.outs := rfl
@[simp] theorem setBlk_vin (b : Nat) (x : BlkSt) (s : State) : (setBlk b x s).vin = s.vin := rfl
@[simp] theorem setBlk_tx (b : Nat) (x : BlkSt) (s : State) : (setBlk b x s).tx = s.tx := rfl
@[simp] theorem setBlk_dma (b : Nat) (x : BlkSt) (s : State) : (setBlk b x s).dma = s.dma := rfl
@[simp] theorem setBlk_dev (b : Nat) (x : BlkSt) (s : State) : (setBlk b x s).dev = s.dev := rfl
@[simp] theorem setBlk_hubLost (b : Nat) (x : BlkSt) (s : State) : (setBlk b x s).hubLost = s.hubLost := rfl
@[simp] theorem setBlk_fatal (b : Nat) (x : BlkSt) (s : State) : (setBlk b x s).fatal = s.fatal := rfl
@[simp] theorem setBlk_log (b : Nat) (x : BlkSt) (s : State) : (setBlk b x s).log = s.log := rfl
@[simp] theorem setBlk_tail (b : Nat) (x : BlkSt) (s : State) : (setBlk b x s).tail = s.tail := rfl
@[simp] theorem setBlk_tailGen (b : Nat) (x : BlkSt) (s : State) : (setBlk b x s).tailGen = s.tailGen := rfl
@[simp] theorem setBlk_tailPatch (b : Nat) (x : BlkSt) (s : State) : (setBlk b x s).tailPatch = s.tailPatch := rfl
@[simp] theorem setBlk_logNext (b : Nat) (x : BlkSt) (s : State) : (setBlk b x s).logNext = s.logNext := rfl
@[simp] theorem setBlk_logLost (b : Nat) (x : BlkSt) (s : State) : (setBlk b x s).logLost = s.logLost := rfl
@[simp] theorem setBlk_objs (b : Nat) (x : BlkSt) (s : State) : (setBlk b x s).objs = s.objs := rfl
@[simp] theorem setBlk_mon (b : Nat) (x : BlkSt) (s : State) : (setBlk b x s).mon = s.mon := rfl
@[simp] theorem setBlk_twin (b : Nat) (x : BlkSt) (s : State) : (setBlk b x s).twin = s.twin := rfl
@[simp] theorem setBlk_chip (b : Nat) (x : BlkSt) (s : State) : (setBlk b x s).chip = s.chip := rfl
@[simp] theorem setBlk_sec (b : Nat) (x : BlkSt) (s : State) : (setBlk b x s).sec = s.sec := rfl
@[simp] theorem setBlk_sha (b : Nat) (x : BlkSt) (s : State) : (setBlk b x s).sha = s.sha := rfl
@[simp] theorem setBlk_dict (b : Nat) (x : BlkSt) (s : State) : (setBlk b x s).dict = s.dict := rfl
@[simp] theorem setBlk_dl (b : Nat) (x : BlkSt) (s : State) : (setBlk b x s).dl = s.dl := rfl
@[simp] theorem setBlk_hw (b : Nat) (x : BlkSt) (s : State) : (setBlk b x s).hw = s.hw := rfl

/-! setWaiters -/

@[simp] theorem setWaiters_pending (q : Nat) (l : List QReq) (s : State) : (setWaiters q l s).pending = s.pending := rfl
@[simp] theorem setWaiters_fresh (q : Nat) (l : List QReq) (s : State) : (setWaiters q l s).fresh = s.fresh := rfl
@[simp] theorem setWaiters_cells (q : Nat) (l : List QReq) (s : State) : (setWaiters q l s).cells = s.cells := rfl
@[simp] theorem setWaiters_mem (q : Nat) (l : List QReq) (s : State) : (setWaiters q l s).mem = s.mem := rfl
@[simp] theorem setWaiters_tags (q : Nat) (l : List QReq) (s : State) : (setWaiters q l s).tags = s.tags := rfl
@[simp] theorem setWaiters_caches (q : Nat) (l : List QReq) (s : State) : (setWaiters q l s).caches = s.caches := rfl
@[simp] theorem setWaiters_regs (q : Nat) (l : List QReq) (s : State) : (setWaiters q l s).regs = s.regs := rfl
@[simp] theorem setWaiters_time (q : Nat) (l : List QReq) (s : State) : (setWaiters q l s).time = s.time := rfl
@[simp] theorem setWaiters_v128 (q : Nat) (l : List QReq) (s : State) : (setWaiters q l s).v128 = s.v128 := rfl
@[simp] theorem setWaiters_striped (q : Nat) (l : List QReq) (s : State) : (setWaiters q l s).striped = s.striped := rfl
@[simp] theorem setWaiters_fenced (q : Nat) (l : List QReq) (s : State) : (setWaiters q l s).fenced = s.fenced := rfl
@[simp] theorem setWaiters_offline (q : Nat) (l : List QReq) (s : State) : (setWaiters q l s).offline = s.offline := rfl
@[simp] theorem setWaiters_gatePend (q : Nat) (l : List QReq) (s : State) : (setWaiters q l s).gatePend = s.gatePend := rfl
@[simp] theorem setWaiters_posts (q : Nat) (l : List QReq) (s : State) : (setWaiters q l s).posts = s.posts := rfl
@[simp] theorem setWaiters_qman (q : Nat) (l : List QReq) (s : State) : (setWaiters q l s).qman = s.qman := rfl
@[simp] theorem setWaiters_qcache (q : Nat) (l : List QReq) (s : State) : (setWaiters q l s).qcache = s.qcache := rfl
@[simp] theorem setWaiters_qReady (q : Nat) (l : List QReq) (s : State) : (setWaiters q l s).qReady = s.qReady := rfl
@[simp] theorem setWaiters_qbaseSet (q : Nat) (l : List QReq) (s : State) : (setWaiters q l s).qbaseSet = s.qbaseSet := rfl
@[simp] theorem setWaiters_links (q : Nat) (l : List QReq) (s : State) : (setWaiters q l s).links = s.links := rfl
@[simp] theorem setWaiters_subs (q : Nat) (l : List QReq) (s : State) : (setWaiters q l s).subs = s.subs := rfl
@[simp] theorem setWaiters_grids (q : Nat) (l : List QReq) (s : State) : (setWaiters q l s).grids = s.grids := rfl
@[simp] theorem setWaiters_dups (q : Nat) (l : List QReq) (s : State) : (setWaiters q l s).dups = s.dups := rfl
@[simp] theorem setWaiters_busLost (q : Nat) (l : List QReq) (s : State) : (setWaiters q l s).busLost = s.busLost := rfl
@[simp] theorem setWaiters_qmet (q : Nat) (l : List QReq) (s : State) : (setWaiters q l s).qmet = s.qmet := rfl
@[simp] theorem setWaiters_waits (q : Nat) (l : List QReq) (s : State) : (setWaiters q l s).waits = s.waits := rfl
@[simp] theorem setWaiters_supvAt (q : Nat) (l : List QReq) (s : State) : (setWaiters q l s).supvAt = s.supvAt := rfl
@[simp] theorem setWaiters_trip (q : Nat) (l : List QReq) (s : State) : (setWaiters q l s).trip = s.trip := rfl
@[simp] theorem setWaiters_pairSeq (q : Nat) (l : List QReq) (s : State) : (setWaiters q l s).pairSeq = s.pairSeq := rfl
@[simp] theorem setWaiters_gtimer (q : Nat) (l : List QReq) (s : State) : (setWaiters q l s).gtimer = s.gtimer := rfl
@[simp] theorem setWaiters_gocbTail (q : Nat) (l : List QReq) (s : State) : (setWaiters q l s).gocbTail = s.gocbTail := rfl
@[simp] theorem setWaiters_bins (q : Nat) (l : List QReq) (s : State) : (setWaiters q l s).bins = s.bins := rfl
@[simp] theorem setWaiters_binSeq (q : Nat) (l : List QReq) (s : State) : (setWaiters q l s).binSeq = s.binSeq := rfl
@[simp] theorem setWaiters_irig (q : Nat) (l : List QReq) (s : State) : (setWaiters q l s).irig = s.irig := rfl
@[simp] theorem setWaiters_pps (q : Nat) (l : List QReq) (s : State) : (setWaiters q l s).pps = s.pps := rfl
@[simp] theorem setWaiters_ptp (q : Nat) (l : List QReq) (s : State) : (setWaiters q l s).ptp = s.ptp := rfl
@[simp] theorem setWaiters_outs (q : Nat) (l : List QReq) (s : State) : (setWaiters q l s).outs = s.outs := rfl
@[simp] theorem setWaiters_blks (q : Nat) (l : List QReq) (s : State) : (setWaiters q l s).blks = s.blks := rfl
@[simp] theorem setWaiters_vin (q : Nat) (l : List QReq) (s : State) : (setWaiters q l s).vin = s.vin := rfl
@[simp] theorem setWaiters_tx (q : Nat) (l : List QReq) (s : State) : (setWaiters q l s).tx = s.tx := rfl
@[simp] theorem setWaiters_dma (q : Nat) (l : List QReq) (s : State) : (setWaiters q l s).dma = s.dma := rfl
@[simp] theorem setWaiters_dev (q : Nat) (l : List QReq) (s : State) : (setWaiters q l s).dev = s.dev := rfl
@[simp] theorem setWaiters_hubLost (q : Nat) (l : List QReq) (s : State) : (setWaiters q l s).hubLost = s.hubLost := rfl
@[simp] theorem setWaiters_fatal (q : Nat) (l : List QReq) (s : State) : (setWaiters q l s).fatal = s.fatal := rfl
@[simp] theorem setWaiters_log (q : Nat) (l : List QReq) (s : State) : (setWaiters q l s).log = s.log := rfl
@[simp] theorem setWaiters_tail (q : Nat) (l : List QReq) (s : State) : (setWaiters q l s).tail = s.tail := rfl
@[simp] theorem setWaiters_tailGen (q : Nat) (l : List QReq) (s : State) : (setWaiters q l s).tailGen = s.tailGen := rfl
@[simp] theorem setWaiters_tailPatch (q : Nat) (l : List QReq) (s : State) : (setWaiters q l s).tailPatch = s.tailPatch := rfl
@[simp] theorem setWaiters_logNext (q : Nat) (l : List QReq) (s : State) : (setWaiters q l s).logNext = s.logNext := rfl
@[simp] theorem setWaiters_logLost (q : Nat) (l : List QReq) (s : State) : (setWaiters q l s).logLost = s.logLost := rfl
@[simp] theorem setWaiters_objs (q : Nat) (l : List QReq) (s : State) : (setWaiters q l s).objs = s.objs := rfl
@[simp] theorem setWaiters_mon (q : Nat) (l : List QReq) (s : State) : (setWaiters q l s).mon = s.mon := rfl
@[simp] theorem setWaiters_twin (q : Nat) (l : List QReq) (s : State) : (setWaiters q l s).twin = s.twin := rfl
@[simp] theorem setWaiters_chip (q : Nat) (l : List QReq) (s : State) : (setWaiters q l s).chip = s.chip := rfl
@[simp] theorem setWaiters_sec (q : Nat) (l : List QReq) (s : State) : (setWaiters q l s).sec = s.sec := rfl
@[simp] theorem setWaiters_sha (q : Nat) (l : List QReq) (s : State) : (setWaiters q l s).sha = s.sha := rfl
@[simp] theorem setWaiters_dict (q : Nat) (l : List QReq) (s : State) : (setWaiters q l s).dict = s.dict := rfl
@[simp] theorem setWaiters_dl (q : Nat) (l : List QReq) (s : State) : (setWaiters q l s).dl = s.dl := rfl
@[simp] theorem setWaiters_hw (q : Nat) (l : List QReq) (s : State) : (setWaiters q l s).hw = s.hw := rfl

/-! setCache -/

@[simp] theorem setCache_pending (r : Nat) (l : List QDesc) (s : State) : (setCache r l s).pending = s.pending := rfl
@[simp] theorem setCache_fresh (r : Nat) (l : List QDesc) (s : State) : (setCache r l s).fresh = s.fresh := rfl
@[simp] theorem setCache_cells (r : Nat) (l : List QDesc) (s : State) : (setCache r l s).cells = s.cells := rfl
@[simp] theorem setCache_mem (r : Nat) (l : List QDesc) (s : State) : (setCache r l s).mem = s.mem := rfl
@[simp] theorem setCache_tags (r : Nat) (l : List QDesc) (s : State) : (setCache r l s).tags = s.tags := rfl
@[simp] theorem setCache_caches (r : Nat) (l : List QDesc) (s : State) : (setCache r l s).caches = s.caches := rfl
@[simp] theorem setCache_regs (r : Nat) (l : List QDesc) (s : State) : (setCache r l s).regs = s.regs := rfl
@[simp] theorem setCache_time (r : Nat) (l : List QDesc) (s : State) : (setCache r l s).time = s.time := rfl
@[simp] theorem setCache_v128 (r : Nat) (l : List QDesc) (s : State) : (setCache r l s).v128 = s.v128 := rfl
@[simp] theorem setCache_striped (r : Nat) (l : List QDesc) (s : State) : (setCache r l s).striped = s.striped := rfl
@[simp] theorem setCache_fenced (r : Nat) (l : List QDesc) (s : State) : (setCache r l s).fenced = s.fenced := rfl
@[simp] theorem setCache_offline (r : Nat) (l : List QDesc) (s : State) : (setCache r l s).offline = s.offline := rfl
@[simp] theorem setCache_gatePend (r : Nat) (l : List QDesc) (s : State) : (setCache r l s).gatePend = s.gatePend := rfl
@[simp] theorem setCache_posts (r : Nat) (l : List QDesc) (s : State) : (setCache r l s).posts = s.posts := rfl
@[simp] theorem setCache_qman (r : Nat) (l : List QDesc) (s : State) : (setCache r l s).qman = s.qman := rfl
@[simp] theorem setCache_qwait (r : Nat) (l : List QDesc) (s : State) : (setCache r l s).qwait = s.qwait := rfl
@[simp] theorem setCache_qReady (r : Nat) (l : List QDesc) (s : State) : (setCache r l s).qReady = s.qReady := rfl
@[simp] theorem setCache_qbaseSet (r : Nat) (l : List QDesc) (s : State) : (setCache r l s).qbaseSet = s.qbaseSet := rfl
@[simp] theorem setCache_links (r : Nat) (l : List QDesc) (s : State) : (setCache r l s).links = s.links := rfl
@[simp] theorem setCache_subs (r : Nat) (l : List QDesc) (s : State) : (setCache r l s).subs = s.subs := rfl
@[simp] theorem setCache_grids (r : Nat) (l : List QDesc) (s : State) : (setCache r l s).grids = s.grids := rfl
@[simp] theorem setCache_dups (r : Nat) (l : List QDesc) (s : State) : (setCache r l s).dups = s.dups := rfl
@[simp] theorem setCache_busLost (r : Nat) (l : List QDesc) (s : State) : (setCache r l s).busLost = s.busLost := rfl
@[simp] theorem setCache_qmet (r : Nat) (l : List QDesc) (s : State) : (setCache r l s).qmet = s.qmet := rfl
@[simp] theorem setCache_waits (r : Nat) (l : List QDesc) (s : State) : (setCache r l s).waits = s.waits := rfl
@[simp] theorem setCache_supvAt (r : Nat) (l : List QDesc) (s : State) : (setCache r l s).supvAt = s.supvAt := rfl
@[simp] theorem setCache_trip (r : Nat) (l : List QDesc) (s : State) : (setCache r l s).trip = s.trip := rfl
@[simp] theorem setCache_pairSeq (r : Nat) (l : List QDesc) (s : State) : (setCache r l s).pairSeq = s.pairSeq := rfl
@[simp] theorem setCache_gtimer (r : Nat) (l : List QDesc) (s : State) : (setCache r l s).gtimer = s.gtimer := rfl
@[simp] theorem setCache_gocbTail (r : Nat) (l : List QDesc) (s : State) : (setCache r l s).gocbTail = s.gocbTail := rfl
@[simp] theorem setCache_bins (r : Nat) (l : List QDesc) (s : State) : (setCache r l s).bins = s.bins := rfl
@[simp] theorem setCache_binSeq (r : Nat) (l : List QDesc) (s : State) : (setCache r l s).binSeq = s.binSeq := rfl
@[simp] theorem setCache_irig (r : Nat) (l : List QDesc) (s : State) : (setCache r l s).irig = s.irig := rfl
@[simp] theorem setCache_pps (r : Nat) (l : List QDesc) (s : State) : (setCache r l s).pps = s.pps := rfl
@[simp] theorem setCache_ptp (r : Nat) (l : List QDesc) (s : State) : (setCache r l s).ptp = s.ptp := rfl
@[simp] theorem setCache_outs (r : Nat) (l : List QDesc) (s : State) : (setCache r l s).outs = s.outs := rfl
@[simp] theorem setCache_blks (r : Nat) (l : List QDesc) (s : State) : (setCache r l s).blks = s.blks := rfl
@[simp] theorem setCache_vin (r : Nat) (l : List QDesc) (s : State) : (setCache r l s).vin = s.vin := rfl
@[simp] theorem setCache_tx (r : Nat) (l : List QDesc) (s : State) : (setCache r l s).tx = s.tx := rfl
@[simp] theorem setCache_dma (r : Nat) (l : List QDesc) (s : State) : (setCache r l s).dma = s.dma := rfl
@[simp] theorem setCache_dev (r : Nat) (l : List QDesc) (s : State) : (setCache r l s).dev = s.dev := rfl
@[simp] theorem setCache_hubLost (r : Nat) (l : List QDesc) (s : State) : (setCache r l s).hubLost = s.hubLost := rfl
@[simp] theorem setCache_fatal (r : Nat) (l : List QDesc) (s : State) : (setCache r l s).fatal = s.fatal := rfl
@[simp] theorem setCache_log (r : Nat) (l : List QDesc) (s : State) : (setCache r l s).log = s.log := rfl
@[simp] theorem setCache_tail (r : Nat) (l : List QDesc) (s : State) : (setCache r l s).tail = s.tail := rfl
@[simp] theorem setCache_tailGen (r : Nat) (l : List QDesc) (s : State) : (setCache r l s).tailGen = s.tailGen := rfl
@[simp] theorem setCache_tailPatch (r : Nat) (l : List QDesc) (s : State) : (setCache r l s).tailPatch = s.tailPatch := rfl
@[simp] theorem setCache_logNext (r : Nat) (l : List QDesc) (s : State) : (setCache r l s).logNext = s.logNext := rfl
@[simp] theorem setCache_logLost (r : Nat) (l : List QDesc) (s : State) : (setCache r l s).logLost = s.logLost := rfl
@[simp] theorem setCache_objs (r : Nat) (l : List QDesc) (s : State) : (setCache r l s).objs = s.objs := rfl
@[simp] theorem setCache_mon (r : Nat) (l : List QDesc) (s : State) : (setCache r l s).mon = s.mon := rfl
@[simp] theorem setCache_twin (r : Nat) (l : List QDesc) (s : State) : (setCache r l s).twin = s.twin := rfl
@[simp] theorem setCache_chip (r : Nat) (l : List QDesc) (s : State) : (setCache r l s).chip = s.chip := rfl
@[simp] theorem setCache_sec (r : Nat) (l : List QDesc) (s : State) : (setCache r l s).sec = s.sec := rfl
@[simp] theorem setCache_sha (r : Nat) (l : List QDesc) (s : State) : (setCache r l s).sha = s.sha := rfl
@[simp] theorem setCache_dict (r : Nat) (l : List QDesc) (s : State) : (setCache r l s).dict = s.dict := rfl
@[simp] theorem setCache_dl (r : Nat) (l : List QDesc) (s : State) : (setCache r l s).dl = s.dl := rfl
@[simp] theorem setCache_hw (r : Nat) (l : List QDesc) (s : State) : (setCache r l s).hw = s.hw := rfl

/-! setComp -/

@[simp] theorem setComp_pending (n : Nat) (c : Comp) (s : State) : (setComp n c s).pending = s.pending := rfl
@[simp] theorem setComp_fresh (n : Nat) (c : Comp) (s : State) : (setComp n c s).fresh = s.fresh := rfl
@[simp] theorem setComp_cells (n : Nat) (c : Comp) (s : State) : (setComp n c s).cells = s.cells := rfl
@[simp] theorem setComp_mem (n : Nat) (c : Comp) (s : State) : (setComp n c s).mem = s.mem := rfl
@[simp] theorem setComp_tags (n : Nat) (c : Comp) (s : State) : (setComp n c s).tags = s.tags := rfl
@[simp] theorem setComp_caches (n : Nat) (c : Comp) (s : State) : (setComp n c s).caches = s.caches := rfl
@[simp] theorem setComp_regs (n : Nat) (c : Comp) (s : State) : (setComp n c s).regs = s.regs := rfl
@[simp] theorem setComp_time (n : Nat) (c : Comp) (s : State) : (setComp n c s).time = s.time := rfl
@[simp] theorem setComp_v128 (n : Nat) (c : Comp) (s : State) : (setComp n c s).v128 = s.v128 := rfl
@[simp] theorem setComp_striped (n : Nat) (c : Comp) (s : State) : (setComp n c s).striped = s.striped := rfl
@[simp] theorem setComp_fenced (n : Nat) (c : Comp) (s : State) : (setComp n c s).fenced = s.fenced := rfl
@[simp] theorem setComp_offline (n : Nat) (c : Comp) (s : State) : (setComp n c s).offline = s.offline := rfl
@[simp] theorem setComp_gatePend (n : Nat) (c : Comp) (s : State) : (setComp n c s).gatePend = s.gatePend := rfl
@[simp] theorem setComp_posts (n : Nat) (c : Comp) (s : State) : (setComp n c s).posts = s.posts := rfl
@[simp] theorem setComp_qman (n : Nat) (c : Comp) (s : State) : (setComp n c s).qman = s.qman := rfl
@[simp] theorem setComp_qcache (n : Nat) (c : Comp) (s : State) : (setComp n c s).qcache = s.qcache := rfl
@[simp] theorem setComp_qwait (n : Nat) (c : Comp) (s : State) : (setComp n c s).qwait = s.qwait := rfl
@[simp] theorem setComp_qReady (n : Nat) (c : Comp) (s : State) : (setComp n c s).qReady = s.qReady := rfl
@[simp] theorem setComp_qbaseSet (n : Nat) (c : Comp) (s : State) : (setComp n c s).qbaseSet = s.qbaseSet := rfl
@[simp] theorem setComp_links (n : Nat) (c : Comp) (s : State) : (setComp n c s).links = s.links := rfl
@[simp] theorem setComp_subs (n : Nat) (c : Comp) (s : State) : (setComp n c s).subs = s.subs := rfl
@[simp] theorem setComp_grids (n : Nat) (c : Comp) (s : State) : (setComp n c s).grids = s.grids := rfl
@[simp] theorem setComp_dups (n : Nat) (c : Comp) (s : State) : (setComp n c s).dups = s.dups := rfl
@[simp] theorem setComp_busLost (n : Nat) (c : Comp) (s : State) : (setComp n c s).busLost = s.busLost := rfl
@[simp] theorem setComp_qmet (n : Nat) (c : Comp) (s : State) : (setComp n c s).qmet = s.qmet := rfl
@[simp] theorem setComp_waits (n : Nat) (c : Comp) (s : State) : (setComp n c s).waits = s.waits := rfl
@[simp] theorem setComp_supvAt (n : Nat) (c : Comp) (s : State) : (setComp n c s).supvAt = s.supvAt := rfl
@[simp] theorem setComp_trip (n : Nat) (c : Comp) (s : State) : (setComp n c s).trip = s.trip := rfl
@[simp] theorem setComp_pairSeq (n : Nat) (c : Comp) (s : State) : (setComp n c s).pairSeq = s.pairSeq := rfl
@[simp] theorem setComp_gtimer (n : Nat) (c : Comp) (s : State) : (setComp n c s).gtimer = s.gtimer := rfl
@[simp] theorem setComp_gocbTail (n : Nat) (c : Comp) (s : State) : (setComp n c s).gocbTail = s.gocbTail := rfl
@[simp] theorem setComp_bins (n : Nat) (c : Comp) (s : State) : (setComp n c s).bins = s.bins := rfl
@[simp] theorem setComp_binSeq (n : Nat) (c : Comp) (s : State) : (setComp n c s).binSeq = s.binSeq := rfl
@[simp] theorem setComp_irig (n : Nat) (c : Comp) (s : State) : (setComp n c s).irig = s.irig := rfl
@[simp] theorem setComp_pps (n : Nat) (c : Comp) (s : State) : (setComp n c s).pps = s.pps := rfl
@[simp] theorem setComp_ptp (n : Nat) (c : Comp) (s : State) : (setComp n c s).ptp = s.ptp := rfl
@[simp] theorem setComp_outs (n : Nat) (c : Comp) (s : State) : (setComp n c s).outs = s.outs := rfl
@[simp] theorem setComp_blks (n : Nat) (c : Comp) (s : State) : (setComp n c s).blks = s.blks := rfl
@[simp] theorem setComp_vin (n : Nat) (c : Comp) (s : State) : (setComp n c s).vin = s.vin := rfl
@[simp] theorem setComp_tx (n : Nat) (c : Comp) (s : State) : (setComp n c s).tx = s.tx := rfl
@[simp] theorem setComp_dma (n : Nat) (c : Comp) (s : State) : (setComp n c s).dma = s.dma := rfl
@[simp] theorem setComp_dev (n : Nat) (c : Comp) (s : State) : (setComp n c s).dev = s.dev := rfl
@[simp] theorem setComp_hubLost (n : Nat) (c : Comp) (s : State) : (setComp n c s).hubLost = s.hubLost := rfl
@[simp] theorem setComp_fatal (n : Nat) (c : Comp) (s : State) : (setComp n c s).fatal = s.fatal := rfl
@[simp] theorem setComp_log (n : Nat) (c : Comp) (s : State) : (setComp n c s).log = s.log := rfl
@[simp] theorem setComp_tail (n : Nat) (c : Comp) (s : State) : (setComp n c s).tail = s.tail := rfl
@[simp] theorem setComp_tailGen (n : Nat) (c : Comp) (s : State) : (setComp n c s).tailGen = s.tailGen := rfl
@[simp] theorem setComp_tailPatch (n : Nat) (c : Comp) (s : State) : (setComp n c s).tailPatch = s.tailPatch := rfl
@[simp] theorem setComp_logNext (n : Nat) (c : Comp) (s : State) : (setComp n c s).logNext = s.logNext := rfl
@[simp] theorem setComp_logLost (n : Nat) (c : Comp) (s : State) : (setComp n c s).logLost = s.logLost := rfl
@[simp] theorem setComp_objs (n : Nat) (c : Comp) (s : State) : (setComp n c s).objs = s.objs := rfl
@[simp] theorem setComp_twin (n : Nat) (c : Comp) (s : State) : (setComp n c s).twin = s.twin := rfl
@[simp] theorem setComp_chip (n : Nat) (c : Comp) (s : State) : (setComp n c s).chip = s.chip := rfl
@[simp] theorem setComp_sec (n : Nat) (c : Comp) (s : State) : (setComp n c s).sec = s.sec := rfl
@[simp] theorem setComp_sha (n : Nat) (c : Comp) (s : State) : (setComp n c s).sha = s.sha := rfl
@[simp] theorem setComp_dict (n : Nat) (c : Comp) (s : State) : (setComp n c s).dict = s.dict := rfl
@[simp] theorem setComp_dl (n : Nat) (c : Comp) (s : State) : (setComp n c s).dl = s.dl := rfl
@[simp] theorem setComp_hw (n : Nat) (c : Comp) (s : State) : (setComp n c s).hw = s.hw := rfl

/-! setTenant -/

@[simp] theorem setTenant_pending (n : Nat) (x : Tenant) (s : State) : (setTenant n x s).pending = s.pending := rfl
@[simp] theorem setTenant_fresh (n : Nat) (x : Tenant) (s : State) : (setTenant n x s).fresh = s.fresh := rfl
@[simp] theorem setTenant_cells (n : Nat) (x : Tenant) (s : State) : (setTenant n x s).cells = s.cells := rfl
@[simp] theorem setTenant_mem (n : Nat) (x : Tenant) (s : State) : (setTenant n x s).mem = s.mem := rfl
@[simp] theorem setTenant_tags (n : Nat) (x : Tenant) (s : State) : (setTenant n x s).tags = s.tags := rfl
@[simp] theorem setTenant_caches (n : Nat) (x : Tenant) (s : State) : (setTenant n x s).caches = s.caches := rfl
@[simp] theorem setTenant_regs (n : Nat) (x : Tenant) (s : State) : (setTenant n x s).regs = s.regs := rfl
@[simp] theorem setTenant_time (n : Nat) (x : Tenant) (s : State) : (setTenant n x s).time = s.time := rfl
@[simp] theorem setTenant_v128 (n : Nat) (x : Tenant) (s : State) : (setTenant n x s).v128 = s.v128 := rfl
@[simp] theorem setTenant_striped (n : Nat) (x : Tenant) (s : State) : (setTenant n x s).striped = s.striped := rfl
@[simp] theorem setTenant_fenced (n : Nat) (x : Tenant) (s : State) : (setTenant n x s).fenced = s.fenced := rfl
@[simp] theorem setTenant_offline (n : Nat) (x : Tenant) (s : State) : (setTenant n x s).offline = s.offline := rfl
@[simp] theorem setTenant_gatePend (n : Nat) (x : Tenant) (s : State) : (setTenant n x s).gatePend = s.gatePend := rfl
@[simp] theorem setTenant_posts (n : Nat) (x : Tenant) (s : State) : (setTenant n x s).posts = s.posts := rfl
@[simp] theorem setTenant_qman (n : Nat) (x : Tenant) (s : State) : (setTenant n x s).qman = s.qman := rfl
@[simp] theorem setTenant_qcache (n : Nat) (x : Tenant) (s : State) : (setTenant n x s).qcache = s.qcache := rfl
@[simp] theorem setTenant_qwait (n : Nat) (x : Tenant) (s : State) : (setTenant n x s).qwait = s.qwait := rfl
@[simp] theorem setTenant_qReady (n : Nat) (x : Tenant) (s : State) : (setTenant n x s).qReady = s.qReady := rfl
@[simp] theorem setTenant_qbaseSet (n : Nat) (x : Tenant) (s : State) : (setTenant n x s).qbaseSet = s.qbaseSet := rfl
@[simp] theorem setTenant_links (n : Nat) (x : Tenant) (s : State) : (setTenant n x s).links = s.links := rfl
@[simp] theorem setTenant_subs (n : Nat) (x : Tenant) (s : State) : (setTenant n x s).subs = s.subs := rfl
@[simp] theorem setTenant_grids (n : Nat) (x : Tenant) (s : State) : (setTenant n x s).grids = s.grids := rfl
@[simp] theorem setTenant_dups (n : Nat) (x : Tenant) (s : State) : (setTenant n x s).dups = s.dups := rfl
@[simp] theorem setTenant_busLost (n : Nat) (x : Tenant) (s : State) : (setTenant n x s).busLost = s.busLost := rfl
@[simp] theorem setTenant_qmet (n : Nat) (x : Tenant) (s : State) : (setTenant n x s).qmet = s.qmet := rfl
@[simp] theorem setTenant_waits (n : Nat) (x : Tenant) (s : State) : (setTenant n x s).waits = s.waits := rfl
@[simp] theorem setTenant_supvAt (n : Nat) (x : Tenant) (s : State) : (setTenant n x s).supvAt = s.supvAt := rfl
@[simp] theorem setTenant_trip (n : Nat) (x : Tenant) (s : State) : (setTenant n x s).trip = s.trip := rfl
@[simp] theorem setTenant_pairSeq (n : Nat) (x : Tenant) (s : State) : (setTenant n x s).pairSeq = s.pairSeq := rfl
@[simp] theorem setTenant_gtimer (n : Nat) (x : Tenant) (s : State) : (setTenant n x s).gtimer = s.gtimer := rfl
@[simp] theorem setTenant_gocbTail (n : Nat) (x : Tenant) (s : State) : (setTenant n x s).gocbTail = s.gocbTail := rfl
@[simp] theorem setTenant_bins (n : Nat) (x : Tenant) (s : State) : (setTenant n x s).bins = s.bins := rfl
@[simp] theorem setTenant_binSeq (n : Nat) (x : Tenant) (s : State) : (setTenant n x s).binSeq = s.binSeq := rfl
@[simp] theorem setTenant_irig (n : Nat) (x : Tenant) (s : State) : (setTenant n x s).irig = s.irig := rfl
@[simp] theorem setTenant_pps (n : Nat) (x : Tenant) (s : State) : (setTenant n x s).pps = s.pps := rfl
@[simp] theorem setTenant_ptp (n : Nat) (x : Tenant) (s : State) : (setTenant n x s).ptp = s.ptp := rfl
@[simp] theorem setTenant_outs (n : Nat) (x : Tenant) (s : State) : (setTenant n x s).outs = s.outs := rfl
@[simp] theorem setTenant_blks (n : Nat) (x : Tenant) (s : State) : (setTenant n x s).blks = s.blks := rfl
@[simp] theorem setTenant_vin (n : Nat) (x : Tenant) (s : State) : (setTenant n x s).vin = s.vin := rfl
@[simp] theorem setTenant_tx (n : Nat) (x : Tenant) (s : State) : (setTenant n x s).tx = s.tx := rfl
@[simp] theorem setTenant_dma (n : Nat) (x : Tenant) (s : State) : (setTenant n x s).dma = s.dma := rfl
@[simp] theorem setTenant_dev (n : Nat) (x : Tenant) (s : State) : (setTenant n x s).dev = s.dev := rfl
@[simp] theorem setTenant_hubLost (n : Nat) (x : Tenant) (s : State) : (setTenant n x s).hubLost = s.hubLost := rfl
@[simp] theorem setTenant_fatal (n : Nat) (x : Tenant) (s : State) : (setTenant n x s).fatal = s.fatal := rfl
@[simp] theorem setTenant_log (n : Nat) (x : Tenant) (s : State) : (setTenant n x s).log = s.log := rfl
@[simp] theorem setTenant_tail (n : Nat) (x : Tenant) (s : State) : (setTenant n x s).tail = s.tail := rfl
@[simp] theorem setTenant_tailGen (n : Nat) (x : Tenant) (s : State) : (setTenant n x s).tailGen = s.tailGen := rfl
@[simp] theorem setTenant_tailPatch (n : Nat) (x : Tenant) (s : State) : (setTenant n x s).tailPatch = s.tailPatch := rfl
@[simp] theorem setTenant_logNext (n : Nat) (x : Tenant) (s : State) : (setTenant n x s).logNext = s.logNext := rfl
@[simp] theorem setTenant_logLost (n : Nat) (x : Tenant) (s : State) : (setTenant n x s).logLost = s.logLost := rfl
@[simp] theorem setTenant_objs (n : Nat) (x : Tenant) (s : State) : (setTenant n x s).objs = s.objs := rfl
@[simp] theorem setTenant_twin (n : Nat) (x : Tenant) (s : State) : (setTenant n x s).twin = s.twin := rfl
@[simp] theorem setTenant_chip (n : Nat) (x : Tenant) (s : State) : (setTenant n x s).chip = s.chip := rfl
@[simp] theorem setTenant_sec (n : Nat) (x : Tenant) (s : State) : (setTenant n x s).sec = s.sec := rfl
@[simp] theorem setTenant_sha (n : Nat) (x : Tenant) (s : State) : (setTenant n x s).sha = s.sha := rfl
@[simp] theorem setTenant_dict (n : Nat) (x : Tenant) (s : State) : (setTenant n x s).dict = s.dict := rfl
@[simp] theorem setTenant_dl (n : Nat) (x : Tenant) (s : State) : (setTenant n x s).dl = s.dl := rfl
@[simp] theorem setTenant_hw (n : Nat) (x : Tenant) (s : State) : (setTenant n x s).hw = s.hw := rfl

/-! setMonBlk -/

@[simp] theorem setMonBlk_pending (b : Nat) (x : MonBlk) (s : State) : (setMonBlk b x s).pending = s.pending := rfl
@[simp] theorem setMonBlk_fresh (b : Nat) (x : MonBlk) (s : State) : (setMonBlk b x s).fresh = s.fresh := rfl
@[simp] theorem setMonBlk_cells (b : Nat) (x : MonBlk) (s : State) : (setMonBlk b x s).cells = s.cells := rfl
@[simp] theorem setMonBlk_mem (b : Nat) (x : MonBlk) (s : State) : (setMonBlk b x s).mem = s.mem := rfl
@[simp] theorem setMonBlk_tags (b : Nat) (x : MonBlk) (s : State) : (setMonBlk b x s).tags = s.tags := rfl
@[simp] theorem setMonBlk_caches (b : Nat) (x : MonBlk) (s : State) : (setMonBlk b x s).caches = s.caches := rfl
@[simp] theorem setMonBlk_regs (b : Nat) (x : MonBlk) (s : State) : (setMonBlk b x s).regs = s.regs := rfl
@[simp] theorem setMonBlk_time (b : Nat) (x : MonBlk) (s : State) : (setMonBlk b x s).time = s.time := rfl
@[simp] theorem setMonBlk_v128 (b : Nat) (x : MonBlk) (s : State) : (setMonBlk b x s).v128 = s.v128 := rfl
@[simp] theorem setMonBlk_striped (b : Nat) (x : MonBlk) (s : State) : (setMonBlk b x s).striped = s.striped := rfl
@[simp] theorem setMonBlk_fenced (b : Nat) (x : MonBlk) (s : State) : (setMonBlk b x s).fenced = s.fenced := rfl
@[simp] theorem setMonBlk_offline (b : Nat) (x : MonBlk) (s : State) : (setMonBlk b x s).offline = s.offline := rfl
@[simp] theorem setMonBlk_gatePend (b : Nat) (x : MonBlk) (s : State) : (setMonBlk b x s).gatePend = s.gatePend := rfl
@[simp] theorem setMonBlk_posts (b : Nat) (x : MonBlk) (s : State) : (setMonBlk b x s).posts = s.posts := rfl
@[simp] theorem setMonBlk_qman (b : Nat) (x : MonBlk) (s : State) : (setMonBlk b x s).qman = s.qman := rfl
@[simp] theorem setMonBlk_qcache (b : Nat) (x : MonBlk) (s : State) : (setMonBlk b x s).qcache = s.qcache := rfl
@[simp] theorem setMonBlk_qwait (b : Nat) (x : MonBlk) (s : State) : (setMonBlk b x s).qwait = s.qwait := rfl
@[simp] theorem setMonBlk_qReady (b : Nat) (x : MonBlk) (s : State) : (setMonBlk b x s).qReady = s.qReady := rfl
@[simp] theorem setMonBlk_qbaseSet (b : Nat) (x : MonBlk) (s : State) : (setMonBlk b x s).qbaseSet = s.qbaseSet := rfl
@[simp] theorem setMonBlk_links (b : Nat) (x : MonBlk) (s : State) : (setMonBlk b x s).links = s.links := rfl
@[simp] theorem setMonBlk_subs (b : Nat) (x : MonBlk) (s : State) : (setMonBlk b x s).subs = s.subs := rfl
@[simp] theorem setMonBlk_grids (b : Nat) (x : MonBlk) (s : State) : (setMonBlk b x s).grids = s.grids := rfl
@[simp] theorem setMonBlk_dups (b : Nat) (x : MonBlk) (s : State) : (setMonBlk b x s).dups = s.dups := rfl
@[simp] theorem setMonBlk_busLost (b : Nat) (x : MonBlk) (s : State) : (setMonBlk b x s).busLost = s.busLost := rfl
@[simp] theorem setMonBlk_qmet (b : Nat) (x : MonBlk) (s : State) : (setMonBlk b x s).qmet = s.qmet := rfl
@[simp] theorem setMonBlk_waits (b : Nat) (x : MonBlk) (s : State) : (setMonBlk b x s).waits = s.waits := rfl
@[simp] theorem setMonBlk_supvAt (b : Nat) (x : MonBlk) (s : State) : (setMonBlk b x s).supvAt = s.supvAt := rfl
@[simp] theorem setMonBlk_trip (b : Nat) (x : MonBlk) (s : State) : (setMonBlk b x s).trip = s.trip := rfl
@[simp] theorem setMonBlk_pairSeq (b : Nat) (x : MonBlk) (s : State) : (setMonBlk b x s).pairSeq = s.pairSeq := rfl
@[simp] theorem setMonBlk_gtimer (b : Nat) (x : MonBlk) (s : State) : (setMonBlk b x s).gtimer = s.gtimer := rfl
@[simp] theorem setMonBlk_gocbTail (b : Nat) (x : MonBlk) (s : State) : (setMonBlk b x s).gocbTail = s.gocbTail := rfl
@[simp] theorem setMonBlk_bins (b : Nat) (x : MonBlk) (s : State) : (setMonBlk b x s).bins = s.bins := rfl
@[simp] theorem setMonBlk_binSeq (b : Nat) (x : MonBlk) (s : State) : (setMonBlk b x s).binSeq = s.binSeq := rfl
@[simp] theorem setMonBlk_irig (b : Nat) (x : MonBlk) (s : State) : (setMonBlk b x s).irig = s.irig := rfl
@[simp] theorem setMonBlk_pps (b : Nat) (x : MonBlk) (s : State) : (setMonBlk b x s).pps = s.pps := rfl
@[simp] theorem setMonBlk_ptp (b : Nat) (x : MonBlk) (s : State) : (setMonBlk b x s).ptp = s.ptp := rfl
@[simp] theorem setMonBlk_outs (b : Nat) (x : MonBlk) (s : State) : (setMonBlk b x s).outs = s.outs := rfl
@[simp] theorem setMonBlk_blks (b : Nat) (x : MonBlk) (s : State) : (setMonBlk b x s).blks = s.blks := rfl
@[simp] theorem setMonBlk_vin (b : Nat) (x : MonBlk) (s : State) : (setMonBlk b x s).vin = s.vin := rfl
@[simp] theorem setMonBlk_tx (b : Nat) (x : MonBlk) (s : State) : (setMonBlk b x s).tx = s.tx := rfl
@[simp] theorem setMonBlk_dma (b : Nat) (x : MonBlk) (s : State) : (setMonBlk b x s).dma = s.dma := rfl
@[simp] theorem setMonBlk_dev (b : Nat) (x : MonBlk) (s : State) : (setMonBlk b x s).dev = s.dev := rfl
@[simp] theorem setMonBlk_hubLost (b : Nat) (x : MonBlk) (s : State) : (setMonBlk b x s).hubLost = s.hubLost := rfl
@[simp] theorem setMonBlk_fatal (b : Nat) (x : MonBlk) (s : State) : (setMonBlk b x s).fatal = s.fatal := rfl
@[simp] theorem setMonBlk_log (b : Nat) (x : MonBlk) (s : State) : (setMonBlk b x s).log = s.log := rfl
@[simp] theorem setMonBlk_tail (b : Nat) (x : MonBlk) (s : State) : (setMonBlk b x s).tail = s.tail := rfl
@[simp] theorem setMonBlk_tailGen (b : Nat) (x : MonBlk) (s : State) : (setMonBlk b x s).tailGen = s.tailGen := rfl
@[simp] theorem setMonBlk_tailPatch (b : Nat) (x : MonBlk) (s : State) : (setMonBlk b x s).tailPatch = s.tailPatch := rfl
@[simp] theorem setMonBlk_logNext (b : Nat) (x : MonBlk) (s : State) : (setMonBlk b x s).logNext = s.logNext := rfl
@[simp] theorem setMonBlk_logLost (b : Nat) (x : MonBlk) (s : State) : (setMonBlk b x s).logLost = s.logLost := rfl
@[simp] theorem setMonBlk_objs (b : Nat) (x : MonBlk) (s : State) : (setMonBlk b x s).objs = s.objs := rfl
@[simp] theorem setMonBlk_twin (b : Nat) (x : MonBlk) (s : State) : (setMonBlk b x s).twin = s.twin := rfl
@[simp] theorem setMonBlk_chip (b : Nat) (x : MonBlk) (s : State) : (setMonBlk b x s).chip = s.chip := rfl
@[simp] theorem setMonBlk_sec (b : Nat) (x : MonBlk) (s : State) : (setMonBlk b x s).sec = s.sec := rfl
@[simp] theorem setMonBlk_sha (b : Nat) (x : MonBlk) (s : State) : (setMonBlk b x s).sha = s.sha := rfl
@[simp] theorem setMonBlk_dict (b : Nat) (x : MonBlk) (s : State) : (setMonBlk b x s).dict = s.dict := rfl
@[simp] theorem setMonBlk_dl (b : Nat) (x : MonBlk) (s : State) : (setMonBlk b x s).dl = s.dl := rfl
@[simp] theorem setMonBlk_hw (b : Nat) (x : MonBlk) (s : State) : (setMonBlk b x s).hw = s.hw := rfl

/-! setCage -/

@[simp] theorem setCage_pending (q : Nat) (c : Cage) (s : State) : (setCage q c s).pending = s.pending := rfl
@[simp] theorem setCage_fresh (q : Nat) (c : Cage) (s : State) : (setCage q c s).fresh = s.fresh := rfl
@[simp] theorem setCage_cells (q : Nat) (c : Cage) (s : State) : (setCage q c s).cells = s.cells := rfl
@[simp] theorem setCage_mem (q : Nat) (c : Cage) (s : State) : (setCage q c s).mem = s.mem := rfl
@[simp] theorem setCage_tags (q : Nat) (c : Cage) (s : State) : (setCage q c s).tags = s.tags := rfl
@[simp] theorem setCage_caches (q : Nat) (c : Cage) (s : State) : (setCage q c s).caches = s.caches := rfl
@[simp] theorem setCage_regs (q : Nat) (c : Cage) (s : State) : (setCage q c s).regs = s.regs := rfl
@[simp] theorem setCage_time (q : Nat) (c : Cage) (s : State) : (setCage q c s).time = s.time := rfl
@[simp] theorem setCage_v128 (q : Nat) (c : Cage) (s : State) : (setCage q c s).v128 = s.v128 := rfl
@[simp] theorem setCage_striped (q : Nat) (c : Cage) (s : State) : (setCage q c s).striped = s.striped := rfl
@[simp] theorem setCage_fenced (q : Nat) (c : Cage) (s : State) : (setCage q c s).fenced = s.fenced := rfl
@[simp] theorem setCage_offline (q : Nat) (c : Cage) (s : State) : (setCage q c s).offline = s.offline := rfl
@[simp] theorem setCage_gatePend (q : Nat) (c : Cage) (s : State) : (setCage q c s).gatePend = s.gatePend := rfl
@[simp] theorem setCage_posts (q : Nat) (c : Cage) (s : State) : (setCage q c s).posts = s.posts := rfl
@[simp] theorem setCage_qman (q : Nat) (c : Cage) (s : State) : (setCage q c s).qman = s.qman := rfl
@[simp] theorem setCage_qcache (q : Nat) (c : Cage) (s : State) : (setCage q c s).qcache = s.qcache := rfl
@[simp] theorem setCage_qwait (q : Nat) (c : Cage) (s : State) : (setCage q c s).qwait = s.qwait := rfl
@[simp] theorem setCage_qReady (q : Nat) (c : Cage) (s : State) : (setCage q c s).qReady = s.qReady := rfl
@[simp] theorem setCage_qbaseSet (q : Nat) (c : Cage) (s : State) : (setCage q c s).qbaseSet = s.qbaseSet := rfl
@[simp] theorem setCage_links (q : Nat) (c : Cage) (s : State) : (setCage q c s).links = s.links := rfl
@[simp] theorem setCage_subs (q : Nat) (c : Cage) (s : State) : (setCage q c s).subs = s.subs := rfl
@[simp] theorem setCage_grids (q : Nat) (c : Cage) (s : State) : (setCage q c s).grids = s.grids := rfl
@[simp] theorem setCage_dups (q : Nat) (c : Cage) (s : State) : (setCage q c s).dups = s.dups := rfl
@[simp] theorem setCage_busLost (q : Nat) (c : Cage) (s : State) : (setCage q c s).busLost = s.busLost := rfl
@[simp] theorem setCage_qmet (q : Nat) (c : Cage) (s : State) : (setCage q c s).qmet = s.qmet := rfl
@[simp] theorem setCage_waits (q : Nat) (c : Cage) (s : State) : (setCage q c s).waits = s.waits := rfl
@[simp] theorem setCage_supvAt (q : Nat) (c : Cage) (s : State) : (setCage q c s).supvAt = s.supvAt := rfl
@[simp] theorem setCage_trip (q : Nat) (c : Cage) (s : State) : (setCage q c s).trip = s.trip := rfl
@[simp] theorem setCage_pairSeq (q : Nat) (c : Cage) (s : State) : (setCage q c s).pairSeq = s.pairSeq := rfl
@[simp] theorem setCage_gtimer (q : Nat) (c : Cage) (s : State) : (setCage q c s).gtimer = s.gtimer := rfl
@[simp] theorem setCage_gocbTail (q : Nat) (c : Cage) (s : State) : (setCage q c s).gocbTail = s.gocbTail := rfl
@[simp] theorem setCage_bins (q : Nat) (c : Cage) (s : State) : (setCage q c s).bins = s.bins := rfl
@[simp] theorem setCage_binSeq (q : Nat) (c : Cage) (s : State) : (setCage q c s).binSeq = s.binSeq := rfl
@[simp] theorem setCage_irig (q : Nat) (c : Cage) (s : State) : (setCage q c s).irig = s.irig := rfl
@[simp] theorem setCage_pps (q : Nat) (c : Cage) (s : State) : (setCage q c s).pps = s.pps := rfl
@[simp] theorem setCage_ptp (q : Nat) (c : Cage) (s : State) : (setCage q c s).ptp = s.ptp := rfl
@[simp] theorem setCage_outs (q : Nat) (c : Cage) (s : State) : (setCage q c s).outs = s.outs := rfl
@[simp] theorem setCage_blks (q : Nat) (c : Cage) (s : State) : (setCage q c s).blks = s.blks := rfl
@[simp] theorem setCage_vin (q : Nat) (c : Cage) (s : State) : (setCage q c s).vin = s.vin := rfl
@[simp] theorem setCage_tx (q : Nat) (c : Cage) (s : State) : (setCage q c s).tx = s.tx := rfl
@[simp] theorem setCage_dma (q : Nat) (c : Cage) (s : State) : (setCage q c s).dma = s.dma := rfl
@[simp] theorem setCage_dev (q : Nat) (c : Cage) (s : State) : (setCage q c s).dev = s.dev := rfl
@[simp] theorem setCage_hubLost (q : Nat) (c : Cage) (s : State) : (setCage q c s).hubLost = s.hubLost := rfl
@[simp] theorem setCage_fatal (q : Nat) (c : Cage) (s : State) : (setCage q c s).fatal = s.fatal := rfl
@[simp] theorem setCage_log (q : Nat) (c : Cage) (s : State) : (setCage q c s).log = s.log := rfl
@[simp] theorem setCage_tail (q : Nat) (c : Cage) (s : State) : (setCage q c s).tail = s.tail := rfl
@[simp] theorem setCage_tailGen (q : Nat) (c : Cage) (s : State) : (setCage q c s).tailGen = s.tailGen := rfl
@[simp] theorem setCage_tailPatch (q : Nat) (c : Cage) (s : State) : (setCage q c s).tailPatch = s.tailPatch := rfl
@[simp] theorem setCage_logNext (q : Nat) (c : Cage) (s : State) : (setCage q c s).logNext = s.logNext := rfl
@[simp] theorem setCage_logLost (q : Nat) (c : Cage) (s : State) : (setCage q c s).logLost = s.logLost := rfl
@[simp] theorem setCage_objs (q : Nat) (c : Cage) (s : State) : (setCage q c s).objs = s.objs := rfl
@[simp] theorem setCage_mon (q : Nat) (c : Cage) (s : State) : (setCage q c s).mon = s.mon := rfl
@[simp] theorem setCage_twin (q : Nat) (c : Cage) (s : State) : (setCage q c s).twin = s.twin := rfl
@[simp] theorem setCage_chip (q : Nat) (c : Cage) (s : State) : (setCage q c s).chip = s.chip := rfl
@[simp] theorem setCage_sec (q : Nat) (c : Cage) (s : State) : (setCage q c s).sec = s.sec := rfl
@[simp] theorem setCage_sha (q : Nat) (c : Cage) (s : State) : (setCage q c s).sha = s.sha := rfl
@[simp] theorem setCage_dict (q : Nat) (c : Cage) (s : State) : (setCage q c s).dict = s.dict := rfl
@[simp] theorem setCage_dl (q : Nat) (c : Cage) (s : State) : (setCage q c s).dl = s.dl := rfl

/-! Read after write -/

@[simp] theorem reg_setReg_same (a : Nat) (v : W) (s : State) : reg (setReg a v s) a = v := by
  simp [reg, setReg, tblFind_tblSet_same]

theorem reg_setReg_other {a b : Nat} (h : b ≠ a) (v : W) (s : State) : reg (setReg a v s) b = reg s b := by
  simp [reg, setReg, tblFind_tblSet_other h]

theorem cellOf_setCell_other {m n : Nat} (h : m ≠ n) (c : Cell) (s : State) : cellOf (setCell n c s) m = cellOf s m := by
  simp [cellOf, setCell, tblGet_tblSet_other h]

@[simp] theorem bankOf_setBank_run (b : Nat) (k : Bank) (c : Cell) : (setBank b k c).run = c.run := rfl

@[simp] theorem setBank_now (b : Nat) (k : Bank) (c : Cell) : (setBank b k c).now = c.now := rfl

theorem bankOf_setBank_other {a b : Nat} (h : a ≠ b) (k : Bank) (c : Cell) : bankOf (setBank b k c) a = bankOf c a := by
  simp [bankOf, setBank, tblGet_tblSet_other h]

end Sys2Proof.Machine
end

