-- ==== Sys2Proof/WellFormed.lean ====
section
/-! DEFINITION. Which commands are well formed: operands within the ranges that the spec gives the things they
number. -/

namespace Sys2Proof

/-- A core: a cell, or a hub core under its ID (R46). -/
def okCore (n : Nat) : Bool := decide (n < 0x104)

/-- A long immediate stands in slot A (R105). -/
def okIss (m : Iss) : Bool :=
  okCore m.core && (match m.src with
    | .lit _ => !m.slotB
    | _ => true)

/-- A session number (R502). -/
def okSess (n : Nat) : Bool := decide (1 ≤ n) && decide (n ≤ 8)

/-- A CAN FD frame holds at most 64 bytes; a UDP address has 32 bits and a port 16 (R494). -/
def okMsg (m : Msg) : Bool :=
  match m.carrier with
  | .can _ => decide (m.bytes.length ≤ 64)
  | .udp a p => decide (a < 2 ^ 32) && decide (p < 2 ^ 16)
  | .pcie => true

/-- A record of the error report, by its dictionary index (R293). -/
def okRecord (i : Nat) : Bool :=
  decide (i = 0x8100 ∨ (0x8110 ≤ i ∧ i < 0x8114) ∨ (0x8120 ≤ i ∧ i < 0x8130) ∨ (0x8200 ≤ i ∧ i < 0x8300))

/-- The trigger ports, first and last of each run (R89). -/
def triggerRuns : List (Nat × Nat) :=
  [(0x048, 0x052), (0x058, 0x05F), (0x068, 0x072), (0x078, 0x07F), (0x088, 0x08B), (0x098, 0x099), (0x0A8, 0x0B3)]
  ++ [(0x0D0, 0x0DF), (0x108, 0x116), (0x128, 0x131), (0x148, 0x14E), (0x150, 0x154), (0x168, 0x169), (0x180, 0x186)]
  ++ [(0x198, 0x19A), (0x1B0, 0x1B2), (0x1B4, 0x1B5), (0x1B8, 0x1B8), (0x1BC, 0x1BD), (0x1C0, 0x1C1), (0x1C4, 0x1C5)]

/-- The ports that start a unit operation. -/
def isTrigger (p : BitVec 10) : Bool := triggerRuns.any (fun r => decide (r.1 ≤ p.toNat) && decide (p.toNat ≤ r.2))

/-- Every operand of the command lies in its range. -/
def Instr.wf (i : Instr) : Bool :=
  match i with
  | .registerMove dst m => !isTrigger dst && okIss m
  | .aluTAdd _ m => okIss m
  | .aluTSub _ m => okIss m
  | .aluTAnd _ m => okIss m
  | .aluTOr _ m => okIss m
  | .aluTXor _ m => okIss m
  | .aluTAndn _ m => okIss m
  | .aluTNeg _ m => okIss m
  | .aluTMin _ m => okIss m
  | .aluTMax _ m => okIss m
  | .aluTMinu _ m => okIss m
  | .aluTMaxu _ m => okIss m
  | .aluTEq _ m => okIss m
  | .aluTNe _ m => okIss m
  | .aluTLt _ m => okIss m
  | .aluTLtu _ m => okIss m
  | .aluTGe _ m => okIss m
  | .aluTGeu _ m => okIss m
  | .aluTTst _ m => okIss m
  | .aluTTstz _ m => okIss m
  | .mulTMul m => okIss m
  | .mulTMulh m => okIss m
  | .mulTMulhu m => okIss m
  | .mulTMulhsu m => okIss m
  | .mulResult core => okCore core
  | .divTDivs m => okIss m
  | .divTDivu m => okIss m
  | .divResult core => okCore core
  | .shfTShl m => okIss m
  | .shfTShr m => okIss m
  | .shfTSar m => okIss m
  | .shfTRol m => okIss m
  | .shfTRor m => okIss m
  | .shfTExt m => okIss m
  | .shfTExts m => okIss m
  | .shfTIns m => okIss m
  | .shfTClz m => okIss m
  | .shfTCtz m => okIss m
  | .shfTPopc m => okIss m
  | .shfTBswap m => okIss m
  | .memTLdb m => okIss m
  | .memTLdbu m => okIss m
  | .memTLdh m => okIss m
  | .memTLdhu m => okIss m
  | .memTLdw m => okIss m
  | .memTLdwu m => okIss m
  | .memTLdd m => okIss m
  | .memTLdc m => okIss m
  | .memTStb m => okIss m
  | .memTSth m => okIss m
  | .memTStw m => okIss m
  | .memTStd m => okIss m
  | .memTStc m => okIss m
  | .memTSmm m => okIss m
  | .memTLmm m => okIss m
  | .memTPf m => okIss m
  | .blockElement core _ => okCore core
  | .loadDataReturn core _ => okCore core
  | .instructionFetchFill core _ => okCore core
  | .storePerformed core i _ => okCore core && decide (i < 16)
  | .capTSetaddr m => okIss m
  | .capTIncaddr m => okIss m
  | .capTBnd m => okIss m
  | .capTBnde m => okIss m
  | .capTAndperm m => okIss m
  | .capTSeal m => okIss m
  | .capTUnseal m => okIss m
  | .capTLand m => okIss m
  | .capTGrain m => okIss m
  | .capTCover m => okIss m
  | .capTGetbase m => okIss m
  | .capTGetlen m => okIss m
  | .capTGetmeta m => okIss m
  | .capTSubset m => okIss m
  | .capTChk m => okIss m
  | .capResult core => okCore core
  | .brTBr m => okIss m
  | .brTCall m => okIss m
  | .brTJmp m => okIss m
  | .brTJc m => okIss m
  | .brTCallc m => okIss m
  | .brTGate m => okIss m
  | .brTGret m => okIss m
  | .brTEret m => okIss m
  | .brTRep m => okIss m
  | .brTRepn m => okIss m
  | .repetition core => okCore core
  | .macTDot m => okIss m
  | .macTDotn m => okIss m
  | .macTCre m => okIss m
  | .macTCim m => okIss m
  | .macTMul m => okIss m
  | .macTSet m => okIss m
  | .macTSar m => okIss m
  | .macTRds m => okIss m
  | .macTRdw m => okIss m
  | .macTRdr m => okIss m
  | .macTRdt m => okIss m
  | .macTStclr m => okIss m
  | .macAccumulateWrite core => okCore core
  | .macReadoutWrite core => okCore core
  | .phTDft m => okIss m
  | .phTTrk m => okIss m
  | .phResult core => okCore core
  | .qTEnq m => okIss m
  | .qTEnqd m => okIss m
  | .qTDeq m => okIss m
  | .qTDeqd m => okIss m
  | .qTWait m => okIss m
  | .qTArm m => okIss m
  | .qTStat m => okIss m
  | .queueOperation region _ => decide (region < 4)
  | .qAnswer core => okCore core.core
  | .threadWake core => okCore core
  | .trpTInv m => okIss m
  | .trpTRel m => okIss m
  | .trpTQuery m => okIss m
  | .trpAck core => okCore core
  | .tripInvocation core => okCore core.n
  | .tripRelease core => okCore core.n
  | .tripQuery core => okCore core
  | .sysTInvleaf m => okIss m
  | .sysTInvwalk m => okIss m
  | .invalidationRelease core => okCore core
  | .invalidationAck issuer target => okCore issuer && okCore target
  | .sysTInvsync m => okIss m
  | .invsyncComplete core => okCore core
  | .sysTFence m => okIss m
  | .fenceComplete core => okCore core
  | .sysTGfence m => okIss m
  | .gateFenceComplete core => okCore core
  | .sysTKrset m => okIss m
  | .sysTCtlrd m => okIss m
  | .sysTCtlwr m => okIss m
  | .sysTPwr m => okIss m
  | .sysTYield m => okIss m
  | .sysTCyc m => okIss m
  | .sysTTime m => okIss m
  | .sysResult core => okCore core.core
  | .exceptionEntry e => okCore e.core
  | .threadSwitch core => okCore core
  | .quantumExpiry core => okCore core
  | .cocoonRestore core _ _ g => okCore core && decide (g < 8)
  | .spillComplete core _ g => okCore core && decide (g < 8)
  | .tcmpWrite init core _ => decide (init < 1024) && okCore core
  | .tcmpFire core => okCore core
  | .swi init core _ => decide (init < 1024) && okCore core
  | .imapClr init core src _ => decide (init < 1024) && okCore core && decide (src < 128)
  | .entryWrite init core _ => decide (init < 1024) && okCore core
  | .cctlRunStart init core _ => decide (init < 1024) && okCore core
  | .cctlStopRequest init core _ => decide (init < 1024) && okCore core
  | .cctlRst init core _ => decide (init < 1024) && okCore core
  | .cellStop core => okCore core
  | .cellStopFlushDone core => okCore core.core && decide (core.slot < 64) && decide (core.group < 8)
  | .bkld init core _ => decide (init < 1024) && okCore core
  | .bkldComplete core _ => okCore core
  | .slotStateWrite init core slot _ => decide (init < 1024) && okCore core && decide (slot < 64)
  | .slotCtxInstall init core slot _ => decide (init < 1024) && okCore core && decide (slot < 64)
  | .translationWalk core _ _ r => okCore core && decide (r.at_ < 8)
  | .gateAttrWrite init gate region _ => decide (init < 1024) && decide (gate ≤ 0x120) && decide (region < 64)
  | .gateConfigApply gate => decide (gate ≤ 0x120)
  | .gateClear init gate _ => decide (init < 1024) && decide (gate ≤ 0x120)
  | .controlSpaceWrite init addr _ => decide (init < 1024) && decide (addr < 2 ^ 48)
  | .dmaDescriptor region engine => decide (region < 4) && decide (engine.n < 2)
  | .dmaCompletion region engine _ => decide (region < 4) && decide (engine < 2)
  | .wayConfigWrite init block _ => decide (init < 1024) && decide (block < 16)
  | .wayChangeComplete block => decide (block < 16)
  | .wkick init core _ => decide (init < 1024) && okCore core
  | .watchdogHalfPeriod core => okCore core
  | .watchdogExpiry core => okCore core
  | .arbitrationTimeout block init addr => decide (block < 16) && decide (init < 1024) && decide (addr < 2 ^ 48)
  | .patrolScrub region _ _ => decide (region < 4)
  | .flitReplay link => decide (link < 26)
  | .retrainComplete link => decide (link < 26)
  | .linkFailed link => decide (link < 26)
  | .fatalError _ => true
  | .eclr init record _ =>
    decide (init < 1024) && okRecord record
  | .qbaseWrite init region _ => decide (init < 1024) && decide (region < 4)
  | .qbaseInForce => true
  | .queueCreate init region queue => decide (init < 1024) && decide (region < 4) && decide (queue.n < 2 ^ 18)
  | .queueDisable init region queue => decide (init < 1024) && decide (region < 4) && decide (queue.n < 2 ^ 18)
  | .queueRead init region queue => decide (init < 1024) && decide (region < 4) && decide (queue.n < 2 ^ 18)
  | .queueRetarget init region queue => decide (init < 1024) && decide (region < 4) && decide (queue.n < 2 ^ 18)
  | .queueClearCounters init region queue => decide (init < 1024) && decide (region < 4) && decide (queue.n < 2 ^ 18)
  | .hardwarePosting _ _ => true
  | .frameReceive f => decide (f.lane < 16)
  | .planeDeadline grid => decide (grid.n < 16)
  | .duplicateEntryForget pair _ _ => decide (pair < 8)
  | .supervisionTransmit pair => decide (pair < 8)
  | .streamLost sub => decide (sub.n < 8192)
  | .subscriptionCommit init sub _ => decide (init < 1024) && decide (sub < 8192)
  | .subscriptionDisable init sub _ => decide (init < 1024) && decide (sub < 8192)
  | .gridCommit init grid _ => decide (init < 1024) && decide (grid < 16)
  | .gridDisable init grid _ => decide (init < 1024) && decide (grid < 16)
  | .pairWordWrite init _ => decide (init < 1024)
  | .simmodeWrite init _ => decide (init < 1024)
  | .subscriptionCounterClear init _ => decide (init < 1024)
  | .ingressCounterClear init _ => decide (init < 1024)
  | .tbaseWrite init _ => decide (init < 1024)
  | .tripEnable init idx publication _ => decide (init < 1024) && decide (idx.n < (if publication then 1024 else 4096))
  | .tripDisable init idx publication => decide (init < 1024) && decide (idx.n < (if publication then 1024 else 4096))
  | .lockoutReset init idx => decide (init < 1024) && decide (idx.n < 4096)
  | .tripClearCounters init idx publication =>
    decide (init < 1024) && decide (idx < (if publication then 1024 else 4096))
  | .tpulseExpiry obj => decide (obj.n < 4096)
  | .gooseRetransmit pub _ => decide (pub < 1024)
  | .gooseTimeout sub => decide (sub < 2048)
  | .gooseSubscriptionCommit init sub _ => decide (init < 1024) && decide (sub < 2048)
  | .forceWrite init _ => decide (init < 1024)
  | .binaryInputChange k _ _ => decide (k < 32)
  | .binaryInputGlitch e => decide (e.k < 32)
  | .chatterSuppressionEnd k => decide (k < 32)
  | .sourceInvalid src => decide (1 ≤ src) && decide (src ≤ 4)
  | .holdlimExpiry => true
  | .sourceTakeover src => decide (1 ≤ src) && decide (src ≤ 4)
  | .tgo init _ => decide (init < 1024)
  | .ptpPortWrite init port _ => decide (init < 1024) && decide (port < 16)
  | .ptpTransmit port _ => decide (port < 16)
  | .irigBFrame f => decide (f.code < 8) && decide (1 ≤ f.day) && decide (f.day ≤ 366) && decide (f.sod ≤ 86400)
  | .onePpsEdge _ _ => true
  | .irigBOutputFrame => true
  | .onePpsOutputPulse _ => true
  | .manifestLoad sess _ => okSess sess
  | .manifestPlaced cid _ => decide (cid < 1024)
  | .mUnload sess cid => okSess sess && decide (cid < 1024)
  | .epochEnd _ => true
  | .migrationInstall cid => decide (cid < 1024)
  | .blockTemperatureSample block _ _ _ _ => decide (block < 16)
  | .activationRelease cid thread => decide (cid < 1024) && decide (thread < 64)
  | .hubCoreLost region => decide (region < 4)
  | .proposalConfirm sess _ => okSess sess
  | .proposalLapse => true
  | .twinHeartbeatSend => true
  | .twinPairForm p => decide (p.node < 128)
  | .twinPairTimeout => true
  | .twinHeartbeatLoss => true
  | .twinLinkRestored _ => true
  | .mirrorApply cid copy => decide (cid < 1024) && decide (copy.stage < 2 ^ 48)
  | .removeReq => true
  | .removeCancel => true
  | .rmConsent sess _ => okSess sess
  | .commit sess => okSess sess
  | .autorunCommit => true
  | .enterMaintenance sess => okSess sess
  | .leaveMaintenance sess => okSess sess
  | .resetCommand sess => okSess sess
  | .factoryRestore sess => okSess sess
  | .journalPersist _ => true
  | .evClear sess => okSess sess
  | .fwActivate sess => okSess sess
  | .fieldSecure sess => okSess sess
  | .decommission sess => okSess sess
  | .secretWrite sess _ _ => okSess sess
  | .attNonce sess _ => okSess sess
  | .attestationSigned => true
  | .openMsg msg => okMsg msg
  | .closeMsg msg => okMsg msg
  | .pingMsg msg => okMsg msg
  | .authStep1 msg => okMsg msg
  | .authStep2 msg => okMsg msg
  | .readMsg msg => okMsg msg
  | .writeMsg msg => okMsg msg
  | .uploadMsg msg => okMsg msg
  | .downloadMsg msg => okMsg msg
  | .segmentMsg msg => okMsg msg
  | .ackMsg msg => okMsg msg
  | .abortMsg msg => okMsg msg
  | .sessionIdleTimeout sess => okSess sess
  | .segmentResendTimeout sess _ _ => okSess sess
  | .transferTimeout sess _ => okSess sess
  | .quarantineEnd sess _ => okSess sess
  | .authLockoutEnd _ => true
  | .rspack _ => true
  | .canBusOff _ => true
  | .pcieLinkDown => true
  | .levelChangeRequest init block _ => decide (init < 1024) && decide (block < 16)
  | .dividerSwitch block => decide (block < 16)
  | .regulatorSlewDone block => decide (block < 16)
  | .vinCoreChangeDone _ => true
  | .vinCoreChangeTimeout _ => true
  | .vinCoreRetry => true
  | .blockRun init block _ => decide (init < 1024) && decide (block < 16)
  | .blockIdle init block _ => decide (init < 1024) && decide (block < 16)
  | .blockNap init block _ => decide (init < 1024) && decide (block < 16)
  | .blockOff init block _ => decide (init < 1024) && decide (block < 16)
  | .fullModeReady block => decide (block < 16)
  | .cenWrite init block _ => decide (init < 1024) && decide (block < 16)
  | .rclr init block _ => decide (init < 1024) && decide (block < 16)
  | .thermalForce block _ _ _ _ => decide (block < 16)
  | .thermalForceRelease block => decide (block < 16)
  | .napMonitor block _ => decide (block < 16)
  | .blockBrownOut block _ _ => decide (block < 16)
  | .standby sess => okSess sess
  | .hibernate sess => okSess sess
  | .wake sess => okSess sess
  | .wakeTimer => true
  | .canWake _ _ => true
  | .wakeStepDone _ => true
  | .wakeStepTimeout => true
  | .wakeRetry => true
  | .thermalStandby block _ => decide (block < 16)
  | .mainSupplyLoss => true
  | .mainSupplyApply => true
  | .auxSupplyApply _ _ => true
  | .auxSupplyLoss => true
  | .islandBrownOut => true
  | .sha256Job init engine lane _ =>
    decide (init < 1024) && decide (4 ≤ engine) && decide (engine < 16) && decide (lane < 8)
  | .sha256JobDone engine lane _ => decide (4 ≤ engine) && decide (engine < 16) && decide (lane < 8)
  | .bypassInst _ => true
  | .idcodeInst => true
  | .statusInst => true
  | .nonceInst => true
  | .tokenInst sess _ => sess.all okSess
  | .memapInst addr _ _ _ => decide (addr < 2 ^ 48)
  | .debugUnlockExpiry => true
  | .pcieInboundRequest _ width _ _ => decide (1 ≤ width) && decide (width ≤ 512)
  | .perstN _ => true
  | .hotSwapConnect => true
  | .hotSwapOvercurrent => true
  | .hotSwapRetry => true
  | .hotSwapDisconnect => true
  | .cageOvercurrent cage => decide (cage < 4)
  | .cageRetry cage => decide (cage < 4)
  | .pluggableInsert cage _ => decide (cage < 4)
  | .ocxoWarm => true
  | .tcxoHold => true
  | .tbaseInForce core => okCore core
  | .twinHeartbeatReceive lane => decide (lane < 4)
  | .twinTakeoverRequest _ => true
  | .twinTakeoverAck cid => decide (cid < 1024)
  | .laneLinkChange lane _ => decide (lane < 16)
  | .pcieLinkUp => true
  | .referenceFailure _ => true
  | .announceReceiptTimeout port => decide (port < 16)
  | .napEntryComplete block => decide (block < 16)
  | .identitySignatureDone => true
  | .fwImageWritten _ => true

end Sys2Proof
end

