-- ==== Sys2Proof/Tests/Slice0.lean ====
section
/-! SUPPORT. Tests of the author: ill-formed commands that the check refuses, small steps whose results are taken from the
spec's rules, and for each statement a state and operands that meet its hypotheses together. -/

open Sys2Proof Sys2Proof.Machine

namespace Sys2Proof.Tests

set_option Elab.async false

/-! ## Helpers -/

/-- The state that a command leaves. -/
def nextOf (i : Instr) (s : State) : State :=
  match exec i s with
  | .next t => t
  | _ => s

/-- A move of the running bundle of cell 0.0.00: an immediate, or a port, in slot A; slot B is a never slot. -/
def im (v : BitVec 16) : Iss := { core := 0, slotB := false, gsel := 0, ginv := false, src := .imm v, other := 0x10000000 }
def rd (p : BitVec 10) : Iss := { core := 0, slotB := false, gsel := 0, ginv := false, src := .port p, other := 0x10000000 }

/-- Cell 0.0.00 as after reset, with its bank and itself changed. -/
def core0 (f : Bank → Bank) (g : Cell → Cell := id) : State :=
  { State.reset with cells := [(0, g { rootCell with banks := [(5, f rootBank)] })] }

/-- No change is asked for the core's thread. -/
def pointB (c : Cell) : Bool := match c.cur with | none => true | some n => (slotOf c n).want.isNone
theorem point_of {c : Cell} (h : pointB c = true) : pointWant c = c := by
  have e : applyWant c = c := by
    unfold pointB at h
    unfold applyWant
    split at h <;> simp_all
  unfold pointWant
  rw [e, ite_self]

/-- The parts of `Ready` as a Bool. -/
def readyB (m : Iss) (dst : BitVec 10) (s : State) : Bool :=
  let c := cellOf s m.core
  isCore m.core && m.ret != .parity && heldBundle c (issSlots m dst).1 (issSlots m dst).2 && !c.heldUp && !c.walked && pointB c && mayIssue s m.core
    && decide (c.fly = []) && decide (c.div.cur = none) && decide (c.ph.cur = none)
    && decide (c.loads = []) && decide (fetchFail (runBank c) = none)
    && decide (staticUndefs (isHub m.core) (levelOf c) (runBank c) (issSlots m dst).1 (issSlots m dst).2 = [])
    && decide (activeMoves (isHub m.core) c (issSlots m dst).1 (issSlots m dst).2 = [ownMove m dst s])

theorem ready_of {m : Iss} {dst : BitVec 10} {s : State} (h : readyB m dst s = true) : Ready m dst s := by
  simp only [readyB, Bool.and_eq_true, bne_iff_ne, decide_eq_true_eq, Bool.not_eq_true'] at h
  obtain ⟨⟨⟨⟨⟨⟨⟨⟨⟨⟨⟨⟨⟨a, r⟩, hb⟩, u⟩, w⟩, p⟩, b⟩, c⟩, d⟩, e⟩, f⟩, g⟩, h⟩, i⟩ := h
  exact ⟨a, r, hb, u, w, point_of p, b, ⟨c, d, e, f⟩, g, h, i⟩

theorem all_ready {l : List (Iss × BitVec 10 × State)} (h : l.all (fun x => readyB x.1 x.2.1 x.2.2) = true) :
    ∀ x ∈ l, Ready x.1 x.2.1 x.2.2 := fun x hx => ready_of (List.all_eq_true.mp h x hx)

def quietB (c : Cell) : Bool :=
  decide (c.fly = []) && decide (c.div.cur = none) && decide (c.ph.cur = none) && decide (c.loads = [])

theorem all_quiet {l : List Cell} (h : l.all quietB = true) : ∀ c ∈ l, Quiet c := by
  intro c hc
  have h := List.all_eq_true.mp h c hc
  simp only [quietB, Bool.and_eq_true, decide_eq_true_eq] at h
  exact ⟨h.1.1.1, h.1.1.2, h.1.2, h.2⟩

/-- An outcome that is not an error. -/
def okE {α β : Type} (r : Except α β) : Bool := match r with | .ok _ => true | .error _ => false
theorem ok_of {α β : Type} {r : Except α β} (h : okE r = true) : ∃ x, r = .ok x := by
  cases r with
  | ok x => exact ⟨x, rfl⟩
  | error _ => cases h

/-- The gate lets a request of an initiator pass. -/
def passB (x : State × Nat × Nat × Nat × Rq) : Bool := okE (gateCheck x.1 x.2.1 x.2.2.1 x.2.2.2.1 x.2.2.2.2)
theorem all_pass {l : List (State × Nat × Nat × Nat × Rq)} (h : l.all passB = true) :
    ∀ x ∈ l, ∃ g, gateCheck x.1 x.2.1 x.2.2.1 x.2.2.2.1 x.2.2.2.2 = .ok g :=
  fun x hx => ok_of (List.all_eq_true.mp h x hx)

/-- A write of a word by cell 0.0.00 reaches it. -/
def landsB (a : Nat) (s : State) : Bool :=
  decide (pstateOf s = 0) && initLive s 0 && !reqWaits s 0 a && okE (gateCheck s 0 a 8 .write)
theorem lands_of {a : Nat} {s : State} (h : landsB a s = true) : lands 0 a s := by
  simp only [landsB, Bool.and_eq_true, decide_eq_true_eq, Bool.not_eq_true'] at h
  exact ⟨h.1.1.1, h.1.1.2, h.1.2, ok_of h.2⟩
theorem all_land {l : List (Nat × State)} (h : l.all (fun x => landsB x.1 x.2) = true) : ∀ x ∈ l, lands 0 x.1 x.2 :=
  fun x hx => lands_of (List.all_eq_true.mp h x hx)

/-! ## Ill-formed commands -/

theorem test_wf_core : Instr.wf (.mulResult 0x103) = true ∧ Instr.wf (.mulResult 0x104) = false := by decide
theorem test_wf_move : Instr.wf (.registerMove 0x01F (im 1)) = true ∧ Instr.wf (.registerMove 0x048 (im 1)) = false := by decide
theorem test_wf_trigger_runs : Instr.wf (.registerMove 0x047 (im 1)) = true ∧ Instr.wf (.registerMove 0x1C5 (im 1)) = false := by
  decide
theorem test_wf_long : Instr.wf (.aluTAdd false { im 1 with src := .lit 7 }) = true
    ∧ Instr.wf (.aluTAdd false { im 1 with src := .lit 7, slotB := true }) = false := by decide
theorem test_wf_iss_core : Instr.wf (.sysTTime { im 1 with core := 0x104 }) = false := by decide
theorem test_wf_store_index : Instr.wf (.storePerformed 0 15 ⟨.ok, [], .none⟩) = true ∧ Instr.wf (.storePerformed 0 16 ⟨.ok, [], .none⟩) = false := by decide
theorem test_wf_region : Instr.wf (.queueOperation 4 .none) = false := by decide
theorem test_wf_group : Instr.wf (.cocoonRestore 0 0 .ok 8) = false := by decide
theorem test_wf_initiator : Instr.wf (.swi 1023 0 1) = true ∧ Instr.wf (.swi 1024 0 1) = false := by decide
theorem test_wf_source : Instr.wf (.imapClr 0 0 127 1) = true ∧ Instr.wf (.imapClr 0 0 128 1) = false := by decide
theorem test_wf_slot : Instr.wf (.slotStateWrite 0 0 64 1) = false := by decide
theorem test_wf_gate : Instr.wf (.gateConfigApply 0x120) = true ∧ Instr.wf (.gateConfigApply 0x121) = false := by decide
theorem test_wf_gate_region : Instr.wf (.gateAttrWrite 0 0 64 0) = false := by decide
theorem test_wf_address : Instr.wf (.controlSpaceWrite 0 (2 ^ 48) 0) = false := by decide
theorem test_wf_engine : Instr.wf (.dmaDescriptor 3 ⟨1, .none⟩) = true ∧ Instr.wf (.dmaDescriptor 3 ⟨2, .none⟩) = false := by decide
theorem test_wf_block : Instr.wf (.dividerSwitch 16) = false := by decide
theorem test_wf_link : Instr.wf (.flitReplay 25) = true ∧ Instr.wf (.flitReplay 26) = false := by decide
theorem test_wf_record : Instr.wf (.eclr 0 0x82FF 1) = true ∧ Instr.wf (.eclr 0 0x8300 1) = false := by decide
theorem test_wf_queue : Instr.wf (.queueCreate 0 0 ⟨2 ^ 18, .none⟩) = false := by decide
theorem test_wf_lane : Instr.wf (.laneLinkChange 16 true) = false := by decide
theorem test_wf_pair : Instr.wf (.supervisionTransmit 8) = false := by decide
theorem test_wf_grid : Instr.wf (.planeDeadline ⟨16, []⟩) = false := by decide
theorem test_wf_sub : Instr.wf (.streamLost ⟨8191, []⟩) = true ∧ Instr.wf (.streamLost ⟨8192, []⟩) = false := by decide
theorem test_wf_trip : Instr.wf (.tripEnable 0 ⟨4095, []⟩ false false) = true ∧ Instr.wf (.tripEnable 0 ⟨1024, []⟩ true false) = false := by
  decide
theorem test_wf_goose : Instr.wf (.gooseTimeout 2048) = false := by decide
theorem test_wf_input : Instr.wf (.binaryInputGlitch ⟨32, 0⟩) = false := by decide
theorem test_wf_time_source : Instr.wf (.sourceInvalid 0) = false ∧ Instr.wf (.sourceInvalid 5) = false := by decide
theorem test_wf_irig : Instr.wf (.irigBFrame ⟨0, 0, 0, 367, 0, true, 0, none, 0, 0⟩) = false := by decide
theorem test_wf_session : Instr.wf (.commit 8) = true ∧ Instr.wf (.commit 0) = false ∧ Instr.wf (.commit 9) = false := by decide
theorem test_wf_cid : Instr.wf (.migrationInstall 1024) = false := by decide
theorem test_wf_thread : Instr.wf (.activationRelease 0 64) = false := by decide
theorem test_wf_node : Instr.wf (.twinPairForm ⟨128, [], [], []⟩) = false := by decide
theorem test_wf_can : Instr.wf (.pingMsg { carrier := .can false, fd := true, len := 0, bytes := List.replicate 65 0, dst := 0 }) = false := by decide
theorem test_wf_udp : Instr.wf (.pingMsg { carrier := .udp 0 (2 ^ 16), fd := true, len := 0, bytes := [], dst := 0 }) = false := by decide
theorem test_wf_sha : Instr.wf (.sha256JobDone 3 0 .ok) = false ∧ Instr.wf (.sha256JobDone 4 8 .ok) = false := by decide
theorem test_wf_token : Instr.wf (.tokenInst (some 9) []) = false ∧ Instr.wf (.tokenInst none []) = true := by decide
theorem test_wf_pcie : Instr.wf (.pcieInboundRequest 0 0 false []) = false ∧ Instr.wf (.pcieInboundRequest 0 513 false []) = false := by
  decide
theorem test_wf_cage : Instr.wf (.cageRetry 4) = false := by decide
theorem test_wf_twin_lane : Instr.wf (.twinHeartbeatReceive 4) = false := by decide

/-! ## The block as a whole -/

/-- The front command is carried out first, and the rest waits (one word of each of two commands). -/
theorem test_front_first :
    (match step { State.reset with pending := [.ocxoWarm, .bypassInst true] } with
     | .next t => (t.hw.ocxo, t.hw.bypass, t.pending)
     | _ => (false, false, [])) = (true, false, [.bypassInst true]) := by decide

/-- With no command waiting one tick passes: 2.5 ns, 0x2_8000_0000 of 2^-32 ns (R399). -/
theorem test_idle_tick :
    (match step State.reset with | .next t => (t.time.now, t.time.dur) | _ => (0, 0)) = (0x280000000, 0x280000000) := by decide

/-! ## Cores: bundles (chapters 3 to 5) -/

/-- The trigger ports of chapter 4 that a bundle may start with no other condition. -/
def plainTriggers : List (BitVec 10) :=
  [0x048, 0x05F, 0x068, 0x07F, 0x088, 0x08B, 0x098, 0x099, 0x0A8, 0x0B3, 0x0D0, 0x0DF, 0x108, 0x116, 0x128, 0x12C, 0x131, 0x148,
   0x14E, 0x150, 0x153, 0x154, 0x168, 0x169, 0x180, 0x186, 0x198, 0x19A, 0x1B0, 0x1B5, 0x1B8, 0x1BC, 0x1C1, 0x1C5]

theorem test_ready_ports : (plainTriggers ++ [0x000, 0x01F, 0x020, 0x02F, 0x030, 0x033, 0x039, 0x03F, 0x040, 0x0C0, 0x0C2, 0x210,
    0x214, 0x220, 0x221]).all (fun p => readyB (im 5) p State.reset) = true := by decide

theorem wit_RegisterMoves : [(0x000 : BitVec 10), 0x01F, 0x020, 0x02F, 0x030, 0x033, 0x039, 0x03F, 0x040, 0x1A1, 0x0C2, 0x1A2, 0x0C0,
    0x210, 0x214, 0x220, 0x221].all (fun p => readyB (im 5) p State.reset) = true := by decide

/-- A derivation whose result is tagged: the root of c0 with bounds of 64 bytes (R56). -/
theorem wit_CapMonotonic : ∃ c, capOp .bnd rootMem 64 Cap.null = .cap c ∧ c.tag = true := ⟨_, rfl, by decide⟩
theorem wit_CapMonotonic_untagged : Cap.null.tag = false ∧ (rootMem.tag = true ∧ Cap.null.tag = false) := by decide

theorem wit_CapValues : plainCap rootMem ∧ plainCap rootSeal ∧ (capPerms rootSeal).getLsbD 7 = true
    ∧ capBase rootSeal ≤ rootSeal.addr.toNat ∧ (rootSeal.addr.toNat : Int) < capTop rootSeal := by
  refine ⟨⟨?_, ?_⟩, ⟨?_, ?_⟩, ?_, ?_, ?_⟩ <;> decide

/-- Bounds of 64 bytes at 0x1000, cut from c0, are exact (R56). -/
theorem test_cap_bounds :
    (match capOp .bnd { rootMem with addr := 0x1000 } 64 Cap.null with
     | .cap c => decide (capBase c = 0x1000 ∧ capTop c = 0x1040 ∧ c.tag = true)
     | _ => false) = true := by decide

/-- A cell with a 3-cycle mul, a division or a fit in flight. -/
def flying (f : Cell → Cell) : State := core0 id f

theorem wit_LatentResultsArrive :
    (let s := flying (fun c => { c with fly := [⟨2, 5, .mul, .ports [(0x081, 7)]⟩] })
     serves 0 s
       ∧ (cellOf s 0).fly.filter (fun g => decide (g.due ≤ 2)) = [⟨2, 5, .mul, .ports [(0x081, 7)]⟩]
       ∧ (cellOf s 0).div.cur = none ∧ (cellOf s 0).ph.cur = none)
    ∧ (let s := flying (fun c => { c with div := { cur := some (20, ⟨5, 21, [(0x091, 1), (0x092, 2)]⟩), wait := [] } })
       serves 0 s ∧ (cellOf s 0).fly = [] ∧ (cellOf s 0).ph.cur = none ∧ (cellOf s 0).div.cur.isSome = true)
    ∧ (let s := flying (fun c => { c with ph := { cur := some (20, ⟨5, 24, [(0x162, 1), (0x163, 2)]⟩), wait := [] } })
       serves 0 s ∧ (cellOf s 0).fly = [] ∧ (cellOf s 0).div.cur = none ∧ (cellOf s 0).ph.cur.isSome = true) := by decide

/-- 3 × 5, three cycles after the trigger, in mul.r (R123, R129). -/
theorem test_mul_result :
    (let s := nextOf (.mulTMul (im 5)) (core0 (setX 0x080 3))
     portX (runBank (cellOf (nextOf (.mulResult 0) s) 0)) 0x081) = 15 := by decide

/-- -7 / 2 is -3 with the remainder -1 (R130). -/
theorem test_div_signed :
    (let s := nextOf (.divTDivs (im 2)) (core0 (setX 0x090 (BitVec.ofInt 64 (-7))))
     let k := runBank (cellOf (nextOf (.divResult 0) s) 0)
     ((portX k 0x091).toInt, (portX k 0x092).toInt)) = (-3, -1) := by decide

/-- Both alus, and shf. -/
theorem wit_SingleCycleResults :
    (∀ x ∈ ([((im 5), (aluTrigPort false .add), State.reset), ((im 5), (aluTrigPort true .tstz), State.reset),
      ((im 5), (shfTrigPort .shl), State.reset), ((im 5), (shfTrigPort .bswap), State.reset)] : List (Iss × BitVec 10 × State)), Ready x.1 x.2.1 x.2.2) :=
  all_ready (by decide +kernel)

theorem wit_MulAndDivStart :
    (∀ x ∈ ([((im 5), (mulTrigPort .mulhsu), State.reset), ((im 5), 0x098, State.reset), ((im 0), 0x099, State.reset)] : List (Iss × BitVec 10 × State)), Ready x.1 x.2.1 x.2.2)
    ∧ valD (srcVal (im 5) State.reset) ≠ 0 ∧ valD (srcVal (im 0) State.reset) = 0 :=
  ⟨all_ready (by decide +kernel), by decide +kernel⟩

theorem wit_CapStarts :
    (∀ x ∈ ([((im 5), (capTrigPort .setaddr), State.reset), ((im 5), (capTrigPort .chk), State.reset)] : List (Iss × BitVec 10 × State)), Ready x.1 x.2.1 x.2.2) :=
  all_ready (by decide +kernel)

theorem wit_MacAndPhStart :
    (∀ x ∈ ([((im 5), (macTrigPort .dot), State.reset), ((im 5), (macReadPort .rdt), State.reset),
      ((im 5), 0x154, State.reset)] : List (Iss × BitVec 10 × State)), Ready x.1 x.2.1 x.2.2) :=
  all_ready (by decide +kernel)

/-- A window of 32 samples at 0x4000_0000, which ph.oc (0x160) covers; and one in DDR4, further away. -/
def sFit (a : W) : State := core0 (setC 0x160 { rootMem with addr := a })

theorem wit_FitStarts :
    (∀ x ∈ ([((im 32), 0x168, (sFit 0x40000000)), ((im 32), 0x169, (sFit 0x4000000000))] : List (Iss × BitVec 10 × State)), Ready x.1 x.2.1 x.2.2)
    ∧ Steady (phReach (issueCtx (im 32) 0x168 (sFit 0x40000000)) 32) (im 32) (sFit 0x40000000) ([(0x40000000, 128)], true)
    ∧ Steady (phReach (issueCtx (im 32) 0x169 (sFit 0x4000000000)) 32) (im 32) (sFit 0x4000000000) ([(0x4000000000, 128)], true)
    ∧ (32 : W).toNat < 65536 ∧ 32 ≤ (32 : W).toNat % 512 ∧ (32 : W).toNat % 512 ≤ 256 ∧ (32 : W).getLsbD 9 = false
      ∧ (im 32).ret = .ok ∧ poisoned (sFit 0x40000000) 0x40000000 = false
      ∧ phNear (sFit 0x40000000) 0 [(0x40000000, 128)] = true ∧ phNear (sFit 0x4000000000) 0 [(0x4000000000, 128)] = false :=
  ⟨all_ready (by decide +kernel), ⟨by decide +kernel, by decide +kernel⟩, ⟨by decide +kernel, by decide +kernel⟩, by decide +kernel⟩

/-! ## Loads, stores and blocks -/

/-- A capability over the whole address space with every permission, of an object type. -/
def capAll (a : W) (t : Nat) : Cap := withType { addr := a, hi := 0xFFF000C800000001, tag := true } t

/-- One with bounds of `n` bytes from `a`. -/
def capOver (a n : W) (t : Nat) : Cap :=
  match capOp .bnd (capAll a 0) n Cap.null with
  | .cap c => withType c t
  | _ => Cap.null

/-- mem.oc covers memory from the core's own cell store. -/
def sMem : State := core0 (setC 0x0C0 { rootMem with addr := 0x40000000 })

/-- An 8-byte load at the start of the core's cell store, and one across a page. -/
theorem wit_LoadsStart_data :
    Ready (im 0) 0x0D6 sMem
    ∧ Steady (loadParts (issueCtx (im 0) 0x0D6 sMem) (valD (srcVal (im 0) sMem)) 8 false) (im 0) sMem ([(0x40000000, 8)], true)
    ∧ Steady (loadParts (issueCtx (im 0xFFC) 0x0D6 sMem) (valD (srcVal (im 0xFFC) sMem)) 8 false) (im 0xFFC) sMem ([(0x40000FFC, 4), (0x40001000, 4)], true)
    ∧ ((.memTLdd (im 0), 0x0D6, 8, false) : Instr × BitVec 10 × Nat × Bool) ∈ loadRows (im 0) ∧ inRam 0x40000000 8
      ∧ inRam 0x40000FFC 4 ∧ inRam 0x5FFFFFF8 8 ∧ inRam 0x4FFFFFFFF8 8 :=
  ⟨ready_of (by decide +kernel), ⟨by decide +kernel, by decide +kernel⟩, ⟨by decide +kernel, by decide +kernel⟩, by unfold inRam; decide +kernel⟩

theorem wit_LoadsStart_cap :
    Ready (im 0) 0x0D7 sMem
    ∧ Steady (loadParts (issueCtx (im 0) 0x0D7 sMem) (valD (srcVal (im 0) sMem)) 16 true) (im 0) sMem ([(0x40000000, 16)], true)
    ∧ inRam 0x40000000 16 :=
  ⟨ready_of (by decide +kernel), ⟨by decide +kernel, by decide +kernel⟩, by unfold inRam; decide +kernel⟩

/-- Address space 3 with one TLB entry of 1 GiB at 0x4000_0000, whose flags are `fl`. -/
def tlbF (fl : W) : TlbEntry :=
  { asid := 3, glob := false, vbase := 0x40000000, size := 30, entry := fl + 30 * 2 ^ 9 + 0x40000 * 2 ^ 24, level := 2 }
def sTlb (fl : W) : State :=
  core0 (fun k => setC 0x0C0 { rootMem with addr := 0x40000000 } { k with asid := 3 }) (fun c => { c with tlb := [tlbF fl] })
/-- A translation that leaves the state as it is, with whether it succeeds. -/
def stays (u : State) (r : State × XRes) (good : Bool) : Bool := decide (r.1 = u) && (okE r.2 == good)

/-- With no capability in mem.oc; through an entry with no rights, and one that may be read; and in bare mode. -/
theorem wit_PrefetchPasses :
    (∀ x ∈ ([((im 0), 0x0DF, State.reset), ((im 0), 0x0DF, (sTlb 3)), ((im 0), 0x0DF, (sTlb 7)), ((im 0), 0x0DF, sMem)] : List (Iss × BitVec 10 × State)), Ready x.1 x.2.1 x.2.2)
    ∧ capCheck (portC (issueBank (im 0) State.reset) 0x0C0) (memVa (im 0) State.reset).toNat 1 (permLD ||| sysregNeed (ctxAsid (issueCtx (im 0) 0x0DF State.reset)) (memVa (im 0) State.reset).toNat 1) false false ≠ none
      ∧ capCheck (portC (issueBank (im 0) (sTlb 3)) 0x0C0) 0x40000000 1 (permLD ||| sysregNeed 3 0x40000000 1) false false = none
      ∧ stays (setCell 0 (issueCell (im 0) (sTlb 3)) (sTlb 3)) (xlate 0 3 (memVa (im 0) (sTlb 3)) .load (some (issueBank (im 0) (sTlb 3))) (setCell 0 (issueCell (im 0) (sTlb 3)) (sTlb 3))) false = true
      ∧ stays (setCell 0 (issueCell (im 0) (sTlb 7)) (sTlb 7)) (xlate 0 3 (memVa (im 0) (sTlb 7)) .load (some (issueBank (im 0) (sTlb 7))) (setCell 0 (issueCell (im 0) (sTlb 7)) (sTlb 7))) true = true
      ∧ ctxAsid (issueCtx (im 0) 0x0DF sMem) = 0 :=
  ⟨all_ready (by decide +kernel), by decide +kernel⟩

/-- A buffered store of `n` bytes of 0xA5 at a physical address. -/
def stE (pa n : Nat) (cap : Bool := false) : SbEntry :=
  { pa := pa, data := List.replicate n 0xA5, isCap := cap, tag := cap, va := BitVec.ofNat 64 pa, bank := 5, slot := 0, split := false }

/-- No overlap, and an overlap at the first and at the last byte. -/
theorem wit_StoreForwarding :
    inRam 0x40000010 8
      ∧ ((∀ e ∈ [stE 0x40000008 8, stE 0x40000018 8], ¬(e.pa < 0x40000010 + 8 ∧ 0x40000010 < e.pa + e.data.length)))
      ∧ (stE 0x40000009 8).pa < 0x40000010 + 8 ∧ 0x40000010 < (stE 0x40000009 8).pa + (stE 0x40000009 8).data.length
      ∧ (stE 0x40000017 8).pa < 0x40000010 + 8 ∧ 0x40000010 < (stE 0x40000017 8).pa + (stE 0x40000017 8).data.length
      ∧ ((∀ f ∈ [stE 0x40000018 8], ¬(f.pa < 0x40000010 + 8 ∧ 0x40000010 < f.pa + f.data.length))) :=
  by unfold inRam; decide +kernel

/-- A load of cell 0.0.00, not yet arrived. -/
def pl (due : Nat) (arr : Bool) (got : Option (List Byte × Bool)) : PLoad :=
  { due := due, bank := 5, va := 0x40000000, parts := [(0x40000000, 8)], signed := false, isCap := false, keep := false,
    own := true, hit := false, arr := arr, got := got, ahead := 1, undo := undoOf 5 rootCell }
def sLoad (due now : Nat) (arr : Bool) (got : Option (List Byte × Bool)) : State :=
  core0 id (fun c => { c with now := now, loads := [pl due arr got] })

theorem wit_LoadDataReturns :
    (serves 0 (sLoad 2 2 false (some ([1, 2, 3, 4, 5, 6, 7, 8], false)))
      ∧ (cellOf (sLoad 2 2 false (some ([1, 2, 3, 4, 5, 6, 7, 8], false))) 0).loads = [pl 2 false (some ([1, 2, 3, 4, 5, 6, 7, 8], false))]
      ∧ (cellOf (sLoad 2 2 false (some ([1, 2, 3, 4, 5, 6, 7, 8], false))) 0).after = none
      ∧ (pl 2 false (some ([1, 2, 3, 4, 5, 6, 7, 8], false))).due ≤ (cellOf (sLoad 2 2 false (some ([1, 2, 3, 4, 5, 6, 7, 8], false))) 0).now
      ∧ (cellOf (sLoad 2 1 false (some ([1, 2, 3, 4, 5, 6, 7, 8], false))) 0).now < (pl 2 false (some ([1, 2, 3, 4, 5, 6, 7, 8], false))).due
      ∧ (cellOf (sLoad 2 2 false none) 0).loads = [pl 2 false none])
    ∧ (loadFree (cellOf (sLoad 2 2 false none) 0).sb (pl 2 false none) = true ∧ inRam 0x40000000 8
      ∧ loadWaits (sLoad 2 2 false none) 0 (pl 2 false none) = false
      ∧ piecesBad (sLoad 2 2 false none) false 0 (partPieces [(0x40000000, 8)]) = none
      ∧ partsDenied (sLoad 2 2 false none) 0 .read 0 [(0x40000000, 8)] = none
      ∧ (cellOf (sLoad 4 1 true (some ([1, 2, 3, 4, 5, 6, 7, 8], false))) 0).loads = [pl 4 true (some ([1, 2, 3, 4, 5, 6, 7, 8], false))])
    ∧ (cellOf (sLoad 4 1 true (some ([1, 2, 3, 4, 5, 6, 7, 8], false))) 0).fly = []
      ∧ (cellOf (sLoad 4 1 true (some ([1, 2, 3, 4, 5, 6, 7, 8], false))) 0).div.cur = none
      ∧ (cellOf (sLoad 4 1 true (some ([1, 2, 3, 4, 5, 6, 7, 8], false))) 0).ph.cur = none :=
  ⟨by decide +kernel, by unfold inRam; decide +kernel, by decide +kernel⟩

theorem test_load_sign : loadNumber true [0xFE, 0xFF] = -2 ∧ loadNumber false [0xFE, 0xFF] = 0xFFFE := by decide
/-- mem.t.ldd of 01 02 .. 08 is 0x0807060504030201 (R11). -/
theorem test_load_order :
    portX (runBank (cellOf (nextOf (.loadDataReturn 0 ⟨.ok, .ok⟩) (sLoad 4 1 true (some ([1, 2, 3, 4, 5, 6, 7, 8], false)))) 0)) 0x0C8
      = 0x0807060504030201 := by decide +kernel

/-- A full word across a page with 14 entries buffered, and a capability with 15. -/
theorem wit_StoresStart :
    (∀ x ∈ ([((im 0xFFC), 0x0DB, sMem), ((im 0), 0x0DC, sMem)] : List (Iss × BitVec 10 × State)), Ready x.1 x.2.1 x.2.2)
    ∧ Steady (storeParts (issueCtx (im 0xFFC) 0x0DB sMem) (valD (srcVal (im 0xFFC) sMem)) 8) (im 0xFFC) sMem ([(0x40000FFC, 4), (0x40001000, 4)], true)
    ∧ Steady (stcParts (issueCtx (im 0) 0x0DC sMem) (valD (srcVal (im 0) sMem))) (im 0) sMem ([(0x40000000, 16)], true)
    ∧ ((.memTStd (im 0xFFC), 0x0DB, 8) : Instr × BitVec 10 × Nat) ∈ storeRows (im 0xFFC)
      ∧ (cellOf sMem 0).sb.length + (if 0x1000 < (memVa (im 0xFFC) sMem).toNat % 0x1000 + 8 then 2 else 1) ≤ 16
      ∧ (cellOf sMem 0).sb.length + 1 ≤ 16 :=
  ⟨all_ready (by decide +kernel), ⟨by decide +kernel, by decide +kernel⟩, ⟨by decide +kernel, by decide +kernel⟩, by decide +kernel⟩

/-- The same with `n` stores buffered elsewhere. -/
def sFullSb (n : Nat) : State := modCell 0 (fun c => { c with sb := List.replicate n (stE 0x40000100 8) }) sMem

/-- Fifteen entries for a store of two parts, and sixteen for a capability. -/
theorem wit_StoresStart_full :
    (∀ x ∈ ([((im 0xFFC), 0x0DB, (sFullSb 15)), ((im 0), 0x0DC, (sFullSb 16))] : List (Iss × BitVec 10 × State)), Ready x.1 x.2.1 x.2.2)
    ∧ Steady (storeParts (issueCtx (im 0xFFC) 0x0DB (sFullSb 15)) (valD (srcVal (im 0xFFC) (sFullSb 15))) 8) (im 0xFFC) (sFullSb 15) ([(0x40000FFC, 4), (0x40001000, 4)], true)
    ∧ Steady (stcParts (issueCtx (im 0) 0x0DC (sFullSb 16)) (valD (srcVal (im 0) (sFullSb 16)))) (im 0) (sFullSb 16) ([(0x40000000, 16)], true)
    ∧ 16 < (cellOf (sFullSb 15) 0).sb.length + 2 ∧ 16 < (cellOf (sFullSb 16) 0).sb.length + 1 :=
  ⟨all_ready (by decide +kernel), ⟨by decide +kernel, by decide +kernel⟩, ⟨by decide +kernel, by decide +kernel⟩, by decide +kernel⟩

def sSb (e : SbEntry) : State := core0 id (fun c => { c with sb := [e] })

theorem wit_StorePerformed :
    (∀ x ∈ ([((sSb (stE 0x40000000 8)), 0, 0x40000000, 8, .write)] : List (State × Nat × Nat × Nat × Rq)), ∃ g, gateCheck x.1 x.2.1 x.2.2.1 x.2.2.2.1 x.2.2.2.2 = .ok g)
    ∧ (serves 0 (sSb (stE 0x40000000 8)) ∧ (cellOf (sSb (stE 0x40000000 8)) 0).away = none ∧ (0 : Nat) < 256
      ∧ (cellOf (sSb (stE 0x40000000 8)) 0).sb = [stE 0x40000000 8] ∧ (sSb (stE 0x40000000 8)).memWf = true
      ∧ (cellOf (sSb (stE 0x40000000 8)) 0).stall = .none)
    ∧ (storeReady (sSb (stE 0x40000000 8)) (cellOf (sSb (stE 0x40000000 8)) 0) 0 (stE 0x40000000 8) = true
      ∧ inRam 0x40000000 8 ∧ 0 < (stE 0x40000000 8).data.length ∧ reqWaits (sSb (stE 0x40000000 8)) 0 0x40000000 = false
      ∧ linePieces (8 / 64 + 2) 0x40000000 8 = [(0x40000000, 8)]
      ∧ linePieces (8 / 64 + 2) 0x4000003C 8 = [(0x4000003C, 4), (0x40000040, 4)])
    ∧ poisoned (sSb (stE 0x40000000 8)) 0x40000000 = false
      ∧ storeReady (sSb (stE 0x40000010 16 true)) (cellOf (sSb (stE 0x40000010 16 true)) 0) 0 (stE 0x40000010 16 true) = true
      ∧ (stE 0x40000010 16 true).pa % 16 = 0 ∧ (stE 0x40000010 16 true).data.length = 16 :=
  ⟨all_pass (by decide +kernel), by decide +kernel, by unfold inRam; decide +kernel, by decide +kernel⟩

/-- A capability store sets the tag of its granule, and a data store to that granule clears it (R77). -/
theorem test_store_tags :
    (let s := nextOf (.storePerformed 0 0 ⟨.ok, [], .none⟩) (sSb (stE 0x40000010 16 true))
     let t := nextOf (.storePerformed 0 0 ⟨.ok, [], .none⟩) { s with cells := (sSb (stE 0x40000018 8)).cells }
     (memTag s 0x40000010, memTag t 0x40000010, memGet t.mem 0x4000001F)) = (true, false, 0xA5) := by decide +kernel
def blk (restore : Bool) : BlkOp :=
  { restore := restore, mask := 0x8000000000003, base := 0x40000000, oc := { rootMem with addr := 0x40000000 }, src := 0x1F, other := none, k0 := { rootBank with act := true }, start := 0,
    wa := 0, wb := 0x10000000 }
def sBlk (restore : Bool) (mask : BitVec 52 := 0x8000000000003) : State :=
  core0 (fun k => { setX 0 7 k with act := true, dir := restore, done := 1 })
    (fun c => { c with now := 1, stall := .blk { blk restore with mask := mask } })
def blkCtx (s : State) : Ctx := { core := 0, n := (cellOf s 0).now, b := (cellOf s 0).run, k := runBank (cellOf s 0) }

theorem wit_BlocksStart :
    (∀ x ∈ ([((im 0), 0x0DD, sMem), ((im 0), 0x0DE, sMem)] : List (Iss × BitVec 10 × State)), Ready x.1 x.2.1 x.2.2)
    ∧ (portX (issueBank (im 0) sMem) 0x0C1).toNat < 2 ^ 52 ∧ (memVa (im 0) sMem).toNat % 16 = 0 :=
  ⟨all_ready (by decide +kernel), by decide +kernel⟩

/-- The second element of a save and of a restore, with the last one left to do. -/
theorem wit_BlockElements :
    (∀ c ∈ [(cellOf (sBlk false) 0)], Quiet c)
    ∧ (serves 0 (sBlk false)
      ∧ (elemPoint (cellOf (sBlk false) 0) (blk false) = true ∧ (blk false).held = false ∧ (cellOf (sBlk false) 0).heldUp = false ∧ (cellOf (sBlk false) 0).walked = false)
      ∧ (cellOf (sBlk false) 0).stall = .blk (blk false) ∧ (blk false).mask.getLsbD 1 = true
      ∧ (runBank (cellOf (sBlk false) 0)).done.getLsbD 1 = false
      ∧ ((∀ j < 1, (blk false).mask.getLsbD j = true → (runBank (cellOf (sBlk false) 0)).done.getLsbD j = true)))
    ∧ (((blk false).mask.getLsbD 51 = true ∧ (runBank (cellOf (sBlk false) 0)).done.getLsbD 51 = false)
      ∧ (cellOf (sBlk false) 0).stopped = false ∧ (cellOf (sBlk false) 0).waiting = false
      ∧ hasContext (cellOf (sBlk false) 0) = true ∧ comesFirst (sBlk false) 0 = false
      ∧ (blk false).start < (cellOf (sBlk false) 0).now)
    ∧ (((blk false).k0.ract = false ∧ (blk false).k0.dly = 0) ∧ (cellOf (sBlk false) 0).sb.length + 1 ≤ 16
      ∧ (cellOf (sBlk false 3) 0).stall = .blk { blk false with mask := 3 }
      ∧ ((∀ j < 52, 1 < j → (3 : BitVec 52).getLsbD j = false))
      ∧ accessParts (blkCtx (sBlk false)) (blk false).oc (blk false).src 0x40000008 8 permST false false .store (sBlk false) = (sBlk false, .ok ([(0x40000008, 8)], true))
      ∧ restoreParts (blkCtx (sBlk true)) (blk true) 1 (sBlk true) = (sBlk true, .ok ([(0x40000008, 8)], true)))
    ∧ (reqWaits (sBlk true) 0 0x40000008 = false ∧ poisoned (sBlk true) 0x40000008 = false)
      ∧ sbServe (cellOf (sBlk true) 0).sb false [(0x40000008, 8)] = .memory ∧ inRam 0x40000008 8
      ∧ (cellOf (sBlk true 3) 0).stall = .blk { blk true with mask := 3 }
      ∧ restoreParts (blkCtx (sBlk true 3)) { blk true with mask := 3 } 1 (sBlk true 3) = (sBlk true 3, .ok ([(0x40000008, 8)], true))
      ∧ (reqWaits (sBlk true 3) 0 0x40000008 = false ∧ poisoned (sBlk true 3) 0x40000008 = false)
      ∧ sbServe (cellOf (sBlk true 3) 0).sb false [(0x40000008, 8)] = .memory :=
  ⟨all_quiet (by decide +kernel), by decide +kernel, by decide +kernel, by decide +kernel, by unfold inRam; decide +kernel⟩

/-! ## Branches, repetition, gates and exceptions -/

def sJump : State := core0 (fun k => setC 0x21 (capAll 0x40001000 1) k)

theorem wit_BranchesTake :
    (∀ x ∈ ([((im 0xFFF8), 0x128, State.reset), ((im 0x18), 0x129, State.reset), ((im 0x7FF8), 0x12A, State.reset),
      ((rd 0x21), 0x12B, sJump), ((rd 0x21), 0x12C, sJump)] : List (Iss × BitVec 10 × State)), Ready x.1 x.2.1 x.2.2)
    ∧ ((issueBank (im 0xFFF8) State.reset).pcc.addr + valD (srcVal (im 0xFFF8) State.reset)).toNat % 8 = 0
      ∧ (valD (srcVal (im 0x7FF8) State.reset)).toNat % 8 = 0 ∧ jumpCheck (valC (srcVal (rd 0x21) sJump)) = none
      ∧ (valC (srcVal (rd 0x21) sJump)).addr.toNat % 8 = 0 :=
  ⟨all_ready (by decide +kernel), by decide +kernel⟩

def sDly (n : Nat) : State := core0 (fun k => { k with dly := n, pend := capAll 0x40001000 0 })
def sRep (n : Nat) (wa wb : BitVec 32) : State :=
  core0 (fun k => { k with rcnt := n, ract := true }) (fun c => { c with held := some (wa, wb) })
def wordsOf (m : Iss) (dst : BitVec 10) : BitVec 32 × BitVec 32 := ((issSlots m dst).1.word, (issSlots m dst).2.word)
def sRepW (n : Nat) : State := sRep n (wordsOf (im 5) 0x003).1 (wordsOf (im 5) 0x003).2

/-- With no branch, in the last delay bundle, in the one before it, and in the last repetition and the one before it. -/
theorem wit_NextBundle :
    (∀ x ∈ ([((im 5), 0x003, State.reset), ((im 5), 0x003, (sDly 1)), ((im 5), 0x003, (sDly 2)), ((im 5), 0x003, (sRepW 1)),
      ((im 5), 0x003, (sRepW 2))] : List (Iss × BitVec 10 × State)), Ready x.1 x.2.1 x.2.2)
    ∧ (slotDelayed false (issSlots (im 5) 0x003).1 = false ∧ slotDelayed false (issSlots (im 5) 0x003).2 = false)
      ∧ (issueBank (im 5) (sDly 1)).dly = 1 ∧ (issueBank (im 5) (sDly 2)).dly = 0 + 2
      ∧ (issueBank (im 5) (sRepW 1)).rcnt ≤ 1 ∧ (issueBank (im 5) (sRepW 2)).rcnt = 0 + 2 :=
  ⟨all_ready (by decide +kernel), by decide +kernel⟩

/-- A count of 0, of 64 under repn and of 65 under rep. -/
theorem wit_RepeatPrefixes :
    (∀ x ∈ ([((im 0), 0x130, State.reset), ((im 65), 0x130, State.reset), ((im 64), 0x131, State.reset)] : List (Iss × BitVec 10 × State)), Ready x.1 x.2.1 x.2.2)
    ∧ (valD (srcVal (im 64) State.reset)).toNat % 2 ^ 32 ≤ 64
      ∧ ((issueBank (im 64) State.reset).dly = 0 ∧ (issueBank (im 64) State.reset).ract = false) :=
  ⟨all_ready (by decide +kernel), by decide +kernel⟩

def fetchAt (a : Nat) : State :=
  { core0 (fun k => { k with pcc := { rootExec with addr := BitVec.ofNat 64 a } }) with
    mem := memWrite a (leBytes 4 (wordsOf (im 5) 0x003).1.toNat ++ leBytes 4 (wordsOf (im 5) 0x003).2.toNat) [] }
def sFetch : State := fetchAt 0x40000000
def hFetch : State := iFill 0 0x48000000 (fetchAt 0x48000000)
def uFetch : State := iFill 0 0x40000000 (stallPass 0 (fetchResumed 0 sFetch))

theorem wit_RepetitionIssues :
    Ready (im 5) 0x003 (sRepW 2)
    ∧ pstateOf (sRepW 2) = 0 ∧ (cellOf (sRepW 2) 0).held = some (wordsOf (im 5) 0x003)
      ∧ (slotOfWord (wordsOf (im 5) 0x003).1, slotOfWord (wordsOf (im 5) 0x003).2) = issSlots (im 5) 0x003 :=
  ⟨ready_of (by decide +kernel), by decide +kernel⟩

/-- After a miss, and from the instruction cache. -/
theorem wit_FetchedBundleIssues :
    (∀ x ∈ ([((im 5), 0x003, uFetch), ((im 5), 0x003, (iFill 0 0x48000000 (fetchResumed 0 hFetch)))] : List (Iss × BitVec 10 × State)), Ready x.1 x.2.1 x.2.2)
    ∧ (∀ x ∈ ([(hFetch, 0, 0x48000000, 8, .fetch), (sFetch, 0, 0x40000000, 8, .fetch)] : List (State × Nat × Nat × Nat × Rq)), ∃ g, gateCheck x.1 x.2.1 x.2.2.1 x.2.2.2.1 x.2.2.2.2 = .ok g)
    ∧ (pstateOf sFetch = 0 ∧ mayIssue (fetchResumed 0 sFetch) 0 = true
      ∧ iHit (fetchResumed 0 sFetch) 0 0x40000000 = false ∧ iHit (fetchResumed 0 hFetch) 0 0x48000000 = true
      ∧ pstateOf hFetch = 0 ∧ mayIssue (fetchResumed 0 hFetch) 0 = true)
    ∧ ((cellOf hFetch 0).held = none ∧ reqWaits hFetch 0 0x48000000 = false ∧ poisoned hFetch 0x48000000 = false)
      ∧ (slotOfWord (BitVec.ofNat 32 (physNat hFetch 0x48000000 4)), slotOfWord (BitVec.ofNat 32 (physNat hFetch 0x48000004 4))) = issSlots (im 5) 0x003
      ∧ (cellOf sFetch 0).held = none ∧ reqWaits sFetch 0 0x40000000 = false ∧ poisoned sFetch 0x40000000 = false
      ∧ (issueBank (im 5) uFetch).asid = 0 ∧ (issueBank (im 5) (fetchResumed 0 sFetch)).pcc.addr.toNat = 0x40000000
      ∧ (slotOfWord (BitVec.ofNat 32 (physNat sFetch 0x40000000 4)), slotOfWord (BitVec.ofNat 32 (physNat sFetch 0x40000004 4))) = issSlots (im 5) 0x003 :=
  ⟨all_ready (by decide +kernel), all_pass (by decide +kernel), by decide +kernel, by decide +kernel⟩

def guarded : Iss := { im 5 with gsel := 1 }

/-- g1 is 0. -/
theorem wit_GuardedOffPasses :
    (∀ c ∈ [(cellOf State.reset 0)], Quiet c)
    ∧ ((cellOf State.reset 0).heldUp = false ∧ (cellOf State.reset 0).walked = false
      ∧ pointWant (cellOf State.reset 0) = cellOf State.reset 0 ∧ isCore guarded.core = true
      ∧ mayIssue State.reset 0 = true ∧ guarded.ret ≠ .parity)
    ∧ heldBundle (cellOf State.reset 0) (issSlots guarded 0x003).1 (issSlots guarded 0x003).2 = true
      ∧ fetchFail (issueBank guarded State.reset) = none
      ∧ staticUndefs false (levelOf (cellOf State.reset 0)) (issueBank guarded State.reset) (issSlots guarded 0x003).1 (issSlots guarded 0x003).2 = []
      ∧ activeMoves false (cellOf State.reset 0) (issSlots guarded 0x003).1 (issSlots guarded 0x003).2 = [] :=
  ⟨all_quiet (by decide +kernel), by decide +kernel, by decide +kernel⟩

/-- A move to a port that does not exist, and a count of 65 for br.t.repn. -/
theorem wit_ReservedEncodingsFault :
    bundleUndefs (im 5) 0x3FF State.reset ≠ [] ∧ bundleUndefs (im 65) 0x131 State.reset ≠ []
      ∧ heldBundle (cellOf State.reset 0) (issSlots (im 5) 0x3FF).1 (issSlots (im 5) 0x3FF).2 = true
      ∧ heldBundle (cellOf State.reset 0) (issSlots (im 65) 0x131).1 (issSlots (im 65) 0x131).2 = true :=
  by decide +kernel

/-- ENTRY mode with an executable capability in ENTRY. -/
def sEnt : State := setReg (ctlBase 0 + 0x28) 0x752 <| core0 id (fun c => { c with vtm := false, entry := { rootExec with addr := 0x40001000 } })
def sIrq : State :=
  setReg (ctlBase 0 + 0x400 + 8 * 127) 2 (core0 id (fun c => { c with
    vtm := false, entry := { rootExec with addr := 0x40001000 }, ipend := BitVec.ofNat 128 (2 ^ 127) }))

theorem wit_ExceptionsEnter :
    levelOf (cellOf sEnt 0) < dlvlSync sEnt 0 ∧ dlvlSync sEnt 0 ≤ 7
      ∧ (((runBank (cellOf sEnt 0)).mask < dlvlSync sEnt 0 ∨ dlvlSync sEnt 0 = 7))
      ∧ (bankOf (cellOf sEnt 0) (4 + dlvlSync sEnt 0)).poison = false ∧ hasContext (cellOf sEnt 0) = true
      ∧ entryTarget 0 0x05 sEnt = (sEnt, some { rootExec with addr := 0x40001000 }) :=
  by decide +kernel

theorem wit_InterruptsEnter :
    (∀ c ∈ [(cellOf sIrq 0)], Quiet c)
    ∧ (serves 0 sIrq ∧ atPoint (cellOf sIrq 0) = true
      ∧ ((cellOf sIrq 0).stopReq = false ∧ (cellOf sIrq 0).spillEv = [] ∧ (cellOf sIrq 0).lse = [])
      ∧ (cellOf sIrq 0).ipend = BitVec.ofNat 128 (2 ^ 127) ∧ irqLevel sIrq 0 127 = 2 ∧ levelOf (cellOf sIrq 0) < 2)
    ∧ (runBank (cellOf sIrq 0)).mask < 2 ∧ (bankOf (cellOf sIrq 0) 6).poison = false
      ∧ entryTarget 0 (0x80 + 127) sIrq = (sIrq, some { rootExec with addr := 0x40001000 })
      ∧ ((cellOf sIrq 0).mchk = [] ∧ hasContext (cellOf sIrq 0) = true) :=
  ⟨all_quiet (by decide +kernel), by decide +kernel, by decide +kernel⟩

/-- An exception enters level 2 with the cause, and the interrupted pcc in fpcc (R203, R208). -/
theorem test_enter :
    (let t := raiseSync 0 ⟨0x05, 9, 3⟩ sEnt
     let k := runBank (cellOf t 0)
     decide (k.cause.toNat % 256 = 5 ∧ k.faddr = 9 ∧ k.fpcc = rootExec ∧ k.pcc.addr = 0x40001000)) = true := by decide +kernel
def sRet : State :=
  { State.reset with cells := [(0, { rootCell with
      run := 7, banks := [(5, rootBank), (7, { fpcc := capAll 0x40001000 1, cause := 0x1005, pcc := rootExec })] })] }

/-- The same from a level to a thread of level 0, and to the one context of level 0 of a hub core. -/
def sRet0 : State :=
  { State.reset with cells := [(0, { rootCell with
      run := 7, cur := some 3, slots := [(3, { state := 2, bank := some 4 })],
      banks := [(4, rootBank), (7, { fpcc := capAll 0x40001000 1, cause := 0x30005, pcc := rootExec })] })] }
def sRetHub : State :=
  { State.reset with cells := [(256, { rootCell with
      run := 7, banks := [(0, rootBank), (7, { fpcc := capAll 0x40001000 1, cause := 0x0005, pcc := rootExec })] })] }

/-- To a level, to the thread of slot 3, and to a hub core's one context. -/
theorem wit_ExceptionReturns :
    (∀ x ∈ ([((im 0), 0x12F, sRet), ((im 0), 0x12F, sRet0), ({ im 0 with core := 256 }, 0x12F, sRetHub)] : List (Iss × BitVec 10 × State)), Ready x.1 x.2.1 x.2.2)
    ∧ 5 ≤ (cellOf sRet 0).run ∧ jumpCheck (issueBank (im 0) sRet).fpcc = none
      ∧ (issueBank (im 0) sRet).fpcc.addr.toNat % 8 = 0 ∧ (issueBank (im 0) sRet).cause.toNat / 2 ^ 12 % 8 = 1
      ∧ ((issueBank (im 0) sRet0).cause.toNat / 2 ^ 12 % 8 = 0 ∧ (issueBank (im 0) sRet0).cause.toNat / 2 ^ 16 % 64 = 3)
      ∧ ((slotOf (cellOf sRet0 0) 3).bank = some 4 ∧ (slotOf (cellOf sRet0 0) 3).state = 2)
      ∧ (issueBank { im 0 with core := 256 } sRetHub).cause.toNat / 2 ^ 12 % 8 = 0 :=
  ⟨all_ready (by decide +kernel), by decide +kernel⟩

/-- A gate descriptor at 0x40002000 with its stack from 0x40004000 to 0x40005000; it clears d3. -/
def sGate : State :=
  let s := core0 (setC 0x24 (capAll 0x40002000 0x100))
  let s := memStoreCap 0x40002000 (capBytes (capAll 0x40003000 0)) true s
  let s := memStoreCap 0x40002010 (capBytes (capOver 0x40004000 0x1000 0)) true s
  memStore 0x40002030 (leBytes 4 8 ++ leBytes 4 1 ++ leBytes 8 0) s
def planG : GatePlan :=
  { desc := [0x40002000, 0x40002010, 0x40002020, 0x40002030].map (fun a => (a, true)),
    frame := [0x40004FD0, 0x40004FE0, 0x40004FF0].map (fun a => (a, true)),
    bytes := memRead sGate.mem 0x40002000 64, ent := capAll 0x40003000 0, stk := capOver 0x40004000 0x1000 0, clr := 8 }
/-- The state inside that gate. -/
def sIn : State :=
  let s := nextOf (.brTGate (rd 0x24)) sGate
  modCell 0 (fun c => { c with fly := [], div := {}, ph := {}, loads := [] }) s

theorem wit_GateCalls :
    Ready (rd 0x24) 0x12D sGate
    ∧ Steady (gatePlan (issueCtx (rd 0x24) 0x12D sGate) (valC (srcVal (rd 0x24) sGate)) (srcCode (ownMove (rd 0x24) 0x12D sGate).src)) (rd 0x24) sGate planG
    ∧ sGate.memWf = true ∧ planG.desc.map (fun g => g.1) = [0x40002000, 0x40002010, 0x40002020, 0x40002030]
      ∧ planG.frame.map (fun g => g.1) = [0x40004FD0, 0x40004FE0, 0x40004FF0]
      ∧ ((∀ a ∈ [0x40002030, 0x40004FD0, 0x40004FE0, 0x40004FF0], a % 16 = 0)) ∧ inRam 0x40002030 16 ∧ inRam 0x40004FD0 16
      ∧ inRam 0x40004FF0 16 :=
  ⟨ready_of (by decide +kernel), ⟨by decide +kernel, by decide +kernel⟩, by unfold inRam; decide +kernel⟩

theorem wit_GateReturns :
    Ready (rd 0x2F) 0x12E sIn
    ∧ Steady (gretPlan (issueCtx (rd 0x2F) 0x12E sIn) (valC (srcVal (rd 0x2F) sIn))) (rd 0x2F) sIn ⟨0x40002030, 3, Cap.null, { rootExec with addr := 0x60000008 }⟩
    ∧ sIn.memWf = true ∧ 2 ≤ 3 ∧ inRam 0x40002030 16 :=
  ⟨ready_of (by decide +kernel), ⟨by decide +kernel, by decide +kernel⟩, by unfold inRam; decide +kernel⟩

/-! ## q, trp and sys -/

def thread0 : Cell :=
  { rootCell with run := 0, cur := some 3, banks := [(0, { pcc := rootExec })],
                  slots := [(3, { state := 2, bank := some 0, ctx := capOver 0x40008000 1024 3 })] }
def sThr : State := { State.reset with cells := [(0, thread0)] }
/-- q.oc designates queue 1 of the table at 0. -/
def sQ : State := { core0 (setC 0x170 (capAll 0x40 4)) with qReady := true }
def sQ0 : State := core0 (setC 0x170 (capAll 0x40 4))

/-- A q.t.stat, and a q.t.enqd with word 0; the same before the queue table base is in force. -/
theorem wit_QueueTriggersSend :
    (∀ x ∈ ([((im 0), 0x186, sQ), ((im 0), 0x181, sQ), ((im 0), 0x180, sQ0)] : List (Iss × BitVec 10 × State)), Ready x.1 x.2.1 x.2.2)
    ∧ Steady (qCheck (issueCtx (im 0) 0x186 sQ) .stat (valD (srcVal (im 0) sQ))) (im 0) sQ {}
    ∧ Steady (qCheck (issueCtx (im 0) 0x181 sQ) .enqd (valD (srcVal (im 0) sQ))) (im 0) sQ {}
    ∧ qRefused .stat (issueBank (im 0) sQ) (valD (srcVal (im 0) sQ)) = false ∧ sQ.qReady = true
      ∧ qRefused .enq (issueBank (im 0) sQ0) (valD (srcVal (im 0) sQ0)) = false ∧ sQ0.qReady = false
      ∧ sealedCheck (portC (issueBank (im 0) sQ0) 0x170) (fun t => t == 0x004) = none :=
  ⟨all_ready (by decide +kernel), ⟨by decide +kernel, by decide +kernel⟩, ⟨by decide +kernel, by decide +kernel⟩, by decide +kernel⟩

/-- c4 designates trip object 0, as one whose table base is not yet in force, and as one whose it is. -/
def sTrp : State := core0 (setC 0x24 (capAll 0x40000000 5))
def sTrpOn : State :=
  setReg tripBlock 0x40000000 (core0 (setC 0x24 (capOver 0x40000000 256 5)) (fun c => { c with tbaseOk := true }))
def sTrpVote : State :=
  setReg tripBlock 0x40000000 (core0 (setC 0x24 (capOver 0x400000C0 64 5)) (fun c => { c with tbaseOk := true }))

/-- A query and a release of object 0, an invocation by its third voter, and an invocation before the table base is in force. -/
theorem wit_TripTriggersStart :
    (∀ x ∈ ([((rd 0x24), 0x19A, sTrpOn), ((rd 0x24), 0x199, sTrpOn), ((rd 0x24), 0x198, sTrpVote), ((rd 0x24), 0x198, sTrp)] : List (Iss × BitVec 10 × State)), Ready x.1 x.2.1 x.2.2)
    ∧ trpCheck (issueCtx (rd 0x24) 0x19A sTrpOn) .query (valC (srcVal (rd 0x24) sTrpOn)) (srcCode (ownMove (rd 0x24) 0x19A sTrpOn).src) (issueStart (rd 0x24) sTrpOn) = none
      ∧ trpCheck (issueCtx (rd 0x24) 0x199 sTrpOn) .rel (valC (srcVal (rd 0x24) sTrpOn)) (srcCode (ownMove (rd 0x24) 0x199 sTrpOn).src) (issueStart (rd 0x24) sTrpOn) = none
      ∧ trpCheck (issueCtx (rd 0x24) 0x198 sTrpVote) .inv (valC (srcVal (rd 0x24) sTrpVote)) (srcCode (ownMove (rd 0x24) 0x198 sTrpVote).src) (issueStart (rd 0x24) sTrpVote) = none
      ∧ (portX (issueBank (rd 0x24) sTrp) 0x190).toNat < 2 ^ 32
      ∧ trpCheck (issueCtx (rd 0x24) 0x198 sTrp) .inv (valC (srcVal (rd 0x24) sTrp)) (srcCode (ownMove (rd 0x24) 0x198 sTrp).src) (issueStart (rd 0x24) sTrp) = none :=
  ⟨all_ready (by decide +kernel), by decide +kernel⟩

/-- sys.oc with the root system capability over the control space. -/
def sSys : State := core0 (fun k => setC 0x24 { rootSys with addr := BitVec.ofNat 64 (gateBlock 0x11C) } (setC 0x1A2 { rootSys with addr := 0x60000000 } k))

theorem wit_SysWaitsHold :
    (∀ x ∈ ([((im 0), 0x1B2, sSys), ((im 1), 0x1B4, sSys), ((rd 0x24), 0x1B5, sSys), ((im 0), 0x1BC, sSys),
      ((im 0), 0x1BD, sSys)] : List (Iss × BitVec 10 × State)), Ready x.1 x.2.1 x.2.2)
    ∧ Steady (ctlTarget (issueCtx (im 0) 0x1BC sSys) false (valD (srcVal (im 0) sSys))) (im 0) sSys 0x60000000
    ∧ Steady (ctlTarget (issueCtx (im 0) 0x1BD sSys) true (valD (srcVal (im 0) sSys))) (im 0) sSys 0x60000000
    ∧ (valD (srcVal (im 1) sSys)).toNat < 2 ∧ gateAt (valC (srcVal (rd 0x24) sSys)).addr.toNat = some 0x11C
      ∧ capCheck (valC (srcVal (rd 0x24) sSys)) (valC (srcVal (rd 0x24) sSys)).addr.toNat 8 0x400 false false = none :=
  ⟨all_ready (by decide +kernel), ⟨by decide +kernel, by decide +kernel⟩, ⟨by decide +kernel, by decide +kernel⟩, by decide +kernel⟩

/-- Levels 1 and 0 for sys.t.yield. -/
theorem wit_SysRuns :
    (∀ x ∈ ([((im 0), 0x1B0, sSys), ((im 0), 0x1B1, sSys), ((im 0x33F), 0x1B8, sSys), ((im 0), 0x1C0, sSys),
      ((im 0), 0x1C4, sSys), ((im 0), 0x1C5, sSys), ((im 0), 0x1C1, sSys), ((im 0), 0x1C1, sThr)] : List (Iss × BitVec 10 × State)), Ready x.1 x.2.1 x.2.2)
    ∧ Steady (pwrParts (issueCtx (im 0) 0x1C0 sSys)) (im 0) sSys ([(0x60000000, 8)], true)
    ∧ sysregAuth (portC (issueBank (im 0) sSys) 0x1A2) = none
      ∧ ((cellOf sSys 0).inv.filter (fun i => !i.left)).length < 16
      ∧ (cellOf sSys 0).sb.length + (if 0x1000 < (portC (issueBank (im 0) sSys) 0x1A2).addr.toNat % 0x1000 + 8 then 2 else 1) ≤ 16
      ∧ 5 ≤ (cellOf sSys 0).run ∧ (cellOf sThr 0).run < 5 :=
  ⟨all_ready (by decide +kernel), ⟨by decide +kernel, by decide +kernel⟩, by decide +kernel⟩

def sStall (x : Stall) : State := core0 id (fun c => { c with stall := x })

theorem wit_SysWaitsEnd :
    serves 0 (sStall (.fence false))
      ∧ ((cellOf (sStall (.fence false)) 0).away = none ∧ (cellOf (sStall (.fence false)) 0).heldUp = false)
      ∧ (cellOf (sStall (.fence false)) 0).sb = []
      ∧ ((∀ l ∈ (cellOf (sStall (.fence false)) 0).loads, l.arr = true ∨ l.bank ≠ (cellOf (sStall (.fence false)) 0).run))
      ∧ gateBusy (sStall (.gfence 3 true)) 3 = false ∧ (cellOf (sStall (.gfence 3 true)) 0).sb = []
      ∧ ((∀ e ∈ (sStall (.gfence 3 true)).gatePend, e.1 ≠ 3)) ∧ (cellOf (sStall .invsync) 0).inv = [] :=
  by decide +kernel

theorem wit_ControlAccess :
    (∀ x ∈ ([((sStall (.ctl false 0x40000000 0x40000000 0 0 none)), 0, 0x40000000, 8, .read),
      ((sStall (.ctl true 0x40000000 0x40000000 7 0 none)), 0, 0x40000000, 8, .write)] : List (State × Nat × Nat × Nat × Rq)), ∃ g, gateCheck x.1 x.2.1 x.2.2.1 x.2.2.2.1 x.2.2.2.2 = .ok g)
    ∧ (serves 0 (sStall (.ctl false 0x40000000 0x40000000 0 0 none))
      ∧ ((cellOf (sStall (.ctl true 0x40000000 0x40000000 7 0 none)) 0).away = none ∧ (cellOf (sStall (.ctl true 0x40000000 0x40000000 7 0 none)) 0).heldUp = false)
      ∧ poisoned (sStall (.ctl true 0x40000000 0x40000000 7 0 none)) 0x40000000 = false
      ∧ (cellOf (sStall (.ctl true 0x40000000 0x40000000 7 0 none)) 0).stall = .ctl true 0x40000000 0x40000000 7 0 none
      ∧ (cellOf (sStall (.ctl true 0x40000000 0x40000000 7 0 none)) 0).sb = []
      ∧ ((cellOf (sStall (.ctl true 0x40000000 0x40000000 7 0 none)) 0).loads = [] ∧ (sStall (.ctl true 0x40000000 0x40000000 7 0 none)).memWf = true))
    ∧ inRam 0x40000000 8 ∧ reqWaits (sStall (.ctl true 0x40000000 0x40000000 7 0 none)) 0 0x40000000 = false
      ∧ reqWaits (sStall (.ctl false 0x40000000 0x40000000 0 0 none)) 0 0x40000000 = false
      ∧ (cellOf (sStall (.ctl false 0x40000000 0x40000000 0 0 none)) 0).stall = .ctl false 0x40000000 0x40000000 0 0 none :=
  ⟨all_pass (by decide +kernel), by decide +kernel, by unfold inRam; decide +kernel⟩

/-- An invalidation of every address, in the issuer's block. -/
def ivr (left : Bool) (acks : List Nat) : InvReq :=
  { walk := true, va := 0, len := 0, asid := 3, all := false, glob := false, scope := 1, stores := 0, left := left, acks := acks }
def tlbE (asid : Nat) : TlbEntry := { asid := asid, glob := false, vbase := 0x40000000, size := 30, entry := 7, level := 2 }
def sInv : State := core0 id (fun c => { c with inv := [ivr true [2], { ivr false [] with scope := 3 }, ivr false []] })
def sAck : State :=
  { State.reset with cells := [(0, { rootCell with inv := [ivr true [1]] }), (1, { tlb := [tlbE 3, tlbE 4] })] }

theorem wit_Invalidations :
    (cellOf sInv 0).inv = [ivr true [2]] ++ { ivr false [] with scope := 3 } :: [ivr false []]
      ∧ ((∀ i ∈ [ivr true [2]], i.left = true)) ∧ { ivr false [] with scope := 3 } ∉ [ivr false []]
      ∧ (cellOf sAck 0).inv = [ivr true [1]] ∧ (ivr true [1]).acks = 1 :: [] ∧ (ivr true [1]).left = true
      ∧ invBlocked (ivr true [1]) sAck 1 = false ∧ ({ ivr false [] with scope := 3 }).stores = 0 :=
  by decide +kernel

/-- The acknowledging cell drops the entry of address space 3 alone, and the invalidation ends (R252). -/
theorem test_invalidation :
    (let t := nextOf (.invalidationAck 0 1) sAck
     decide ((cellOf t 1).tlb = [tlbE 4] ∧ (cellOf t 0).inv = [])) = true := by decide +kernel

/-! ## Queue managers -/

/-- Region 0 of a gate opened to every initiator of the hubs, the engines, PCIe and the debug port (R261, R263). -/
def openGate (g : Nat) (s : State) : State :=
  setReg (gateBlock g + 0x10A0) (-1) (setReg (gateBlock g + 0x10A8) (-1) (setReg (gateBlock g + 0x10F8) (-1) s))

/-- Queue 1: a ring of four entries of 16 bytes in cell 0.0.00's store, with tail and head. -/
def qd (tail head : Nat) (en : Bool := true) : QDesc :=
  { q := 1, ws := [BitVec.ofNat 64 (0x40000000 + 2 * 2 ^ 48 + (if en then 2 ^ 56 else 0)), BitVec.ofNat 64 (tail * 2 ^ 32 + head),
      BitVec.ofNat 64 (5 * 2 ^ 12), 9, 9, 9, 0, 0], stuck := false }
def qr (op : QOp) : QReq :=
  { op := op, queue := 1, core := 0, slot := 0, bank := 5, level := 1, t := 0x1122334455667788, od := 0x400080, om := 0, parts := [],
    carry := false, stl := false }
def sQm (op : QOp) (d : QDesc) (lev : Nat := 1) : State :=
  openGate 0 { core0 id (fun c => { c with stall := .q { qr op with level := lev } true none none }) with
    qReady := true, qbaseSet := true, qman := [(0, [{ qr op with level := lev }])], qcache := [(0, [d])] }
/-- Queue 1 full, with blocking enqueues allowed. -/
def qFull : QDesc := { qd 4 0 with ws := (qd 4 0).ws.set 0 (BitVec.ofNat 64 (0x40000000 + 2 * 2 ^ 48 + 3 * 2 ^ 56)) }

theorem wit_QueueOperations_fixed :
    (pathWaits (sQm .stat (qd 4 0)) (initSite 0) ⟨some 0, none⟩ = false
      ∧ qPathsWait (sQm .stat (qd 4 0)) 0 1 (queueParts (sQm .stat (qd 4 0)) (qr .stat)) = false
      ∧ cacheFits (sQm .stat (qd 4 0)) 0 ∧ pstateOf (sQm .stat (qd 4 0)) = 0 ∧ regionOut (sQm .stat (qd 4 0)) 0 = false
      ∧ tblGet [] (sQm .stat (qd 4 0)).qman 0 = qr .stat :: [])
    ∧ ((qCacheOf (sQm .stat (qd 4 0)) 0).find? (fun x => x.q == (qr .stat).queue) = some (qd 4 0) ∧ dEn (qd 4 0) = true
      ∧ (cellOf (sQm .stat (qd 4 0)) 0).stall = .q (qr .stat) true none none ∧ 0 < dCount (qd 4 0)
      ∧ (qr .arm).od.toNat / 256 % 4 = 0 ∧ (qd 4 0).ws.length = 8)
    ∧ (tblGet [] (sQm .arm (qd 4 0)).qman 0 = qr .arm :: []
      ∧ (qCacheOf (sQm .arm (qd 4 0)) 0).find? (fun x => x.q == (qr .arm).queue) = some (qd 4 0)
      ∧ tblGet [] (sQm .deqd (qd 4 4)).qman 0 = qr .deqd :: []
      ∧ (qCacheOf (sQm .deqd (qd 4 4)) 0).find? (fun x => x.q == (qr .deqd).queue) = some (qd 4 4) ∧ dCount (qd 4 4) = 0
      ∧ 8 ≤ dE (qd 4 0))
    ∧ dN (qd 4 0) ≤ dCount (qd 4 0) ∧ ((bit (dW (qd 4 0) 0) 57 = true → (qr .enqd).level ≠ 0))
      ∧ tblGet [] (sQm .enqd qFull 0).qman 0 = { qr .enqd with level := 0 } :: []
      ∧ (qCacheOf (sQm .enqd qFull 0) 0).find? (fun x => x.q == 1) = some qFull ∧ dEn qFull = true
      ∧ dN qFull ≤ dCount qFull ∧ (bit (dW qFull 0) 57 = true ∧ 8 ≤ dE qFull)
      ∧ (cellOf (sQm .enqd qFull 0) 0).stall = .q { qr .enqd with level := 0 } true none none :=
  ⟨by unfold cacheFits; decide +kernel, by decide +kernel, by decide +kernel, by decide +kernel⟩

/-- The last free entry at the wrap of the index, and the only message. -/
theorem wit_QueueOperations_rings :
    (tblGet [] (sQm .enqd (qd 3 0)).qman 0 = qr .enqd :: []
      ∧ (qCacheOf (sQm .enqd (qd 3 0)) 0).find? (fun x => x.q == (qr .enqd).queue) = some (qd 3 0) ∧ 16 ≤ dE (qd 3 0)
      ∧ (sQm .enqd (qd 3 0)).memWf = true ∧ dCount (qd 3 0) < dN (qd 3 0) ∧ (qd 3 0).ws.length = 8)
    ∧ ((qr .enqd).parts = [] ∧ dBase (qd 3 0) + dN (qd 3 0) * (dE (qd 3 0) + 2) ≤ 2 ^ 48
      ∧ rangeCheck (sQm .enqd (qd 3 0)) (qInit 0) (entryAt (qd 3 0) (dFld (qd 3 0) 1 63 32)) (dE (qd 3 0)) .write = none
      ∧ rangeCheck (sQm .enqd (qd 3 0)) (qInit 0) (lenAt (qd 3 0) (dFld (qd 3 0) 1 63 32)) 2 .write = none
      ∧ tblGet [] (sQm .deqd (qd 0 0xFFFFFFFF)).qman 0 = qr .deqd :: []
      ∧ (qCacheOf (sQm .deqd (qd 0 0xFFFFFFFF)) 0).find? (fun x => x.q == (qr .deqd).queue) = some (qd 0 0xFFFFFFFF))
    ∧ 0 < dCount (qd 0 0xFFFFFFFF) ∧ qWaiters (sQm .deqd (qd 0 0xFFFFFFFF)) 1 = [] ∧ (qd 0 0xFFFFFFFF).ws.length = 8
      ∧ (ringPoison (sQm .deqd (qd 0 0xFFFFFFFF)) false (lenAt (qd 0 0xFFFFFFFF) (dFld (qd 0 0xFFFFFFFF) 1 31 0)) 2 = none ∧ ringPoison (sQm .deqd (qd 0 0xFFFFFFFF)) false (entryAt (qd 0 0xFFFFFFFF) (dFld (qd 0 0xFFFFFFFF) 1 31 0)) (dE (qd 0 0xFFFFFFFF)) = none)
      ∧ (ringPoison (sQm .enqd (qd 3 0)) true (entryAt (qd 3 0) (dFld (qd 3 0) 1 63 32)) (dE (qd 3 0)) = none ∧ ringPoison (sQm .enqd (qd 3 0)) true (lenAt (qd 3 0) (dFld (qd 3 0) 1 63 32)) 2 = none)
      ∧ rangeCheck (sQm .deqd (qd 0 0xFFFFFFFF)) (qInit 0) (entryAt (qd 0 0xFFFFFFFF) (dFld (qd 0 0xFFFFFFFF) 1 31 0)) (dE (qd 0 0xFFFFFFFF)) .read = none
      ∧ rangeCheck (sQm .deqd (qd 0 0xFFFFFFFF)) (qInit 0) (lenAt (qd 0 0xFFFFFFFF) (dFld (qd 0 0xFFFFFFFF) 1 31 0)) 2 .read = none
      ∧ physNat (sQm .deqd (qd 0 0xFFFFFFFF)) (lenAt (qd 0 0xFFFFFFFF) (dFld (qd 0 0xFFFFFFFF) 1 31 0)) 2 ≤ min 8 (dE (qd 0 0xFFFFFFFF)) :=
  ⟨by decide +kernel, by decide +kernel, by decide +kernel⟩

/-- The fourth message goes to entry 3 of the ring, its length behind the entries (R302), and the answer counts four. -/
theorem test_enqueue :
    (let t := nextOf (.queueOperation 0 .none) (sQm .enqd (qd 3 0))
     (memNat t 0x40000030 8, memNat t 0x40000046 2, match (cellOf t 0).stall with | .q _ _ (some a) _ => (a.status, a.count) | _ => (9, 9)))
      = (0x1122334455667788, 8, 0, 4) := by decide +kernel
def undo0 : Undo := { bank := { pcc := rootExec }, fly := [], div := {}, ph := {} }
def sAns (blocked : Bool) (fault : Option Flt := none) : State :=
  let a : QAns := { status := 1, len := 2, count := 3, data := some 4, blocked := blocked, fault := fault }
  let c : Cell := { thread0 with stall := .q { qr .wait with bank := 0, slot := 3 } true (some a) (some undo0) }
  { State.reset with cells := [(0, c)] }
def sWake : State :=
  let t : ThSlot := { state := 3, waitq := 1, bank := some 0, fin := some ({ pcc := rootExec }, false) }
  let c : Cell := { thread0 with cur := none, wakes := [⟨3, false, 1, 0, 8, 2⟩], slots := [(3, t)] }
  { State.reset with cells := [(0, c)] }

theorem wit_QueueAnswers :
    (serves 0 (sAns false) ∧ ((cellOf (sAns false) 0).away = none ∧ (cellOf (sAns false) 0).heldUp = false)
      ∧ (cellOf (sAns false) 0).stall = .q { qr .wait with bank := 0, slot := 3 } true (some { status := 1, len := 2, count := 3, data := some 4, blocked := false }) (some undo0)
      ∧ ({ qr .wait with bank := 0 }).bank = (cellOf (sAns false) 0).run
      ∧ (cellOf (sAns true) 0).stall = .q { qr .wait with bank := 0, slot := 3 } true (some { status := 1, len := 2, count := 3, data := some 4, blocked := true }) (some undo0)
      ∧ (cellOf (sAns true) 0).cur = some 3)
    ∧ (slotOf (cellOf (sAns true) 0) 3).want = none
      ∧ (cellOf (sAns false (some ⟨0x0B, 8, 0⟩)) 0).stall = .q { qr .wait with bank := 0, slot := 3 } true (some { status := 1, len := 2, count := 3, data := some 4, blocked := false, fault := some ⟨0x0B, 8, 0⟩ }) (some undo0)
      ∧ blockComes ⟨3, false, 1, 0, 8, 2⟩ (cellOf sWake 0) = false ∧ (cellOf sWake 0).wakes = [⟨3, false, 1, 0, 8, 2⟩]
      ∧ ((slotOf (cellOf sWake 0) 3).state = 3 ∧ (slotOf (cellOf sWake 0) 3).waitq = 1)
      ∧ (slotOf (cellOf sWake 0) 3).fin = some ({ pcc := rootExec }, false) ∧ (slotOf (cellOf sWake 0) 3).bank = some 0 :=
  ⟨by decide +kernel, by decide +kernel⟩

/-! ## Trip requests -/

def tobj (rule lmode : Nat) (act : Bool) : TripObj :=
  { rule := rule, lmode := lmode, omask := 0, pub := 0, pon := false, win := 5, tpulse := 0, pos := [], ven := 7, act := act, word := 0,
    regs := [], ntrip := 0, since := 0 }
def trq (op : TrpOp) (v : Nat) (ans : Option W) : TrpReq := { op := op, bank := 5, obj := 4095, voter := v, word := 6, ahead := 0, ans := ans }
def sTr (r : TrpReq) (o : TripObj) : State :=
  setReg tripBlock 0x40000000 { core0 id (fun c => { c with trp := [r], tbaseOk := true }) with dev := 1, trip := { objs := [(4095, o)] } }

theorem wit_TripRequests :
    (serves 0 (sTr (trq .inv 0 none) (tobj 0 0 false))
      ∧ pathWaits (sTr (trq .inv 0 none) (tobj 0 0 false)) (initSite 0) ⟨none, none⟩ = false
      ∧ (cellOf (sTr (trq .inv 0 none) (tobj 0 0 false)) 0).trp = trq .inv 0 none :: []
      ∧ tripObj (sTr (trq .inv 0 none) (tobj 0 0 false)) 4095 = some (tobj 0 0 false)
      ∧ inService (sTr (trq .inv 0 none) (tobj 0 0 false)) = true
      ∧ tripTurn (sTr (trq .inv 0 none) (tobj 0 0 false)) (0 / 64 % 4) = true)
    ∧ (tobj 0 0 false).ven.testBit 0 = true ∧ ((tobj 0 0 false).act = false ∧ (tobj 0 0 false).rule = 0)
      ∧ tripObj (sTr (trq .inv 2 none) (tobj 2 0 false)) 4095 = some (tobj 2 0 false)
      ∧ ((tobj 2 0 false).ven.testBit 2 = true ∧ (tobj 2 0 false).regs = [])
      ∧ tripObj (sTr (trq .rel 0 none) (tobj 0 1 true)) 4095 = some (tobj 0 1 true)
      ∧ (tobj 0 1 true).since + (tobj 0 1 true).tpulse * (1000000 * 2 ^ 32) ≤ (sTr (trq .rel 0 none) (tobj 0 1 true)).time.dur
      ∧ tripObj (sTr (trq .query 0 none) (tobj 0 1 true)) 4095 = some (tobj 0 1 true)
      ∧ (cellOf (sTr (trq .inv 0 (some 3)) (tobj 0 0 false)) 0).trpHeld = none :=
  ⟨by decide +kernel, by decide +kernel⟩

/-- One voter of an object with rule 0 trips it, and is answered 0x00 (R371, R372). -/
theorem test_trip :
    (let t := nextOf (.tripInvocation ⟨0, []⟩) (sTr (trq .inv 0 none) (tobj 0 0 false))
     decide ((tripObj t 4095).map (fun o => (o.act, o.word, o.ntrip)) = some (true, 6, 1)
       ∧ (cellOf t 0).trp.map (fun r => r.ans) = [some 0])) = true := by decide +kernel

/-! ## Threads, cells and their words -/

def sSwitch : State :=
  { State.reset with cells := [(0, { rootCell with run := 0, cur := none, slots :=
      [(0, { state := 1, prio := 15, bank := some 0, last := 4 }), (1, { state := 1, prio := 15, bank := some 1, last := 5 }),
       (63, { state := 1, prio := 14, bank := some 2, last := 0 })] })] }
def sQuant : State :=
  { State.reset with cells := [(0, { rootCell with run := 0, cur := some 0, slots :=
      [(0, { state := 2, quantum := 9, used := 9, bank := some 0 }), (1, { state := 1, bank := some 1 })] })] }

/-- The least recently run of two threads of the highest priority; a quantum just used up. -/
theorem wit_ThreadsSwitch :
    (∀ c ∈ [(cellOf sSwitch 0)], Quiet c)
    ∧ (serves 0 sSwitch ∧ atPoint (cellOf sSwitch 0) = true
      ∧ ((cellOf sSwitch 0).run < 5 ∧ (cellOf sSwitch 0).stopReq = false ∧ (cellOf sSwitch 0).cur = none)
      ∧ (slotOf (cellOf sSwitch 0) 0).state = 1
      ∧ ((slotOf (cellOf sSwitch 0) 0).bank = some 0 ∧ (slotOf (cellOf sSwitch 0) 0).fin = none ∧ (slotOf (cellOf sSwitch 0) 0).resume = none)
      ∧ ((∀ e ∈ (cellOf sSwitch 0).slots, e.2.state = 1 → e.1 ≠ 0 → e.2.prio < (slotOf (cellOf sSwitch 0) 0).prio ∨ (e.2.prio = (slotOf (cellOf sSwitch 0) 0).prio ∧ (slotOf (cellOf sSwitch 0) 0).last < e.2.last))))
    ∧ (slotOf (cellOf sQuant 0) 0).quantum ≠ 0
      ∧ (slotOf (cellOf sQuant 0) 0).quantum ≤ (slotOf (cellOf sQuant 0) 0).used
      ∧ ((∃ e ∈ (cellOf sQuant 0).slots, e.1 ≠ 0 ∧ e.2.state = 1 ∧ e.2.prio = (slotOf (cellOf sQuant 0) 0).prio)) :=
  ⟨all_quiet (by decide +kernel), by decide +kernel, by decide +kernel⟩

/-- Six installed threads for five banks; the bank of slot 0 holds d0 = 7 and is due to be written back to its cocoon at 0x40008000. -/
def sSpill : State :=
  { State.reset with cells := [(0, { rootCell with
      banks := [(0, { x := [(0, 7)], dirty := 1 }), (5, rootBank)],
      slots := [(0, { state := 1, bank := some 0, last := 1, ctx := capOver 0x40008000 1024 3 }), (1, { state := 1, bank := some 1, last := 2 }),
        (2, { state := 1, bank := some 2, last := 3 }), (3, { state := 1, bank := some 3, last := 4 }), (4, { state := 1, bank := some 4, last := 5 }),
        (5, { state := 1, last := 6 })] })] }
def sRestore : State :=
  let t : ThSlot := { state := 1, asid := some 0, wmask := 1, ctx := capOver 0x40008000 1024 3 }
  { State.reset with mem := memWrite 0x40008000 [7] [],
                     cells := [(0, { rootCell with run := 0, restore := some (0, 2), slots := [(0, t)] })] }

theorem wit_CocoonsMove :
    (∀ c ∈ [(cellOf sSpill 0)], Quiet c)
    ∧ (sSpill.memWf = true ∧ serves 0 sSpill ∧ serves 0 sRestore ∧ reqWaits sSpill 0 0x40008000 = false
      ∧ reqWaits sRestore 0 0x40008000 = false ∧ ((cellOf sSpill 0).spillHalt = false ∧ (cellOf sSpill 0).stopped = false))
    ∧ (spillVictim (cellOf sSpill 0) = some (0, 0)
      ∧ ((bankOf (cellOf sSpill 0) 0).dirty = 1 ∧ (bankOf (cellOf sSpill 0) 0).asid = 0)
      ∧ contextFail (slotOf (cellOf sSpill 0) 0).ctx = none ∧ capBase (slotOf (cellOf sSpill 0) 0).ctx = 0x40008000
      ∧ inRam 0x40008000 64 ∧ poisoned sRestore 0x40008000 = false)
    ∧ rangeCheck sSpill 0 0x40008000 64 .write = none ∧ (cellOf sRestore 0).restore = some (0, 2)
      ∧ ((slotOf (cellOf sRestore 0) 0).state = 1 ∧ (slotOf (cellOf sRestore 0) 0).asid = some 0 ∧ (slotOf (cellOf sRestore 0) 0).wmask = 1)
      ∧ ((slotOf (cellOf sRestore 0) 0).fin = none ∧ (slotOf (cellOf sRestore 0) 0).resume = none)
      ∧ contextFail (slotOf (cellOf sRestore 0) 0).ctx = none ∧ rangeCheck sRestore 0 0x40008000 64 .read = none :=
  ⟨all_quiet (by decide +kernel), by decide +kernel, by unfold inRam; decide +kernel, by decide +kernel⟩

/-- The spilled word stands at the start of the cocoon, and the restored one in d0 of the new bank (R195, R199). -/
theorem test_cocoon :
    (memNat (nextOf (.spillComplete 0 .ok 8) sSpill) 0x40008000 8,
     let t := nextOf (.cocoonRestore 0 0 .ok 8) sRestore
     ((cellOf t 0).run, (portX (runBank (cellOf t 0)) 0).toNat)) = (7, 2, 7) := by decide +kernel
def sTcmp : State := setReg (ctlBase 0 + 0x88) 0 (core0 id (fun c => { c with tcmpArm := true }))
def sStop : State := core0 id (fun c => { c with stopReq := true })
def sFlush : State := core0 id (fun c => { c with flush := true, stopped := true })
def sBk : State := setReg (ctlBase 0 + 0x100) 0x80000000 (core0 id (fun c => { c with bkBusy := some (11, 0x40000000) }))
/-- Address space 3: one leaf of 1 GiB, read and written, at 0x40000000. -/
def sWalk : State :=
  let s := core0 (fun k => { k with asid := 3 })
  let s := memStore (asEntryAt 0 3) (leBytes 8 (1 + 0x40009 * 2 ^ 24)) s
  memStore (0x40009000 + 8) (leBytes 8 (3 + 2 ^ 2 + 2 ^ 5 + 30 * 2 ^ 9 + 0x40000 * 2 ^ 24)) s

theorem wit_CellEvents :
    (∀ c ∈ [(cellOf sFlush 0), (cellOf sStop 0)], Quiet c)
    ∧ (serves 0 sTcmp ∧ serves 0 sBk ∧ (cellOf sFlush 0).heldUp = false ∧ reqWaits sBk 0 (0x40000000 + 8 * 31) = false
      ∧ piecesBad sBk false 0 (partPieces [(0x40000000 + 8 * 31, 8)]) = none ∧ (cellOf sTcmp 0).tcmpArm = true)
    ∧ ((reg sTcmp (ctlBase 0 + 0x88)).toNat / 2 ^ 32 = sTcmp.time.now / (1000000000 * 2 ^ 32) % 2 ^ 32
      ∧ (reg sTcmp (ctlBase 0 + 0x88)).toNat % 2 ^ 32 ≤ sTcmp.time.now % (1000000000 * 2 ^ 32) / 2 ^ 32
      ∧ (cellOf sStop 0).stopReq = true ∧ atPoint (cellOf sStop 0) = true ∧ (cellOf sStop 0).cur = none
      ∧ ((∀ e ∈ sStop.mon.comps, e.2.move = none)))
    ∧ (cellOf sFlush 0).trp = []
      ∧ ((cellOf sFlush 0).flush = true ∧ (cellOf sFlush 0).slots = [] ∧ (cellOf sFlush 0).wdStop = none)
      ∧ (cellOf sBk 0).bkBusy = some (11, 0x40000000) ∧ (reg sBk (ctlBase 0 + 0x100)).toNat = 2 ^ 31
      ∧ inRam (0x40000000 + 8 * 31) 8 ∧ rangeCheck sBk 0 (0x40000000 + 8 * 31) 8 .read = none :=
  ⟨all_quiet (by decide +kernel), by decide +kernel, by decide +kernel, by unfold inRam; decide +kernel⟩

theorem wit_CellEvents_walk :
    (∀ x ∈ ([(sWalk, 0, 0x40009008, 8, .read)] : List (State × Nat × Nat × Nat × Rq)), ∃ g, gateCheck x.1 x.2.1 x.2.2.1 x.2.2.2.1 x.2.2.2.2 = .ok g)
    ∧ (serves 0 sWalk ∧ (reqWaits sWalk 0 (asEntryAt 0 3) = false ∧ reqWaits sWalk 0 0x40009008 = false)
      ∧ mayIssue sWalk 0 = true ∧ (cellOf sWalk 0).walkBad = none
      ∧ (poisoned sWalk (asEntryAt 0 3) = false ∧ poisoned sWalk 0x40009008 = false) ∧ (runBank (cellOf sWalk 0)).asid ≠ 0)
    ∧ (((cellOf sWalk 0).tlb = [] ∧ (cellOf sWalk 0).wc = [])
      ∧ gateCheck sWalk 0 (asEntryAt 0 3) 8 .read = .ok (0x110 + 0 / 64) ∧ ordOf sWalk (asEntryAt 0 3) ≠ 2
      ∧ physNat sWalk (asEntryAt 0 3) 8 % 2 ^ 24 = 1
      ∧ physNat sWalk (asEntryAt 0 3) 8 / 2 ^ 24 % 2 ^ 36 * 0x1000 + 8 * (0x40001000 / 2 ^ 30) = 0x40009008
      ∧ ordOf sWalk 0x40009008 ≠ 2)
    ∧ physNat sWalk 0x40009008 8 % 2 ^ 24 = 3 + 2 ^ 2 + 2 ^ 5 + 30 * 2 ^ 9
      ∧ physNat sWalk 0x40009008 8 / 2 ^ 24 % 2 ^ 36 * 0x1000 % 2 ^ 30 = 0 ∧ (runBank (cellOf sWalk 0)).krrl.toNat % 4 ≠ 3 :=
  ⟨all_pass (by decide +kernel), by decide +kernel, by decide +kernel, by decide +kernel⟩

def sEntry : State :=
  memStoreCap 0x40001000 (capBytes (capAll 0x40003000 0)) true
    (memStoreCap 0x40002000 (capBytes (capOver 0x40008000 1024 3)) true
      (core0 id (fun c => { c with stopped := true, entry := { rootExec with addr := 0x40003000 } })))

/-- The map entry of the last source; a start of a stopped cell. -/
theorem wit_CellWords :
    (∀ x ∈ ([((ctlBase 0 + 0x088), State.reset), ((ctlBase 255 + 0x080), State.reset),
      ((ctlBase 0 + (0x400 + 8 * 127)), State.reset), ((ctlBase 0 + 0x008), State.reset), ((ctlBase 0 + 0x008), sEntry)] : List (Nat × State)), lands 0 x.1 x.2)
    ∧ (cellOf State.reset 0).stopped = false
      ∧ ((cellOf sEntry 0).stopped = true ∧ (cellOf sEntry 0).flush = false ∧ (cellOf sEntry 0).powered = true ∧ jumpCheck (cellOf sEntry 0).entry = none ∧ (cellOf sEntry 0).cur = none)
      ∧ (bankOf (cellOf sEntry 0) 5).poison = false :=
  ⟨all_land (by decide +kernel), by decide +kernel⟩

/-- The last slot, in its two kinds of word. -/
theorem wit_SlotWords :
    (∀ x ∈ ([((ctlBase 0 + 0x010), sEntry), ((ctlBase 0 + 0x108), sEntry), ((ctlBase 0 + (0x1000 + 64 * 63)), sEntry),
      ((ctlBase 0 + (0x1010 + 64 * 63)), sEntry)] : List (Nat × State)), lands 0 x.1 x.2)
    ∧ (∀ x ∈ ([(sEntry, 0, 0x40001000, 16, .read), (sEntry, 0, 0x40002000, 16, .read)] : List (State × Nat × Nat × Nat × Rq)), ∃ g, gateCheck x.1 x.2.1 x.2.2.1 x.2.2.2.1 x.2.2.2.2 = .ok g)
    ∧ (inRam 0x40001000 16
      ∧ (poisoned sEntry 0x40001000 = false ∧ reqWaits sEntry 0 0x40001000 = false ∧ poisoned sEntry 0x40002000 = false ∧ reqWaits sEntry 0 0x40002000 = false)
      ∧ ((physCap sEntry 0x40001000).tag = true ∧ (capPerms (physCap sEntry 0x40001000)).getLsbD 1 = true ∧ capOtype (physCap sEntry 0x40001000) = 0)
      ∧ ((cellOf sEntry 0).bkBusy = none ∧ bankActive (cellOf sEntry 0) 11 = false)
      ∧ (reg sEntry (ctlBase 0 + 0x100)).toNat < 2 ^ 52
      ∧ ((slotOf (cellOf sEntry 0) 63).state ≠ 2 ∧ (slotOf (cellOf sEntry 0) 63).state ≠ 3))
    ∧ (slotOf (cellOf sEntry 0) 63).state = 0 ∧ inRam 0x40002000 16 ∧ contextFail (physCap sEntry 0x40002000) = none :=
  ⟨all_land (by decide +kernel), all_pass (by decide +kernel), by unfold inRam; decide +kernel, by unfold inRam; decide +kernel⟩

/-! ## Gates, blocks and queue managers' words -/

def sPend (g : Nat) (v : W) : State :=
  { setReg (gateBlock g + 0x10) 1 State.reset with gatePend := [(g, gateBlock g + 0x1010 + 0x100 * 63, v)] }

/-- The first and the last gate, and the last region of a gate. -/
theorem wit_GateWords :
    (∀ x ∈ ([((gateBlock 0 + 0x1010 + 0x100 * 63), State.reset), ((gateBlock 0x120 + 0x48), State.reset),
      ((gateBlock 0x120 + 0x1010), State.reset), ((hubBase 3 + 0xF11000), State.reset),
      ((hubBase 0 + 0xF11000), State.reset)] : List (Nat × State)), lands 0 x.1 x.2)
    ∧ configRefusal State.reset 0 (0x1010 + 0x100 * 63) 0 = none ∧ configRefusal State.reset 0x120 0x1010 0 = none
      ∧ gateBusy (sPend 0 1) 0 = false ∧ (sPend 0 1).trip.late = [] ∧ pstateOf (sPend 0 1) = 0
      ∧ (sPend 0 1).gatePend = [(0, gateBlock 0 + 0x1010 + 0x100 * 63, 1)]
      ∧ (inControl (hubBase 3 + 0xF11000) = true ∧ anyWidth (hubBase 3 + 0xF11000) = false ∧ (hubBase 3 + 0xF11000) % 8 = 0)
      ∧ (ctlPut false (hubBase 3 + 0xF11000) 5 (tripTakes 0 (hubBase 3 + 0xF11000) 5 State.reset)).2 = false :=
  ⟨all_land (by decide +kernel), by decide +kernel⟩

/-- A watchdog with the shortest period on cell 3.3.15, due, its half period counted from 0. -/
def sWd : State :=
  setReg (wdAddr 255) (BitVec.ofNat 64 (1 + 2 ^ 16)) { State.reset with time := { dur := 1000 * 2 ^ 32 } }
/-- The same cell stopped by its watchdog 100 us ago, with a thread in slot 63 whose bank has not been flushed. -/
def sWdl : State :=
  { State.reset with time := { dur := 100 * (1000 * 2 ^ 32) }, cells := [(255, { rootCell with
      stopped := true, flush := true, wdStop := some 0, run := 0, banks := [(0, { dirty := 1 })], slots := [(63, { state := 1, bank := some 0 })] })] }
def sWay : State := setReg (blockBase 15 + 0x10) 0x81 State.reset
/-- The change of those ways at the gate, which applies it. -/
def sWayG : State := { sWay with gatePend := [(0x10F, blockBase 15 + 0x10, 0x81)] }

theorem wit_BlockWords :
    (∀ x ∈ ([((blockBase 15 + 8), State.reset), ((wdAddr 255 + 8), State.reset), ((recAddr (.cell 0) + 0x38), State.reset)] : List (Nat × State)), lands 0 x.1 x.2)
    ∧ ((reg sWay (blockBase 15 + 0x10)).getLsbD 7 = true ∧ sWay.memWf = true
      ∧ ((∀ e ∈ sWay.gatePend, e.2.1 ≠ blockBase 15 + 0x10))
      ∧ (pstateOf sWayG = 0 ∧ gateBusy sWayG (0x100 + 15) = false ∧ sWayG.trip.late = [])
      ∧ sWayG.gatePend = [(0x100 + 15, blockBase 15 + 0x10, 0x81)] ∧ serves 255 sWd)
    ∧ (serves 255 sWdl ∧ pstateOf sWay = 0 ∧ (reg sWd (wdAddr 255)).toNat % 4 = 1
      ∧ (reg sWd (wdAddr 255)).toNat / 2 ^ 16 % 2 ^ 16 ≠ 0
      ∧ (cellOf sWd 255).wdStart + (reg sWd (wdAddr 255)).toNat / 2 ^ 16 % 2 ^ 16 * (1000 * 2 ^ 32) ≤ sWd.time.dur
      ∧ (cellOf sWd 255).wdHalf ≠ some (cellOf sWd 255).wdStart)
    ∧ (cellOf sWd 255).wdStop = none ∧ (cellOf sWdl 255).wdStop = some 0 ∧ 0 + 100 * (1000 * 2 ^ 32) ≤ sWdl.time.dur
      ∧ ((∀ e ∈ (cellOf sWdl 255).slots, e.1 < 64 ∧ e.2.state ≠ 3)) ∧ unflushed (cellOf sWdl 255) = [63]
      ∧ recOfIndex 0x8200 = some (.cell 0) :=
  ⟨all_land (by decide +kernel), by decide +kernel, by decide +kernel, by decide +kernel⟩

def sPost : State :=
  openGate 0 { State.reset with qReady := true, qbaseSet := true, posts := [⟨0x301, 1, [1, 2, 3, 4, 5, 6, 7, 8, 9, 10, 11, 12, 13, 14, 15, 16]⟩], qcache := [(0, [qd 3 0])] }

theorem wit_QueueBase :
    (∀ x ∈ ([((hubBase 0 + 0xE00000), State.reset), ((hubBase 0 + 0xE00000), sPost)] : List (Nat × State)), lands 0 x.1 x.2)
    ∧ (sPost.memWf = true ∧ cacheFits sPost (queueRegion 1)
      ∧ pathWaits sPost (producerSite sPost 0x301) ⟨some (queueRegion 1), none⟩ = false
      ∧ qPathsWait sPost (queueRegion 1) 1 [] = false
      ∧ (ringPoison sPost true (entryAt (qd 3 0) (dFld (qd 3 0) 1 63 32)) (dE (qd 3 0)) = none ∧ ringPoison sPost true (lenAt (qd 3 0) (dFld (qd 3 0) 1 63 32)) 2 = none)
      ∧ State.reset.qbaseSet = false)
    ∧ (sPost.qbaseSet = true ∧ pstateOf sPost = 0 ∧ regionOut sPost (queueRegion 1) = false ∧ queueRegion 1 = 0
      ∧ (qCacheOf sPost (queueRegion 1)).find? (fun x => x.q == 1) = some (qd 3 0) ∧ 16 ≤ dE (qd 3 0))
    ∧ dCount (qd 3 0) < dN (qd 3 0)
      ∧ rangeCheck sPost (qInit 0) (entryAt (qd 3 0) (dFld (qd 3 0) 1 63 32)) (dE (qd 3 0)) .write = none
      ∧ rangeCheck sPost (qInit 0) (lenAt (qd 3 0) (dFld (qd 3 0) 1 63 32)) 2 .write = none :=
  ⟨all_land (by decide +kernel), by unfold cacheFits; decide +kernel, by decide +kernel, by decide +kernel⟩

def sCmd (d : QDesc) (stage0 : W) : State :=
  setReg (hubBase 0 + 0xE00040) stage0 <| setReg (hubBase 0 + 0xE00050) 16 { State.reset with qReady := true, qbaseSet := true, qcache := [(0, [d])] }

theorem wit_QueueCommands :
    (∀ x ∈ ([((hubBase 0 + 0xE00010), (sCmd (qd 0 0 false) 0x2000040000000)),
      ((hubBase 0 + 0xE00010), (sCmd (qd 3 0) 0x70005))] : List (Nat × State)), lands 0 x.1 x.2)
    ∧ (queueRegion 1 = 0 ∧ cacheFits (sCmd (qd 0 0 false) 0x2000040000000) 0 ∧ cacheFits (sCmd (qd 3 0) 0x70005) 0
      ∧ (qCacheOf (sCmd (qd 0 0 false) 0x2000040000000) 0).find? (fun x => x.q == 1) = some (qd 0 0 false)
      ∧ (qd 0 0 false).ws.length = 8 ∧ dEn (qd 0 0 false) = false)
    ∧ (reg (sCmd (qd 0 0 false) 0x2000040000000) (hubBase 0 + 0xE00040)).getLsbD 59 = false
      ∧ createFail (sCmd (qd 0 0 false) 0x2000040000000) ⟨1, createWords (sCmd (qd 0 0 false) 0x2000040000000) 0, false⟩ = none
      ∧ (reg (sCmd (qd 0 0 false) 0x2000040000000) (hubBase 0 + 0xE00040 + 8 * 2)).toNat / 256 % 4 = 0
      ∧ dEn (qd 3 0) = true ∧ dFld (qd 3 0) 2 21 12 = (0x70005 : W).toNat % 2 ^ 10 :=
  ⟨all_land (by decide +kernel), by unfold cacheFits; decide +kernel, by decide +kernel⟩

/-! ## Sample ingress -/

def mac0 : BitVec 64 := 0x010004CD0C01
/-- Grid 0 of one channel in cell 0.0.00's store, on when asked for; subscription 8191 feeds it, and takes from lane 0. -/
def ingWords (on : Bool) : State :=
  let w := fun (a : Nat) (v : W) (s : State) => setReg a v s
  w (subBase 8191 + 8) (0x4000 + 2 ^ 16 + 2 ^ 56) <| w (subBase 8191 + 0x10) 4800 <| w (subBase 8191 + 0x18) 1 <|
  w (subBase 8191 + 0x40) 0x41 <| w (gridBase 0 + 8) 0x40000000 <| w (gridBase 0 + 0x10) 0x40001000 <|
  w (gridBase 0 + 0x18) (1 + 250 * 2 ^ 32) <| w (gridBase 0) (if on then 9601 else 9600)
    { State.reset with objs := [(okey 0x3000 1, [1]), (okey 0x300F 1, [1])] }
def sSubOn : State := setReg (statBase 8191) 2 (setReg (subBase 8191) (mac0 + 2 ^ 48) (ingWords false))

/-- The last subscription and the last grid. -/
theorem wit_IngressCommits :
    (∀ x ∈ ([((subBase 8191), (ingWords true)), ((subBase 8191), sSubOn), ((gridBase 0), (ingWords false)),
      ((gridBase 15), State.reset)] : List (Nat × State)), lands 0 x.1 x.2)
    ∧ ((mac0 + 2 ^ 48).getLsbD 48 = true ∧ subEn (ingWords true) 8191 = false
      ∧ subCommitRefusal (setReg (subBase 8191) (mac0 + 2 ^ 48) (ingWords true)) 8191 = none ∧ subEn sSubOn 8191 = true
      ∧ mac0.getLsbD 48 = false ∧ reg sSubOn (subBase 8191) = mac0 ||| (1 <<< 48))
    ∧ reg sSubOn (subBase 8191) ≠ 0 ||| (1 <<< 48) ∧ gridWordRefusal 0 9601 = none
      ∧ reg (ingWords true) (gridBase 0) = 9600 ||| 1 ∧ gridEn (ingWords false) 0 = false
      ∧ gridCommitRefusal (setReg (gridBase 0) 9601 (ingWords false)) 0 = none ∧ gridEn (ingWords true) 0 = true
      ∧ ((∀ k ∈ enabledSubs (ingWords true), subGrid (ingWords true) k ≠ 0)) :=
  ⟨all_land (by decide +kernel), by decide +kernel, by decide +kernel⟩

/-- Lane modes are all 0 at reset. -/
theorem wit_IngressWords :
    (∀ x ∈ ([(ingBase, State.reset), ((ingBase + 0x10), State.reset), ((ingBase + 0x20), State.reset),
      ((ingBase + 0x28), State.reset)] : List (Nat × State)), lands 0 x.1 x.2)
    ∧ (0x22222222 : W).toNat < 2 ^ 32
      ∧ ((∀ p < 8, (0x22222222 : W).toNat / 2 ^ (4 * p) % 4 ≠ 3 ∧ laneMode State.reset (2 * p) = laneMode State.reset (2 * p + 1)))
      ∧ ((∀ e ∈ State.reset.subs, e.2.takes = false)) :=
  ⟨all_land (by decide +kernel), by decide +kernel⟩

/-- A sampled-value frame of 60 bytes: MAC 01-0C-CD-04-00-01, APPID 0x4000, one ASDU "A" of one channel (R331). -/
def svFrame : Frame :=
  { lane := 0, stamp := 0, good := true, room := true, bytes :=
      [0x01, 0x0C, 0xCD, 0x04, 0x00, 0x01, 2, 0, 0, 0, 0, 1, 0x88, 0xBA, 0x40, 0x00, 0x00, 0x2B, 0, 0, 0, 0,
       0x60, 0x21, 0x80, 1, 1, 0xA2, 0x1C, 0x30, 0x1A, 0x80, 1, 0x41, 0x82, 2, 0, 0, 0x83, 4, 0, 0, 0, 1, 0x85, 1, 2,
       0x87, 8, 0, 0, 0, 1, 0, 0, 0, 0, 0, 0, 0] }
/-- 150 subscriptions of 32 channels at 131,071 frames a second: more than R364 allows. -/
def sOver : State :=
  { State.reset with objs := [(okey 0x3000 1, [1])], regs := (List.range 150).flatMap (fun i =>
      [(subBase i, 2 ^ 48), (subBase i + 8, 31 * 2 ^ 51), (subBase i + 0x10, 131071)]) }
def svRead : SvFrame :=
  { dmac := 0x010004CD0C01, appid := 0x4000, sim := false,
    asdus := [{ svid := [0x41], smpCnt := 0, confRev := 1, synch := 2, data := [0, 0, 0, 1, 0, 0, 0, 0], gm := none }] }

/-- Lengths at both ends, a bad check sequence, an EtherType of no part, and a sampled-value frame. -/
theorem wit_FramesArrive :
    (pstateOf sSubOn = 0 ∧ laneMode sSubOn 0 ≠ 0 ∧ laneMode sSubOn 15 ≠ 0 ∧ ((∀ g < 16, gridEn sSubOn g = false))
      ∧ ingressWithin (laneCnt 0 1 sSubOn) = true ∧ ingressWithin (laneCnt 0 1 sOver) = false)
    ∧ ((laneMode sOver 0 ≠ 0 ∧ pstateOf sOver = 0) ∧ ((∀ g < 16, gridEn sOver g = false))
      ∧ (List.replicate 59 (0 : Byte)).length + 4 < 64 ∧ 64 ≤ svFrame.bytes.length + 4 ∧ pairMode sSubOn (0 / 2) = 0
      ∧ etherAt (List.replicate 60 (0 : Byte)) 12 ∉ [0x8100, 0x88BA, 0x88B8, 0x88FB, 0x88F7])
    ∧ udpPtp 12 (List.replicate 60 (0 : Byte)) = false ∧ etherAt svFrame.bytes 12 = 0x88BA
      ∧ svParse (macAt svFrame.bytes 0) (svFrame.bytes.drop 14) = some svRead
      ∧ (enabledSubs (laneCnt 0 5 (laneCnt 0 1 sSubOn))).find? (subMatches (laneCnt 0 5 (laneCnt 0 1 sSubOn)) svRead) = some 8191
      ∧ (reg (laneCnt 0 5 (laneCnt 0 1 sSubOn)) (subBase 8191 + 0x18)).getLsbD 0 = true :=
  ⟨by decide +kernel, by decide +kernel, by decide +kernel⟩

def plane0 : Plane :=
  { p := 0xFFFFFFFF, tg := 0, rbase := 0x40000000, hbase := 0x40001000, dl := 250, ctol := 10, dbl := 0, dbn := 0, done := [0], ngood := 1,
    nsub := 0, ninv := 0, wfail := false, gap := false, sim := false }
def sPlane : State :=
  { ingWords true with dev := 1, time := { now := 250 * 1000 * 2 ^ 32, dur := 250 * 1000 * 2 ^ 32 }, grids := [(0, { planes := [plane0], next := 4800 })] }
def dup0 : DupEntry := { mac := 0xFFFFFFFFFFFF, seq := 65535, lane := 1, made := 0, seen := false }
def sDup : State := { State.reset with dups := [(7, [dup0])], time := { dur := 400 * (1000000 * 2 ^ 32) } }
def sSupv : State :=
  setReg ingBase 9 { State.reset with
    objs := [(okey 0x3000 1, [1]), (okey 0x3001 1, [1])], supvAt := [(0, 0)], time := { dur := 2 * (1000000000 * 2 ^ 32) } }
def sLost : State :=
  { sSubOn with time := { now := 10 ^ 9 * 2 ^ 32, dur := 10 ^ 9 * 2 ^ 32 }, subs := [(8191, { lastFrm := some 0 })] }

/-- A plane just at its deadline, an entry just at the end of its life, a pair 2 s after its last frames, and a silent stream. -/
theorem wit_IngressTimes :
    (gridEn sPlane 0 = true ∧ (gridSt sPlane 0).planes = [plane0] ∧ inService sPlane = true
      ∧ planeEnd plane0 ≤ time16 sPlane ∧ planeHeld sPlane 0 plane0 = false
      ∧ (time16 sPlane : Int) < instant sPlane 0 (gridSt sPlane 0).next)
    ∧ (dupsOf sDup 7 = [dup0]
      ∧ dup0.made + (reg sDup (ingBase + 8)).toNat % 2 ^ 10 * (1000000 * 2 ^ 32) ≤ sDup.time.dur
      ∧ (reg sSupv ingBase).getLsbD (4 * 0 + 3) = true ∧ tblFind sSupv.supvAt 0 = some 0
      ∧ 0 + 2 * (1000000000 * 2 ^ 32) ≤ sSupv.time.dur ∧ (laneMode sSupv 0 ≠ 0 ∧ laneMode sSupv 1 ≠ 0))
    ∧ subEn sLost 8191 = true ∧ streamState sLost 8191 = 2 ∧ (subSt sLost 8191).lastFrm = some 0
      ∧ 0 + lostAfter sLost 8191 * 2 ^ 16 ≤ sLost.time.dur ∧ gridEn sLost (subGrid sLost 8191) = false :=
  ⟨by decide +kernel, by decide +kernel, by decide +kernel⟩

/-! ## Trips, GOOSE and inputs -/

/-- Bytes of a trip object: rule 0, mode 1, output 0, tpulse 1 ms; voter 0 alone. -/
def tripBytes : List Byte := [4, 0, 1, 0, 0, 0, 0, 0, 0, 0, 0, 0, 1, 0] ++ List.replicate 50 0 ++ [1]
def sTw (o : Option TripObj) : State :=
  openGate 0 (setReg tripBlock 0x40000000 (setReg (tripBlock + 8) 0x40000000
    { State.reset with mem := memWrite 0x40001F00 tripBytes [], trip := { objs := (match o with | some o => [(31, o)] | none => []) } }))
/-- Bytes of a publication: one octet of data in one entry, 2 ms to 1 s, names of one octet. -/
def pubBytes : List Byte :=
  List.replicate 16 0 ++ [1, 0, 1, 0, 1, 0, 0, 0, 0xD0, 7, 0, 0, 0xE8, 3, 0, 0, 1, 1, 1]
def sPubE : State :=
  openGate 0 (setReg (tripBlock + 8) 0x40000000 { State.reset with mem := memWrite 0x4000F800 pubBytes [] })

theorem wit_TripWords :
    (∀ x ∈ ([(tripBlock, State.reset), ((tripBlock + 0x10), (sTw none)), ((tripBlock + 0x10), (sTw (some (tobj 0 1 false)))),
      ((tripBlock + 0x10), sPubE)] : List (Nat × State)), lands 0 x.1 x.2)
    ∧ (serves 0 (sTw none) ∧ State.reset.trip.objs = [] ∧ tripBase (sTw none) ≠ 0 ∧ tripObj (sTw none) 31 = none
      ∧ inRam (tripBase (sTw none) + 256 * 31) 256
      ∧ rangeCheck (sTw none) 0x120 (tripBase (sTw none) + 256 * 31) 256 .read = none)
    ∧ (rangeErr { sTw none with busLost := [] } false (tripBase (sTw none) + 256 * 31) 256 = false
      ∧ rangeWaits (sTw none) 0x120 (tripBase (sTw none) + 256 * 31) 256 = false
      ∧ tripBad (memRead (sTw none).mem (tripBase (sTw none) + 256 * 31) 256) = false
      ∧ (memRead (sTw none).mem (tripBase (sTw none) + 256 * 31) 256).getD 5 0 = 0
      ∧ tripObj (sTw (some (tobj 0 1 false))) 31 = some (tobj 0 1 false)
      ∧ tripObj (sTw (some (tobj 0 2 true))) 31 = some (tobj 0 2 true))
    ∧ ((tobj 0 2 true).lmode ≠ 0 ∧ pubBase (sTw none) ≠ 0 ∧ pubBase sPubE + 2048 * 31 = 0x4000F800
      ∧ pubOf sPubE 31 = none ∧ inRam 0x4000F800 2048 ∧ rangeCheck sPubE 0x120 0x4000F800 2048 .read = none)
    ∧ rangeErr { sPubE with busLost := [] } false 0x4000F800 2048 = false
      ∧ rangeWaits sPubE 0x120 0x4000F800 2048 = false ∧ pubBad (memRead sPubE.mem 0x4000F800 2048) = false
      ∧ pubSplits sPubE (pubRead (memRead sPubE.mem 0x4000F800 2048) (utcTime sPubE) sPubE.time.dur) = false
      ∧ pubLargest sPubE (pubRead (memRead sPubE.mem 0x4000F800 2048) (utcTime sPubE) sPubE.time.dur) ≤ 1528
      ∧ inService sPubE = false :=
  ⟨all_land (by decide +kernel), by unfold inRam; decide +kernel, by decide +kernel, by unfold inRam; decide +kernel, by decide +kernel⟩

def pub0 : Pub :=
  { dmac := 1, vid := 0, pcp := 4, vtag := false, appid := 1, ed := 1, sim := false, ndscom := false, confrev := 1, lanes := 1, dlen := 0, nent := 0,
    tmin := 2, t0 := 1000, gocbref := [0x41], datset := [0x42], goid := [0x43], st := 1, sq := 0xFFFFFFFF, t := List.replicate 8 0, due := 0, iv := 2000 }
def sTt (o : TripObj) : State := { State.reset with dev := 1, trip := { objs := [(4095, o)], pubs := [(1023, pub0)] } }
def sGt : State := setReg (gsubBase 2047) (2 ^ 48) { State.reset with gtimer := [(2047, 0)] }
def sGc : State := setReg (gsubBase 2047 + 8) (1 * 2 ^ 48) (setReg (gsubBase 2047 + 0x80) 0x41 State.reset)
/-- Input 31 with a filter of 1 ms and an event on its rise, high since time 0. -/
def sBin : State :=
  setReg (binBlock + 0x1F8) 1000 <| setReg (binBlock + 0x18) (2 ^ 31) <| setReg (binBlock + 0x10) (2 ^ 18) { State.reset with time := { now := 1000000000 * 2 ^ 32, dur := 1000000000 * 2 ^ 32 }, bins := [(0, { supp := some 0 })] }

theorem wit_TripTimes :
    (∀ x ∈ ([((gsubBase 2047), sGc), ((toutBlock + 8), State.reset)] : List (Nat × State)), lands 0 x.1 x.2)
    ∧ (pstateOf (sTt (tobj 0 0 true)) = 0 ∧ tripObj (sTt (tobj 0 0 true)) 4095 = some (tobj 0 0 true)
      ∧ (tobj 0 0 true).since + (tobj 0 0 true).tpulse * (1000000 * 2 ^ 32) ≤ (sTt (tobj 0 0 true)).time.dur
      ∧ pubOf (sTt (tobj 0 0 true)) 1023 = some pub0 ∧ inService (sTt (tobj 0 0 true)) = true
      ∧ pub0.due ≤ (sTt (tobj 0 0 true)).time.dur)
    ∧ (tblFind sGt.gtimer 2047 = some 0 ∧ gsubEn sGt 2047 = true ∧ gsubEn sGc 2047 = false
      ∧ gsubBad (setReg (gsubBase 2047) (2 ^ 48) sGc) 2047 = false
      ∧ ((∀ m ∈ enabledGsubs sGc, m ≠ 2047 → gsubKey (setReg (gsubBase 2047) (2 ^ 48) sGc) m ≠ gsubKey (setReg (gsubBase 2047) (2 ^ 48) sGc) 2047))
      ∧ (reg sBin binBlock).getLsbD 31 = !true)
    ∧ ((binOf sBin 31).supp = none
      ∧ stampDur sBin 0 + (reg sBin (binBlock + 0x100 + 8 * 31)).toNat % 2 ^ 16 * (1000 * 2 ^ 32) ≤ sBin.time.dur
      ∧ sBin.time.dur < stampDur sBin (10 ^ 9 * 2 ^ 16) + (reg sBin (binBlock + 0x100 + 8 * 31)).toNat % 2 ^ 16 * (1000 * 2 ^ 32)
      ∧ 999999 * 2 ^ 32 < (reg sBin (binBlock + 0x100 + 8 * 31)).toNat % 2 ^ 16 * (1000 * 2 ^ 32)
      ∧ (reg sBin (binBlock + 0x10)).getLsbD 18 = true ∧ (reg sBin (binBlock + 0x18)).getLsbD 31 = true)
    ∧ (binOf sBin 0).supp = some 0 ∧ 0 + 1000000000 * 2 ^ 32 ≤ sBin.time.dur
      ∧ (binRecent sBin (binOf sBin 0)).length ≤ binChat sBin 0 :=
  ⟨all_land (by decide +kernel), by decide +kernel, by decide +kernel, by decide +kernel, by decide +kernel⟩

/-! ## Time -/

def sTs (src : W) (t : TimeSt) (ir : IrigSt := {}) : State :=
  setReg partTime (src * 32) (setReg irigBlock 1 { State.reset with time := t, irig := ir })

theorem wit_TimeSources :
    (∀ x ∈ ([((partTime + 0x40), State.reset), ((partTime + 0x40), (sTs 2 { state := 2, held := true }))] : List (Nat × State)), lands 0 x.1 x.2)
    ∧ (asrc (sTs 2 { state := 2, held := true }) = 2 ∧ srcValid (sTs 2 { state := 2, held := true }) 2 = false
      ∧ ((∀ j ∈ srcList (sTs 2 { state := 2, held := true }), srcValid (sTs 2 { state := 2, held := true }) j = false))
      ∧ (0 : Nat) + (reg (sTs 0 { state := 3, dur := 600 * (1000000000 * 2 ^ 32) }) (partTime + 0x28)).toNat % 2 ^ 32 * (1000000000 * 2 ^ 32) ≤ (sTs 0 { state := 3, dur := 600 * (1000000000 * 2 ^ 32) }).time.dur
      ∧ 2 ∈ (srcList (sTs 3 { since := [(2, 0)], dur := 10 * (1000000000 * 2 ^ 32) } { good := 3, last := some 0, seen := 10 * (1000000000 * 2 ^ 32) })).takeWhile (fun j => j != asrc (sTs 3 { since := [(2, 0)], dur := 10 * (1000000000 * 2 ^ 32) } { good := 3, last := some 0, seen := 10 * (1000000000 * 2 ^ 32) }))
      ∧ srcValid (sTs 3 { since := [(2, 0)], dur := 10 * (1000000000 * 2 ^ 32) } { good := 3, last := some 0, seen := 10 * (1000000000 * 2 ^ 32) }) 2 = true)
    ∧ asrc (sTs 3 { since := [(2, 0)], dur := 10 * (1000000000 * 2 ^ 32) } { good := 3, last := some 0, seen := 10 * (1000000000 * 2 ^ 32) }) ≠ 0
      ∧ State.reset.time.state = 0 ∧ (sTs 2 { state := 2, held := true }).time.state ≠ 0 :=
  ⟨all_land (by decide +kernel), by decide +kernel, by decide +kernel⟩

/-- Port 15 with a word, a state, its messages, and its lane on, as one of a pair of a mode when asked for. -/
def sPtp (w : W) (st : W) (pm : W := 0) (x : PtpPort := { sent := [(0xB, 0), (0, 0), (2, 0)] }) : State :=
  setReg ingBase (pm * 2 ^ 28) <| setReg (ptpBase 15) w <| setReg (ptpBase 15 + 0x10) st
    { State.reset with objs := [(okey 0x300E 1, [1]), (okey 0x300F 1, [1])], ptp := [(15, x)],
                       time := { now := 3000000000 * 2 ^ 32, dur := 3000000000 * 2 ^ 32 } }
def sPtpOld : PtpPort := { anns := [([1], 0)], annAt := 0 }

/-- A write of a profile with tags, three refused ones, both kinds of Sync, an untagged and a tagged port, a ring, and a port whose master has been silent. -/
theorem wit_PtpPorts :
    lands 0 (ptpBase 15) (sPtp 0x41 6)
    ∧ (pstateOf (sPtp 0x41 6) = 0
      ∧ ((0x8C : W).toNat % 8 < 5 ∧ (0x8C : W).toNat / 8 % 4 ≠ 3 ∧ (0x8C : W).getLsbD 7 = true) ∧ 5 ≤ (5 : W).toNat % 8
      ∧ (0x18 : W).toNat / 8 % 4 = 3 ∧ ((0x9 : W).toNat / 8 % 4 = 1 ∧ (0x9 : W).getLsbD 7 = false)
      ∧ (1 ≤ ptpRole (sPtp 0x41 6) 15 ∧ ptpRole (sPtp 0x41 6) 15 ≤ 3 ∧ pstate (sPtp 0x41 6) 15 = 6))
    ∧ ((tblFind (ptpOf (sPtp 0x41 6) 15).sent 0xB = some 0 ∧ tblFind (ptpOf (sPtp 0x41 6) 15).sent 0 = some 0 ∧ 0 + 1000000000 * 2 ^ 32 ≤ (sPtp 0x41 6).time.dur)
      ∧ (laneMode (sPtp 0x41 6) 15 ≠ 0 ∧ pairMode (sPtp 0x41 6) (15 / 2) ≠ 2)
      ∧ (reg (sPtp 0x41 6) (ptpBase 15)).getLsbD 6 = true
      ∧ ((reg (sPtp 0x83 6) (ptpBase 15)).getLsbD 6 = false ∧ (reg (sPtp 0x83 6) (ptpBase 15)).getLsbD 7 = true)
      ∧ (ptpRole (sPtp 0x83 6) 15 = 3 ∧ pstate (sPtp 0x83 6) 15 = 6 ∧ laneMode (sPtp 0x83 6) 15 ≠ 0)
      ∧ (pairMode (sPtp 0x83 6 2) (15 / 2) = 2 ∧ laneMode (sPtp 0x83 6 2) 14 ≠ 0 ∧ laneMode (sPtp 0x83 6 2) 15 ≠ 0))
    ∧ (1 ≤ ptpRole (sPtp 0x41 9 0 sPtpOld) 15 ∧ pstate (sPtp 0x41 9 0 sPtpOld) 15 ≠ 6)
      ∧ (ptpOf (sPtp 0x41 9 0 sPtpOld) 15).annAt + 3 * (1000000000 * 2 ^ 32) ≤ (sPtp 0x41 9 0 sPtpOld).time.dur
      ∧ ((∀ m < 16, m ≠ 15 → (ptpOf (sPtp 0x41 9 0 sPtpOld) m).anns = []) ∧ (∀ a ∈ (ptpOf (sPtp 0x41 9 0 sPtpOld) 15).anns, a.2 + 3 * (1000000000 * 2 ^ 32) ≤ (sPtp 0x41 9 0 sPtpOld).time.dur)) :=
  ⟨lands_of (by decide +kernel), by decide +kernel, by decide +kernel, by decide +kernel⟩

/-- 1 January 2026, 00:00:00, in format B004. -/
def irigF (code : Nat) : IrigFrame := ⟨code, 0, 26, 1, 0, true, 0, none, 0, 0⟩
def sIrig : State :=
  setReg irigBlock 9 (setReg (irigBlock + 0x18) 3 (setReg (irigBlock + 0x10) 1 (setReg (irigBlock + 0x20) 1
    { State.reset with dev := 1 })))

theorem wit_IrigAndPps :
    (((reg sIrig irigBlock).getLsbD 0 = true ∧ (reg sIrig irigBlock).getLsbD 4 = false)
      ∧ (irigF 5).code ≠ (reg sIrig irigBlock).toNat / 2 % 8 ∧ (irigF 4).code = (reg sIrig irigBlock).toNat / 2 % 8
      ∧ irigTai sIrig (irigF 4) = some 1767225637
      ∧ ((reg sIrig (irigBlock + 0x18)).getLsbD 0 = true ∧ (reg sIrig (irigBlock + 0x18)).getLsbD 1 = !false ∧ tlock sIrig = false ∧ sIrig.pps.last = none ∧ sIrig.pps.good = 0)
      ∧ ((reg sIrig (irigBlock + 0x10)).getLsbD 0 = true ∧ (reg sIrig (irigBlock + 0x10)).getLsbD 4 = false))
    ∧ inService sIrig = true ∧ sIrig.outs.irig ≠ some (sIrig.time.now / (1000000000 * 2 ^ 32))
      ∧ ((reg sIrig (irigBlock + 0x20)).getLsbD 0 = true ∧ sIrig.outs.fall = none ∧ reg sIrig (irigBlock + 0x28) = 0)
      ∧ sIrig.outs.pps ≠ some ((sIrig.time.now / (1000000000 * 2 ^ 32) : Nat) : Int)
      ∧ ((reg (setReg (irigBlock + 0x10) 0x11 sIrig) (irigBlock + 0x10)).getLsbD 4 = true ∧ (reg (setReg (irigBlock + 0x10) 0x11 sIrig) (irigBlock + 0x10)).getLsbD 0 = true)
      ∧ ({ State.reset with outs := { fall := some 0 } }).outs.fall = some 0 :=
  ⟨by decide +kernel, by decide +kernel⟩

/-! ## DMA, links and SHA-256 -/

/-- A descriptor in the command queue of engine 1 of region 0: 64 bytes from the store of cell 0.0.00 to the next 64. -/
def dmaMsg0 : List Byte :=
  capBytes (capAll 0x40000000 0) ++ capBytes (capAll 0x40000040 0) ++ capBytes (capAll 0x40 4) ++ leBytes 4 64 ++ leBytes 4 0 ++ leBytes 8 9
    ++ List.replicate 64 0
def qDma : QDesc :=
  { q := 0x3FF81, ws := [BitVec.ofNat 64 (0x40002000 + 3 * 2 ^ 53 + 2 ^ 56), 2 ^ 32, 0, 0, 0, 0, 0, 0], stuck := false }
def sDmaQ : State :=
  openGate 0 { State.reset with qReady := true, qcache := [(0, [qDma])],
                                mem := memWrite 0x40002080 [0x80] (memWrite 0x40002000 dmaMsg0 []), tags := [0x4000200, 0x4000201, 0x4000202] }
def sDmaJ : State :=
  openGate 0 { State.reset with qReady := true, dma := [(7, dmaJobOf dmaMsg0 [true, true, true])] }
def isTaken (r : Option (List Byte × List Bool) × State) : Bool := r.1.isSome
theorem taken_of {r : Option (List Byte × List Bool) × State} (h : isTaken r = true) : ∃ msg tags u, r = (some (msg, tags), u) := by
  obtain ⟨o, u⟩ := r
  cases o with
  | none => cases h
  | some p => exact ⟨p.1, p.2, u, rfl⟩

theorem wit_DmaTakes :
    (∃ msg tags u, qTakeDma 0 (0x3FF80 + 2 * 0 + 1) .none sDmaQ = (some (msg, tags), u))
    ∧ qPathsWait sDmaQ 0 (0x3FF80 + 2 * 0 + 1) (retryParts sDmaQ (0x3FF80 + 2 * 0 + 1)) = false ∧ pstateOf sDmaQ = 0
      ∧ tblFind sDmaQ.dma (2 * 0 + 1) = none :=
  ⟨taken_of (by decide +kernel), by decide +kernel⟩

theorem wit_DmaCompletes :
    (∀ x ∈ ([(sDmaJ, (0x130 + 2 * 3 + 1), 0x40000000, 64, .read), (sDmaJ, (0x130 + 2 * 3 + 1), 0x40000040, 64, .write)] : List (State × Nat × Nat × Nat × Rq)), ∃ g, gateCheck x.1 x.2.1 x.2.2.1 x.2.2.2.1 x.2.2.2.2 = .ok g)
    ∧ (sDmaJ.memWf = true ∧ pstateOf sDmaJ = 0
      ∧ dmaWaits (0x130 + 2 * 3 + 1) (dmaJobOf dmaMsg0 [true, true, true]) sDmaJ = false
      ∧ tblFind sDmaJ.dma (2 * 3 + 1) = some (dmaJobOf dmaMsg0 [true, true, true])
      ∧ ((dmaJobOf dmaMsg0 [true, true, true]).status = 0 ∧ (dmaJobOf dmaMsg0 [true, true, true]).cp = false ∧ (dmaJobOf dmaMsg0 [true, true, true]).len = 64)
      ∧ ((dmaJobOf dmaMsg0 [true, true, true]).src.addr.toNat = 0x40000000 ∧ (dmaJobOf dmaMsg0 [true, true, true]).dst.addr.toNat = 0x40000040))
    ∧ inRam 0x40000000 64 ∧ inRam 0x40000040 64
      ∧ (poisoned sDmaJ 0x40000000 = false ∧ poisoned sDmaJ 0x40000040 = false)
      ∧ (0x40000000 % 64 + 64 ≤ 64 ∧ 0x40000040 % 64 + 64 ≤ 64)
      ∧ dmaQueue sDmaJ (dmaJobOf dmaMsg0 [true, true, true]).cq = some 1 :=
  ⟨all_pass (by decide +kernel), by decide +kernel, by unfold inRam; decide +kernel⟩

def sLnk (l : Nat) (x : LinkSt) : State := { State.reset with links := [(l, x)], time := { dur := 100000 * 2 ^ 32 } }

/-- The thirty-second replay; a block's and a region's link that has been retraining for 100 us. -/
theorem wit_FabricEvents :
    (pstateOf (sLnk 25 { replays := List.replicate 31 0 }) = 0
      ∧ ((linkOf (sLnk 25 { replays := List.replicate 31 0 }) 25).failed = false ∧ (linkOf (sLnk 25 { replays := List.replicate 31 0 }) 25).training = none)
      ∧ 32 ≤ (((linkOf (sLnk 25 { replays := List.replicate 31 0 }) 25).replays ++ [(sLnk 25 { replays := List.replicate 31 0 }).time.dur]).filter (fun a => decide ((sLnk 25 { replays := List.replicate 31 0 }).time.dur < a + 1000000 * 2 ^ 32))).length
      ∧ (((linkOf (sLnk 25 { replays := List.replicate 30 0 }) 25).replays ++ [(sLnk 25 { replays := List.replicate 30 0 }).time.dur]).filter (fun a => decide ((sLnk 25 { replays := List.replicate 30 0 }).time.dur < a + 1000000 * 2 ^ 32))).length < 32
      ∧ (linkOf (sLnk 15 { training := some 0 }) 15).training = some 0
      ∧ 0 + 100000 * 2 ^ 32 ≤ (sLnk 15 { training := some 0 }).time.dur)
    ∧ (linkOf (sLnk 15 { training := some 1 }) 15).failed = false
      ∧ (sLnk 15 { training := some 1 }).time.dur < 1 + 100000 * 2 ^ 32
      ∧ (15 ∉ (sLnk 15 { training := some 0 }).offline ∧ (sLnk 15 { training := some 0 }).trip.late = [])
      ∧ ((∀ e ∈ (sLnk 15 { training := some 0 }).mon.comps, e.2.move = none))
      ∧ (sLnk 15 { training := some 1 }).trip.late = [] ∧ (linkOf (sLnk 19 { training := some 0 }) 19).training = some 0
      ∧ ((sLnk 19 { training := some 0 }).striped = false ∧ (sLnk 19 { training := some 0 }).fenced = none ∧ (sLnk 19 { training := some 0 }).trip.late = [])
      ∧ ((∀ e ∈ (sLnk 19 { training := some 0 }).mon.comps, e.2.move = none)) :=
  ⟨by decide +kernel, by decide +kernel⟩

/-- Lane 0 of engine 4 at work on 3 bytes at 0x40000000; lane 1 on a length that mode 1 does not take, lane 2 where nothing may be read. -/
def shaJ (len mode : Nat) (src : Nat := 0x40000000) : ShaJob := { src := src, len := len, mode := mode, tot := 0, dig := [] }
def sSha : State :=
  openGate 0 (setReg (0x60100000 + 0x1000 * 4 + 0x20) 1
    { State.reset with mem := memWrite 0x40000000 [0x61, 0x62, 0x63] [],
                       sha := [(32, shaJ 3 0), (33, shaJ 65 1), (34, shaJ 64 0 0x50000000)] })

theorem wit_ShaJobs :
    (∀ x ∈ ([((0x60100000 + 0x1000 * 15 + 0x100 * 7 + 0x10), State.reset), ((0x60100000 + 0x1000 * 4 + 0x10), sSha)] : List (Nat × State)), lands 0 x.1 x.2)
    ∧ ((reg State.reset (0x60100000 + 0x1000 * 15 + 0x100 * 7 + 0x20)).getLsbD 0 = false ∧ pstateOf sSha = 0
      ∧ (reg sSha (0x60100000 + 0x1000 * 4 + 0x20)).getLsbD 0 = true ∧ (3 : W).getLsbD 0 = true
      ∧ tblFind sSha.sha (8 * 4 + 0) = some (shaJ 3 0) ∧ (shaJ 3 0).mode = 0)
    ∧ inRam 0x40000000 3 ∧ sSha.caches.poison = [] ∧ rangeCheck sSha (0x100 + (4 - 4) / 3) 0x40000000 3 .read = none
      ∧ (rangeWaits sSha (0x100 + (4 - 4) / 3) 0x40000000 3 = false ∧ rangeWaits sSha (0x100 + (4 - 4) / 3) 0x50000000 64 = false)
      ∧ tblFind sSha.sha (8 * 4 + 1) = some (shaJ 65 1) ∧ (shaJ 65 1).len % 64 ≠ 0
      ∧ tblFind sSha.sha (8 * 4 + 2) = some (shaJ 64 0 0x50000000)
      ∧ (rangeCheck sSha (0x100 + (4 - 4) / 3) 0x50000000 64 .read).isSome = true :=
  ⟨all_land (by decide +kernel), by decide +kernel, by unfold inRam; decide +kernel⟩

/-- FIPS 180-4: the digest of "abc" begins BA 78 16 BF. -/
theorem test_sha_abc : (sha256 [0x61, 0x62, 0x63]).take 4 = [0xBA, 0x78, 0x16, 0xBF] := by decide +kernel

/-! ## Regulators and power states -/

def sReg (stat : W) (x : BlkSt) (v : VinSt := {}) : State :=
  setReg (regStat 15) stat { State.reset with blks := [(15, x)], vin := v }

/-- A lower level, a higher level, run from idle, idle. -/
theorem wit_RegulatorWords_levels :
    (∀ x ∈ ([((regAddr 15), (sReg 0xFFFF0040 { mv := 850 })), ((regAddr 15), (sReg 0xFFFF0043 {} { mv := 920 })),
      ((regAddr 15), (sReg 0xFFFF0053 {})), ((regAddr 15), (sReg 0xFFFF0043 {}))] : List (Nat × State)), lands 0 x.1 x.2)
    ∧ (regRefusal (sReg 0xFFFF0040 { mv := 850 }) 15 0xFFFF0003 = none
      ∧ ((blkOf (sReg 0xFFFF0040 { mv := 850 }) 15).phase = .none ∧ forced (sReg 0xFFFF0040 { mv := 850 }) 15 = false)
      ∧ (0xFFFF0003 : W).toNat / 2 ^ 16 % 2 ^ 16 = regF (sReg 0xFFFF0040 { mv := 850 }) (regStat 15) 31 16
      ∧ astOf (sReg 0xFFFF0040 { mv := 850 }) 15 = 0 ∧ alvl (sReg 0xFFFF0040 { mv := 850 }) 15 < 3
      ∧ levelMv 3 ≤ (blkOf (sReg 0xFFFF0040 { mv := 850 }) 15).mv)
    ∧ (regRefusal (sReg 0xFFFF0043 {} { mv := 920 }) 15 0xFFFF0000 = none
      ∧ ((blkOf (sReg 0xFFFF0043 {} { mv := 920 }) 15).phase = .none ∧ forced (sReg 0xFFFF0043 {} { mv := 920 }) 15 = false)
      ∧ (0xFFFF0000 : W).toNat / 2 ^ 16 % 2 ^ 16 = regF (sReg 0xFFFF0043 {} { mv := 920 }) (regStat 15) 31 16
      ∧ alvl (sReg 0xFFFF0043 {} { mv := 920 }) 15 = 3 ∧ (blkOf (sReg 0xFFFF0043 {} { mv := 920 }) 15).mv < levelMv 0
      ∧ vinOk (sReg 0xFFFF0043 {} { mv := 920 }) (levelMv 0) = true)
    ∧ (regRefusal (sReg 0xFFFF0053 {}) 15 0xFFFF0003 = none
      ∧ ((blkOf (sReg 0xFFFF0053 {}) 15).phase = .none ∧ forced (sReg 0xFFFF0053 {}) 15 = false)
      ∧ (0xFFFF0003 : W).toNat / 2 ^ 16 % 2 ^ 16 = regF (sReg 0xFFFF0053 {}) (regStat 15) 31 16
      ∧ astOf (sReg 0xFFFF0053 {}) 15 = 1 ∧ alvl (sReg 0xFFFF0053 {}) 15 = 3
      ∧ regRefusal (sReg 0xFFFF0043 {}) 15 0xFFFF0013 = none)
    ∧ ((blkOf (sReg 0xFFFF0043 {}) 15).phase = .none ∧ forced (sReg 0xFFFF0043 {}) 15 = false)
      ∧ (0xFFFF0013 : W).toNat / 2 ^ 16 % 2 ^ 16 = regF (sReg 0xFFFF0043 {}) (regStat 15) 31 16
      ∧ astOf (sReg 0xFFFF0043 {}) 15 = 0 :=
  ⟨all_land (by decide +kernel), by decide +kernel, by decide +kernel, by decide +kernel, by decide +kernel⟩

/-- Nap, off, run from nap, and cells powered and not. -/
theorem wit_RegulatorWords_states :
    (∀ x ∈ ([((regAddr 15), (sReg 0x43 {})), ((regAddr 15), (sReg 0x43 {})), ((regAddr 15), (sReg 0x63 {})),
      ((regAddr 15), (sReg 0x23 {})), ((blockBase 15 + 0x1028), State.reset)] : List (Nat × State)), lands 0 x.1 x.2)
    ∧ (regRefusal (sReg 0x43 {}) 15 0x23 = none
      ∧ ((blkOf (sReg 0x43 {}) 15).phase = .none ∧ forced (sReg 0x43 {}) 15 = false)
      ∧ (0x23 : W).toNat / 2 ^ 16 % 2 ^ 16 = regF (sReg 0x43 {}) (regStat 15) 31 16 ∧ astOf (sReg 0x43 {}) 15 < 2
      ∧ regRefusal (sReg 0x43 {}) 15 0x33 = none
      ∧ ((blkOf (sReg 0x43 {}) 15).phase = .none ∧ forced (sReg 0x43 {}) 15 = false))
    ∧ ((0x33 : W).toNat / 2 ^ 16 % 2 ^ 16 = regF (sReg 0x43 {}) (regStat 15) 31 16 ∧ astOf (sReg 0x43 {}) 15 ≠ 3
      ∧ regRefusal (sReg 0x63 {}) 15 0x3 = none
      ∧ ((blkOf (sReg 0x63 {}) 15).phase = .none ∧ forced (sReg 0x63 {}) 15 = false)
      ∧ (0x3 : W).toNat / 2 ^ 16 % 2 ^ 16 = regF (sReg 0x63 {}) (regStat 15) 31 16 ∧ 2 ≤ astOf (sReg 0x63 {}) 15)
    ∧ vinOk (sReg 0x63 {}) (levelMv 3) = true ∧ regRefusal (sReg 0xFFFF0043 {}) 15 0x80000003 = none
      ∧ astOf (sReg 0xFFFF0043 {}) 15 = 0 ∧ (reg (sReg 0xFFFF0043 {}) (regStat 15)).getLsbD 6 = true
      ∧ (regRefusal (sReg 0x23 {}) 15 0x10003 = none ∧ forced (sReg 0x23 {}) 15 = false ∧ (blkOf (sReg 0x23 {}) 15).phase = .none)
      ∧ ((reg (sReg 0x23 {}) (regStat 15)).getLsbD 6 = false ∧ (0x10003 : W).getLsbD 16 = true ∧ (reg (sReg 0x23 {}) (regStat 15)).getLsbD 16 = false) :=
  ⟨all_land (by decide +kernel), by decide +kernel, by decide +kernel, by decide +kernel⟩

def sBlkP (stat req : W) (p : RegPhase) (v : VinSt := {}) (mv : Nat := 680) (cool : Option Nat := none) : State :=
  setReg (regStat 15) stat (setReg (regAddr 15) req { State.reset with
    blks := [(15, { phase := p, mv := mv, cool := cool })], vin := v, time := { dur := 1000000 * 2 ^ 32 } })
def sRetry : State := sBlkP 0xFFFF00C3 0xFFFF0000 (.vin 0) { stuck := true }
def sLate : State := { sBlkP 0xFFFF00C3 0xFFFF0000 (.vin 0) { tgt := some 920 } with time := { dur := 2000000 * 2 ^ 32 } }
/-- No block waits for the input rail but for the level that its request asks for. -/
def retryB (s : State) : Bool :=
  (List.range 16).all (fun c => match (blkOf s c).phase with
    | .vin k => decide (lvlOf s c = k ∧ bstOf s c < 2)
    | .vinFull _ => false
    | _ => true)
theorem retry_of {s : State} (h : retryB s = true) : (∀ c < 16, ∀ k, (blkOf s c).phase ≠ .vinFull k)
    ∧ (∀ c < 16, ∀ k, (blkOf s c).phase = .vin k → lvlOf s c = k ∧ bstOf s c < 2) := by
  have h := fun c (hc : c < 16) => List.all_eq_true.mp h c (List.mem_range.mpr hc)
  refine ⟨fun c hc k e => ?_, fun c hc k e => ?_⟩
  · have h := h c hc
    rw [e] at h
    cases h
  · have h := h c hc
    rw [e] at h
    exact of_decide_eq_true h

theorem wit_RegulatorEvents_levels :
    ((∀ c < 16, ∀ k, (blkOf sRetry c).phase ≠ .vinFull k) ∧ (∀ c < 16, ∀ k, (blkOf sRetry c).phase = .vin k → lvlOf sRetry c = k ∧ bstOf sRetry c < 2))
    ∧ (((blkOf (sBlkP 0xFFFF00C3 0xFFFF0000 (.divUp 0) {} 850) 15).phase = .divUp 0 ∧ lvlOf (sBlkP 0xFFFF00C3 0xFFFF0000 (.divUp 0) {} 850) 15 = 0 ∧ bstOf (sBlkP 0xFFFF00C3 0xFFFF0000 (.divUp 0) {} 850) 15 = astOf (sBlkP 0xFFFF00C3 0xFFFF0000 (.divUp 0) {} 850) 15)
      ∧ (blkOf (sBlkP 0xFFFF00C0 0xFFFF0003 (.divDown 3) {} 850) 15).phase = .divDown 3
      ∧ (blkOf (sBlkP 0xFFFF00C3 0xFFFF0000 (.slewUp 0)) 15).phase = .slewUp 0
      ∧ ((blkOf (sBlkP 0xFFFF00C3 0xFFFF0003 (.slewDown 3) {} 850) 15).phase = .slewDown 3 ∧ alvl (sBlkP 0xFFFF00C3 0xFFFF0003 (.slewDown 3) {} 850) 15 = 3 ∧ lvlOf (sBlkP 0xFFFF00C3 0xFFFF0003 (.slewDown 3) {} 850) 15 = 3 ∧ bstOf (sBlkP 0xFFFF00C3 0xFFFF0003 (.slewDown 3) {} 850) 15 = astOf (sBlkP 0xFFFF00C3 0xFFFF0003 (.slewDown 3) {} 850) 15)
      ∧ (sBlkP 0xFFFF00C3 0xFFFF0000 (.vin 0) { tgt := some 920 }).vin.tgt = some 920
      ∧ ((935 : BitVec 16).toNat ≤ 920 + 15 ∧ 920 ≤ (935 : BitVec 16).toNat + 15))
    ∧ ((blkOf (sBlkP 0xFFFF00C3 0xFFFF0000 (.vin 0) { tgt := some 920 }) 15).phase = .vin 0 ∧ levelMv 0 + 70 ≤ 920)
      ∧ (sRetry.vin.stuck = true ∧ sRetry.vin.tgt = none) ∧ vinTarget sRetry ≠ sRetry.vin.mv
      ∧ sRetry.vin.since + 1000000 * 2 ^ 32 ≤ sRetry.time.dur
      ∧ (sBlkP 0xFFFF00C3 0xFFFF0000 (.vin 0) { tgt := some 920 }).time.dur ≤ (sBlkP 0xFFFF00C3 0xFFFF0000 (.vin 0) { tgt := some 920 }).vin.since + 2000000 * 2 ^ 32
      ∧ (sLate.vin.tgt = some 920 ∧ sLate.vin.since + 2000000 * 2 ^ 32 ≤ sLate.time.dur) :=
  ⟨retry_of (by decide +kernel), by decide +kernel, by decide +kernel⟩

theorem wit_RegulatorEvents_states :
    (((blkOf (sBlkP 0x63 0x3 (.full 3)) 15).phase = .full (lvlOf (sBlkP 0x63 0x3 (.full 3)) 15) ∧ bstOf (sBlkP 0x63 0x3 (.full 3)) 15 = 0 ∧ forced (sBlkP 0x63 0x3 (.full 3)) 15 = false)
      ∧ ((blkOf (sBlkP 0xC3 0x23 .nap) 15).phase = .nap ∧ bstOf (sBlkP 0xC3 0x23 .nap) 15 = 2)
      ∧ (1100 : BitVec 16).toInt = 1100
      ∧ (forced (sReg 0xFFFF0040 { mv := 850 }) 15 = false ∧ astOf (sReg 0xFFFF0040 { mv := 850 }) 15 < 2 ∧ alvl (sReg 0xFFFF0040 { mv := 850 }) 15 < 3 ∧ (blkOf (sReg 0xFFFF0040 { mv := 850 }) 15).phase = .none)
      ∧ ((blkOf (sBlkP 0xFFFF00C4 0xFFFF0000 (.divDown 3) {} 850 (some 0)) 15).cool = some 0 ∧ forced (sBlkP 0xFFFF00C4 0xFFFF0000 (.divDown 3) {} 850 (some 0)) 15 = true)
      ∧ 0 + 1000000 * 2 ^ 32 ≤ (sBlkP 0xFFFF00C4 0xFFFF0000 (.divDown 3) {} 850 (some 0)).time.dur)
    ∧ (astOf (sBlkP 0x23 0x23 .none) 15 = 2 ∧ (reg (sBlkP 0x23 0x23 .none) (regStat 15)).getLsbD 6 = false ∧ blocksSupplied (sBlkP 0x23 0x23 .none) = true)
      ∧ (pstateOf (sReg 0xFFFF0040 { mv := 850 }) = 0 ∧ blocksSupplied (sReg 0xFFFF0043 {}) = true)
      ∧ (549 : BitVec 16).toNat < 550 ∧ astOf (sReg 0xFFFF0043 {}) 15 ≠ 3 :=
  ⟨by decide +kernel, by decide +kernel⟩

/-- A session of class 1 on CAN controller 0; the power controller's word; the chip; more words. -/
def sPw (pc : W) (ch : ChipSt := {}) (dev : Nat := 1) (regs : List (Nat × W) := []) (t : TimeSt := {}) : State :=
  setReg pcBase pc (regs.foldl (fun s e => setReg e.1 e.2 s)
    { State.reset with dev := dev, chip := ch, time := t,
                       dl := { sess := [(8, { carrier := .can false, cls := 1, epoch := 1, heard := 0 })] } })

theorem wit_PowerStates_enter :
    ((sessOf (sPw 0) 8).map (fun x => x.cls) = some 1 ∧ carrierLive (sPw 0) (.can false) = true
      ∧ pstateOf (sPw 0) = 0 ∧ ((sPw 0).chip.aux = true ∧ (sPw 0).dev < 4) ∧ pstateOf (sPw 1) = 1
      ∧ carrierLive (sPw 1) (.can false) = true)
    ∧ ((sPw 1).chip.mains = true ∧ (sPw 1).chip.retry = none ∧ (sPw 1).chip.thermal = false)
      ∧ pstateOf (sPw 2 { ref := 1000000000 * 2 ^ 32 } 1 [(pcBase + 0x10, 3), (pcBase + 0x18, 1)]) = 2
      ∧ (reg (sPw 2 { ref := 1000000000 * 2 ^ 32 } 1 [(pcBase + 0x10, 3), (pcBase + 0x18, 1)]) (pcBase + 0x10)).getLsbD 1 = true
      ∧ (reg (sPw 2 { ref := 1000000000 * 2 ^ 32 } 1 [(pcBase + 0x10, 3), (pcBase + 0x18, 1)]) (pcBase + 0x18)).toNat % 2 ^ 48 * 1000000 ≤ islandTime (sPw 2 { ref := 1000000000 * 2 ^ 32 } 1 [(pcBase + 0x10, 3), (pcBase + 0x18, 1)])
      ∧ (reg (sPw 1 {} 1 [(pcBase + 0x10, 4)]) (pcBase + 0x10)).getLsbD 2 = true :=
  ⟨by decide +kernel, by decide +kernel⟩

theorem wit_PowerStates_wake :
    ((pstateOf (sPw 0x103) = 3 ∧ regF (sPw 0x103) pcBase 11 8 = 1) ∧ regF (sPw 0x403) pcBase 11 8 = 4
      ∧ regF (sPw 0x603) pcBase 11 8 = 6
      ∧ (regF (sPw 0x133 { origin := 1 }) pcBase 6 4 < 4 ∧ (sPw 0x133 { origin := 1 }).chip.origin = 1)
      ∧ (pstateOf (sPw 0x143) = 3 ∧ 4 ≤ regF (sPw 0x143) pcBase 6 4)
      ∧ (sPw 0x11 { origin := 1, retry := some 0 } 1 [] { dur := 100 * (1000000 * 2 ^ 32) }).chip.retry = some 0)
    ∧ 0 + 100 * (1000000 * 2 ^ 32) ≤ (sPw 0x11 { origin := 1, retry := some 0 } 1 [] { dur := 100 * (1000000 * 2 ^ 32) }).time.dur
      ∧ regF (sPw 0x11 { origin := 1, retry := some 0 } 1 [] { dur := 100 * (1000000 * 2 ^ 32) }) pcBase 6 4 < 4
      ∧ (1150 : BitVec 16).toInt = 1150
      ∧ (pstateOf (sPw 2 { started := false }) = 2 ∧ (sPw 2 { started := false }).chip.started = false)
      ∧ (sPw 2 { aux := false }).chip.aux = false :=
  ⟨by decide +kernel, by decide +kernel⟩

/-! ## Placement, epochs, the twin and removal -/

/-- A manifest of 128 bytes: compartment 1023 with one thread of 1 ms and one object of a page, mirrored as `twin` says (R427). -/
def man (twin : Nat) (id : Nat := 1023) (bud : Nat := 100) (grp : Nat := 0) (pages : Nat := 1) : List Byte :=
  leBytes 4 (0x4D51 + 2 ^ 16) ++ leBytes 4 (id + twin * 2 ^ 16) ++ leBytes 4 (1 + 2 ^ 16) ++ leBytes 4 0 ++ leBytes 4 128 ++ List.replicate 44 0
    ++ leBytes 4 1000 ++ leBytes 4 1000 ++ leBytes 4 bud ++ leBytes 4 (0x200 + grp * 2 ^ 12) ++ List.replicate 16 0
    ++ leBytes 4 pages ++ leBytes 4 (15 * 4 + (if twin = 0 then 0 else 2 ^ 12)) ++ List.replicate 24 0
/-- A leaf of a page with every right, and the leaves of the object's page and the cocoon's in the lowest table. -/
def leafW (pa : Nat) : W := BitVec.ofNat 64 (3 + 7 * 4 + 256 + 12 * 512 + pa / 0x1000 * 2 ^ 24)
def maps (o c : Nat) : List (Nat × Nat × W) := [(0, 0x4000B008, leafW o), (0, 0x4000B040, leafW c)]
def plc (slot : Nat) : Placement :=
  { code := 0, asid := 255, seats := [⟨0, slot, 65535, 0x8000, 0x4000E000⟩], objs := [(0x1000, 0x40010000)], rings := [],
    writes := maps 0x40010000 0x4000E000, gates := [⟨0, 5, 0x40010000, 0x40010000, 7⟩] }
def comp (twin st : Nat) (move : Option Placement := none) (took : Bool := false) : Comp :=
  { man := man twin, asid := 1, state := st, thr := [{ seat := ⟨0, 2, 7, 0x8000, 0x40008000⟩, due := 1000000 * 2 ^ 32 }],
    objs := [(0x1000, 0x4000C000)], rings := [], move := move, took := took }
/-- Another place for it: in the same cell, and in cell 0.0.01. -/
def mv (slot : Nat) : Placement := { plc slot with asid := 1, seats := [⟨0, slot, 7, 0x8000, 0x4000E000⟩] }
def mv1 : Placement :=
  { code := 0, asid := 1, seats := [⟨1, 63, 7, 0x8000, 0x4002E000⟩], objs := [(0x1000, 0x40030000)], rings := [],
    writes := maps 0x40030000 0x4002E000, gates := [⟨1, 5, 0x40030000, 0x40030000, 7⟩] }
/-- Address spaces 1 and 255 in the four regions, with one tree of three levels. -/
def spaces (s : State) : State :=
  memStore 0x40009000 (leBytes 8 (1 + 0x4000A * 2 ^ 24)) <| memStore 0x4000A000 (leBytes 8 (1 + 0x4000B * 2 ^ 24)) <|
    (List.range 4).foldl (fun s r => memStore (0x48000000 + r * 0x800000 + 8) (leBytes 8 (1 + 0x40009 * 2 ^ 24))
      (memStore (0x48000000 + r * 0x800000 + 8 * 255) (leBytes 8 (1 + 0x40009 * 2 ^ 24)) s)) s
/-- A module with compartments, cell 0.0.00's first gate region over its first 64 KiB, and a session of a class; `st` is the state of its thread's slot. -/
def sMon (cs : Tbl Comp) (cls dev : Nat) (tw : TwinSt := {}) (dur : Nat := 1000000 * 2 ^ 32) (st : Nat := 3) : State :=
  { setReg (gateBlock 0 + 0x1008) 0x4000F000 (openGate 0 (openGate 0x11C (openGate 0x11D (core0 id (fun c => { c with slots := [(2, { state := st })] }))))) with
    dev := dev, mon := { comps := cs, auth := true }, twin := tw, time := { now := dur, dur := dur },
    dl := { sess := [(8, { carrier := .can false, cls := cls, epoch := 7, heard := 0 })] } }
/-- What a sender of class `cls` needs, as a Bool. -/
def writerB (n cls : Nat) (s : State) : Bool :=
  decide (pstateOf s = 0) && s.chip.aux
    && (match sessOf s n with | some x => carrierLive s x.carrier && decide (cls ≤ x.cls) | none => false)
/-- Every block but the first offline. -/
def off (s : State) : State := { s with offline := [1, 2, 3, 4, 5, 6, 7, 8, 9, 10, 11, 12, 13, 14, 15] }
/-- Compartment 1023 shares cell 0.0.00 with one of tenant 1 that needs 2,000,000 cycles of each ms, and a move of it to cell 0.0.01
has gained for seven epochs. -/
def sGain : State :=
  let s := sMon [(1022, { comp 0 1 with asid := 2, man := man 0 (1022 + 2 ^ 10) 2000000, thr := [{ seat := ⟨0, 3, 8, 0x8000, 0x40008400⟩ }] }),
                 (1023, { comp 0 1 with gain := some (mv1, 7, 0), thr := [{ seat := ⟨0, 2, 7, 0x8000, 0x40008000⟩, due := 10 ^ 7 * 2 ^ 32 }] })] 1 1 {}
             (2000000 * 2 ^ 32)
  off <| modCell 1 (fun c => { c with stopped := false }) <| setReg (gateBlock 1 + 0x1008) 0x4002F000 <| openGate 1 <| spaces { s with mon := { s.mon with epoch := 1 } }
def cGain : Comp := { comp 0 1 with gain := some (mv1, 7, 0), thr := [{ seat := ⟨0, 2, 7, 0x8000, 0x40008000⟩, due := 10 ^ 7 * 2 ^ 32 }] }
/-- A module with one compartment, and all blocks but its own offline. -/
def sOff : State := off (sMon [(1023, comp 0 1)] 1 1)
def vGain : State := (List.range 16).foldl thermalStep sGain
def uGain : State := { vGain with mon := { vGain.mon with taken := sGain.mon.wait.map (fun w => w.1) } }
def dGain : Comp := { cGain with gain := some (mv1, gainEpochs uGain cGain 1023 mv1, uGain.mon.epoch) }
def wGain : State := setComp 1023 dGain uGain
/-- A manifest with a grant for a voter of object 31, whose thread has no diversity group, and the object with two voters of two. -/
def manV : List Byte := (man 0).set 0xC 1 ++ leBytes 4 3 ++ leBytes 4 (31 * 4) ++ List.replicate 8 0
/-- The compartment in migration to a place. -/
def sMv (p : Placement) : State := spaces (sMon [(1023, comp 0 2 (some p))] 1 1)
def sVote : State := { sMon [] 1 0 with mon := { wait := [(1023, manV)], taken := [1023], auth := true }, trip := { objs := [(31, tobj 1 1 false)] } }
/-- One with a grant of queue 5, which is absent. -/
def manQ : List Byte := (man 0).set 0xC 1 ++ leBytes 4 2 ++ leBytes 4 5 ++ List.replicate 8 0
/-- A waiting manifest that an epoch has taken up. -/
def sWait (m : List Byte) (s : State := spaces (sMon [] 1 0)) : State := { s with mon := { wait := [(1023, m)], taken := [1023], auth := true } }
/-- The same with every region of the gate of cell 3.3.15 in use, with every cell out of service, and with cells that admit nothing. -/
def sFull64 : State :=
  sWait (man 0) ((List.range 64).foldl (fun s i => setReg (regionAt 255 i + 0x10) 1 s) (sMon [] 1 0))
theorem goes_of {f : State → State} {s : State} (h : (!s.waits && !(f s).waits) = true) : goes f s := by
  simp only [Bool.and_eq_true, Bool.not_eq_true'] at h
  exact h
theorem pair_goes {p : Partner} {s : State} {cid : Nat} {c : Comp} (hc : s.mon.comps = [(cid, c)])
    (h : (let u := { s with twin := { s.twin with state := 1, partner := some p } }
      !s.waits && !(goActive cid false false u).waits && !(goStandby cid u).waits) = true) : goes (pairForm p) s := by
  simp only [Bool.and_eq_true, Bool.not_eq_true'] at h
  obtain ⟨⟨a, b⟩, d⟩ := h
  refine ⟨a, ?_⟩
  unfold pairForm
  split
  · exact a
  · simp only [hc, List.foldl]
    split
    · exact a
    · split
      · exact b
      · exact d
/-- The parts of `epochOver` as a Bool. -/
def overB (s : State) : Bool :=
  decide (pstateOf s = 0) && s.mon.auth && decide (s.mon.start + (s.mon.epoch + 1) * (1000000 * 2 ^ 32) ≤ s.time.dur)
    && instLive s (coordinator s) && (List.range 16).all (fun b => !blockHot s b) && s.mon.prop.all (fun p => !p.ok)
    && s.mon.comps.all (fun e => decide (e.2.move = none) && !mustDecide s e.2
        && (e.2.state != 1 || (!slotLost s e.2 && e.2.thr.all (fun x => !waitsOut s x))))
    && (List.range 256).all (fun n => !(cellOf s n).stopped || !(reg s (recAddr (.cell n) + 0x30)).getLsbD 0)
theorem over_of {s : State} (h : overB s = true) : epochOver s := by
  simp only [overB, Bool.and_eq_true, decide_eq_true_eq, List.all_eq_true, Bool.not_eq_true', List.mem_range, Bool.or_eq_true,
    bne_iff_ne] at h
  obtain ⟨⟨⟨⟨⟨⟨⟨a, b⟩, c⟩, d⟩, e⟩, f⟩, g⟩, i⟩ := h
  refine ⟨⟨a, b⟩, c, d, e, fun p hp => ?_, fun x hx => ⟨(g x hx).1.1, (g x hx).1.2, fun h1 => ?_⟩, fun n hn hs => ?_⟩
  · rw [hp] at f
    simpa using f
  · rcases (g x hx).2 with h2 | h2
    · exact absurd h1 h2
    · exact h2
  · rcases i n hn with h2 | h2
    · rw [hs] at h2; cases h2
    · exact .inr (.inr (.inr h2))
theorem all_over {l : List State} (h : l.all overB = true) : ∀ s ∈ l, epochOver s :=
  fun s hs => over_of (List.all_eq_true.mp h s hs)
theorem all_writer {l : List (Nat × Nat × State)} (h : l.all (fun x => writerB x.1 x.2.1 x.2.2) = true) :
    ∀ x ∈ l, writer x.1 x.2.1 x.2.2 := by
  intro x hx
  have h := List.all_eq_true.mp h x hx
  simp only [writerB, Bool.and_eq_true, decide_eq_true_eq] at h
  obtain ⟨⟨a, b⟩, c⟩ := h
  split at c
  · rename_i y hy
    simp only [Bool.and_eq_true, decide_eq_true_eq] at c
    exact ⟨a, b, y, hy, c.1, c.2⟩
  · cases c

/-- The last slot of a cell, for the waiting manifest of compartment 1023. -/
def placed0 (u : State) : State := persist 10 (pairPlaced (mCid (man 0)) u (manifestPlaced (mCid (man 0)) (plc 63) u))

/-- A load that is queued, and two that are refused. -/
theorem wit_ManifestsPlace_load :
    (∀ x ∈ ([(8, 1, (sMon [] 1 0))] : List (Nat × Nat × State)), writer x.1 x.2.1 x.2.2)
    ∧ (man 0).length ≤ 2 ^ 24 ∧ jnlRoom (sMon [] 1 0) (man 0).length = true ∧ loadResult (sMon [] 1 0) (man 0) = none
      ∧ loadResult (sMon [] 1 0) (man 2) = some 0x08 ∧ loadResult (sMon [(1023, comp 0 1)] 1 2) (man 0) = some 0x02 :=
  ⟨all_writer (by decide +kernel), by decide +kernel⟩

/-- A placement on the last slot. -/
theorem wit_ManifestsPlace :
    (∀ x ∈ ([((sWait (man 0)), (0x100 + 0 / 64), (slotAt 0 63), 8, .write)] : List (State × Nat × Nat × Nat × Rq)), ∃ g, gateCheck x.1 x.2.1 x.2.2.1 x.2.2.2.1 x.2.2.2.2 = .ok g)
    ∧ ((pstateOf (sWait (man 0)) = 0 ∧ (sWait (man 0)).mon.auth = true)
      ∧ (mCid (man 0) = 1023 ∧ 1023 ∈ (sWait (man 0)).mon.taken ∧ (sWait (man 0)).mon.wait = [(1023, man 0)])
      ∧ manRec (sWait (man 0)) 1023 = none ∧ placeOk (sWait (man 0)) (man 0) false (plc 63) = true
      ∧ votersSplit (sWait (man 0)) (man 0) = false ∧ freezeOpen (sWait (man 0)) (man 0) 1023 (plc 63) = true)
    ∧ mNthr (man 0) ≤ 64 ∧ compOf (sWait (man 0)) 1023 = none ∧ mTwin (man 0) = 0 :=
  ⟨all_pass (by decide +kernel), by decide +kernel, by decide +kernel⟩

theorem wit_ManifestsPlace_goes :
    (monarchGoes (placed0) (sWait (man 0))) :=
  goes_of (by decide +kernel)

theorem wit_ManifestsPlace_pursues :
    pursues (sWait (man 0)) (man 0) (plc 63) (List.range (mNthr (man 0))) = true :=
  by decide +kernel

theorem wit_ManifestsPlace_unload :
    (∀ x ∈ ([(8, 1, (sMon [(1023, comp 0 1)] 1 2)),
      (8, 1, { sMon [] 1 3 with mon := { prop := some ⟨1, 2, 3, 4, 5, 0, false, none⟩ } })] : List (Nat × Nat × State)), writer x.1 x.2.1 x.2.2)
    ∧ (goes (unload 1023) (sMon [(1023, comp 0 1)] 1 2))
    ∧ compOf (sMon [(1023, comp 0 1)] 1 2) 1023 = some (comp 0 1) ∧ (sMon [(1023, comp 0 1)] 1 2).dict.pend = []
      ∧ (0 : Nat) + ({ sMon [] 1 3 {} (100 * (1000000 * 2 ^ 32)) with mon := { prop := some ⟨1, 2, 3, 4, 5, 0, false, none⟩ } }).mon.par.advto * (1000000 * 2 ^ 32) ≤ (sMon [] 1 3 {} (100 * (1000000 * 2 ^ 32))).time.dur :=
  ⟨all_writer (by decide +kernel), goes_of (by decide +kernel), by decide +kernel⟩

/-- Manifests that find no place: for admission, for the one region left, which holds their group, and for an object beyond the
stores; and a module of which region 0 alone is served, where compartment 5's thread of group 1 sits. -/
def manB : List Byte := man 0 1023 2000000
def manG : List Byte := man 0 1023 100 1
def manP : List Byte := man 0 1023 100 0 (2 ^ 21)
def sGrp : State :=
  { sWait manG with hubLost := [1, 2, 3], mon := { (sWait manG).mon with comps := [(5, { comp 0 1 with man := man 0 5 100 1 })] } }

/-- For its voters, for a queue that is absent, with no cell in service, with none that admits it, for diversity, for near objects, and with a gate whose regions are all in use. -/
theorem wit_ManifestsPlace_refused :
    ((votersSplit sVote manV = true ∧ mCid manV = 1023 ∧ sVote.mon.auth = true ∧ 1023 ∈ sVote.mon.taken)
      ∧ (votersSplit (sWait manQ) manQ = false ∧ grantsPresent (sWait manQ) manQ = false ∧ mCid manQ = 1023)
      ∧ (canSeat { sWait (man 0) with hubLost := [0, 1, 2, 3] } (man 0) {} = false ∧ heatBars { sWait (man 0) with hubLost := [0, 1, 2, 3] } (man 0) = false ∧ canSeat { sWait (man 0) with hubLost := [0, 1, 2, 3] } (man 0) { adm := false, div := false } = false)
      ∧ (canSeat (sWait manB) manB {} = false ∧ heatBars (sWait manB) manB = false ∧ canSeat (sWait manB) manB { adm := false } = true)
      ∧ (votersSplit (sWait manB) manB = false ∧ grantsPresent (sWait manB) manB = true ∧ mCid manB = 1023)
      ∧ (votersSplit sGrp manG = false ∧ grantsPresent sGrp manG = true ∧ mCid manG = 1023))
    ∧ (canSeat sGrp manG { adm := false } = false ∧ canSeat sGrp manG { adm := false, div := false } = true)
      ∧ (votersSplit (sWait manP) manP = false ∧ grantsPresent (sWait manP) manP = true ∧ mCid manP = 1023)
      ∧ canSeat (sWait manP) manP { adm := !heatBars (sWait manP) manP } = true ∧ hasPlace (sWait manP) manP = false
      ∧ freeRegion sFull64 255 = none ∧ (votersSplit sFull64 (man 0) = false ∧ grantsPresent sFull64 (man 0) = true) :=
  ⟨by decide +kernel, by decide +kernel⟩

/-- An epoch just over; a release. -/
theorem wit_EpochsPass :
    (∀ s ∈ [(sMon [(1023, comp 0 1)] 1 1), sOff], epochOver s)
    ∧ ((sMon [(1023, comp 0 1)] 1 1).twin.state ≠ 1 ∧ (sMon [(1023, comp 0 1)] 1 1).twin.rm ≠ 1 ∧ (sMon [(1023, comp 0 1)] 1 1).waits = false)
      ∧ ((∀ b < 16, levelTarget sOff b = lvlOf sOff b ∧ (blockThreads sOff b ≠ 0 ∨ b ∈ sOff.offline ∨ 2 ≤ bstOf sOff b)))
      ∧ (comp 0 1).thr[0]? = some { seat := ⟨0, 2, 7, 0x8000, 0x40008000⟩, due := 1000000 * 2 ^ 32 }
      ∧ tPeriod (man 0) 0 ≠ 0 ∧ 1000000 * 2 ^ 32 ≤ (sMon [(1023, comp 0 1)] 1 1 {} (1000000 * 2 ^ 32) 1).time.dur
      ∧ (slotOf (cellOf (sMon [(1023, comp 0 1)] 1 1 {} (1000000 * 2 ^ 32) 1) 0) 2).state = 1
      ∧ 3 ∉ (sMon [(1023, comp 0 1)] 1 1).hubLost
      ∧ (hottest [1099, 0x8000, 1099, 1099] < 1100 ∧ 1100 ≤ hottest [1100, 0, 0, 0] ∧ hottest [1149, 0, 0, 0] < 1150 ∧ 1150 ≤ hottest [0, 0, 0, 1150]) :=
  ⟨all_over (by decide +kernel), by decide +kernel⟩

/-- A migration in its window. -/
theorem wit_EpochsPass_gain :
    (∀ s ∈ [sGain], epochOver s)
    ∧ sGain.twin.state ≠ 1 ∧ compOf sGain 1023 = some cGain
      ∧ (cGain.state = 1 ∧ sGain.twin.rm = 0 ∧ 0 < sGain.mon.par.migmax ∧ sGain.mon.par.mode = 0)
      ∧ 8 ≤ gainEpochs uGain cGain 1023 mv1 ∧ windowOpen wGain dGain = true :=
  ⟨all_over (by decide +kernel), by decide +kernel⟩

theorem wit_EpochsPass_gain_place :
    freezeOpen wGain cGain.man 1023 mv1 = true ∧ placeOk wGain cGain.man false mv1 = true
      ∧ sameView dGain mv1 = true ∧ ((∀ x ∈ cGain.thr, instLive wGain (x.seat.cell / 64) = true))
      ∧ (freezeComp dGain wGain).1 = true
      ∧ (needsFreeze (tenantOf wGain (mTenant cGain.man)) mv1 = true ∧ tenantOthers wGain (mTenant cGain.man) 1023 = []) :=
  by decide +kernel

theorem wit_EpochsPass_gain_goes :
    (monarchGoes (epochEnd [.migrate 1023 mv1]) sGain) :=
  goes_of (by decide +kernel)

/-- Installed, and abandoned for its seat and for its source. -/
theorem wit_EpochsPass_moves :
    ((pstateOf (sMv (mv 63)) = 0 ∧ (sMv (mv 63)).mon.auth = true)
      ∧ compOf (sMv (mv 63)) 1023 = some (comp 0 2 (some (mv 63))) ∧ placeOk (sMv (mv 63)) (man 0) false (mv 63) = true
      ∧ sourceLost (sMv (mv 63)) (comp 0 2) = false
      ∧ (copyComp (comp 0 2 (some (mv 63))) (mv 63) (tenantGates (man 0) 1023 (mv 63) (sMv (mv 63)))).1 = true
      ∧ (comp 0 2 (some (mv 63))).thr.length = (mv 63).seats.length)
    ∧ tenantOthers (sMv (mv 63)) (mTenant (man 0)) 1023 = []
      ∧ compOf (sMv (mv 64)) 1023 = some (comp 0 2 (some (mv 64))) ∧ placeOk (sMv (mv 64)) (man 0) true (mv 64) = false
      ∧ tenantOthers (sMv (mv 64)) (mTenant (man 0)) 1023 = []
      ∧ (sourceLost ({ sMv (mv 63) with offline := [0] }) (comp 0 2) = true ∧ tenantOthers ({ sMv (mv 63) with offline := [0] }) (mTenant (man 0)) 1023 = []) :=
  ⟨by decide +kernel, by decide +kernel⟩

theorem wit_EpochsPass_moves_go :
    (monarchGoes (migrationInstall 1023) (sMv (mv 63)))
    ∧ (monarchGoes (migrationInstall 1023) (sMv (mv 64))) :=
  ⟨goes_of (by decide +kernel), goes_of (by decide +kernel)⟩

/-- A standby compartment as the pair forms, after 2 s alone, and 0.8 ms after the last heartbeat. -/
theorem wit_TwinPairs :
    (pstateOf (sMon [(1023, comp 1 4)] 1 1 { hb := some 0 }) = 0
      ∧ (sMon [(1023, comp 1 4)] 1 1 { hb := some 0 }).mon.comps = [(1023, comp 1 4)] ∧ mTwin (comp 1 4).man ≠ 0
      ∧ (sMon [(1023, comp 1 4)] 1 1 { hb := some 0 }).twin.state = 0
      ∧ (sMon [(1023, comp 1 4)] 1 1 { hb := some 0 }).twin.hb.isSome = true
      ∧ (sMon [(1023, comp 1 4)] 1 1 {} (2 * (1000000000 * 2 ^ 32))).twin.since + 2 * (1000000000 * 2 ^ 32) ≤ (sMon [(1023, comp 1 4)] 1 1 {} (2 * (1000000000 * 2 ^ 32))).time.dur)
    ∧ (0 : Nat) + 800 * (1000 * 2 ^ 32) ≤ (sMon [(1023, comp 1 4)] 1 1 { state := 1, hb := some 0 } (800 * (1000 * 2 ^ 32))).time.dur
      ∧ (sMon [(1023, comp 1 4)] 1 1 { state := 1, hb := some 0 }).twin.hb = some 0
      ∧ (sMon [(1023, comp 1 1 none true)] 1 1 { state := 2 }).mon.comps = [(1023, comp 1 1 none true)]
      ∧ ((comp 1 1 none true).took = true ∧ (comp 1 1 none true).state = 1) :=
  ⟨by decide +kernel, by decide +kernel⟩

theorem wit_TwinPairs_go :
    (goes (pairForm ⟨2, [], [1023], []⟩) (sMon [(1023, comp 1 4)] 1 1 { hb := some 0 }))
    ∧ (goes (pairForm ⟨2, [], [], []⟩) (sMon [(1023, comp 1 4)] 1 1 { hb := some 0 }))
    ∧ (goes (pairTimeout) (sMon [(1023, comp 1 4)] 1 1 {} (2 * (1000000000 * 2 ^ 32))))
    ∧ (goes (heartbeatLoss) (sMon [(1023, comp 1 4)] 1 1 { state := 1, hb := some 0 } (800 * (1000 * 2 ^ 32))))
    ∧ (goes (linkRestored [1023]) (sMon [(1023, comp 1 1 none true)] 1 1 { state := 2 }))
    ∧ (goes (linkRestored []) (sMon [(1023, comp 1 1 none true)] 1 1 { state := 2 })) :=
  ⟨pair_goes rfl (by decide +kernel), pair_goes rfl (by decide +kernel), goes_of (by decide +kernel), goes_of (by decide +kernel), goes_of (by decide +kernel), goes_of (by decide +kernel)⟩

theorem bank10_blank (s : State) (h : s.mem = []) : slice (bankBytes s 10) 4 1 = [0] := by
  have e : bankBytes s 10 = memRead s.mem (bankAt 10) 4096 := rfl
  rw [e, h]
  exact (by decide +kernel : slice (memRead [] (bankAt 10) (4 + 1 + 4091)) 4 1 = [0])
/-- With nothing in the banks, no role is recorded. -/
theorem wit_TwinPairs_unrecorded (s : State) (h : s.mem = []) : anchorRole s 1023 ≠ 1 := by
  rw [anchorRole_other 1023 (by rw [bank10_blank s h]; decide)]; decide
/-- The roles recorded at the last commit: compartment 1023 active here (R447, R476). -/
theorem wit_TwinPairs_recorded (s : State) (h : s.memWf = true) :
    anchorRole (bankPut 10 1 (manifestAnchors [(1023, 1, 1)]) s) 1023 = 1 := by
  unfold anchorRole
  rw [bankAnchors_bankPut 1 _ h (by decide) ⟨by decide +kernel, by decide +kernel⟩]
  decide +kernel
theorem wit_TwinPairs_pair : (sMon [(1023, comp 1 4)] 1 1 { hb := some 0 }).memWf = true
    ∧ (bankPut 10 1 (manifestAnchors [(1023, 1, 1)]) (sMon [(1023, comp 1 4)] 1 1 { hb := some 0 })).mon.comps = [(1023, comp 1 4)]
    ∧ nodeNumber (sMon [(1023, comp 1 4)] 1 1 { hb := some 0 }) = 1 := ⟨rfl, rfl, by decide +kernel⟩

theorem wit_TwinMirrors :
    (∀ x ∈ (pagePieces (4096 / 4096 + 2) 0x4000C000 4096).map (fun x => ((openGate 1 (sMon [(1023, comp 2 4)] 1 1 { state := 1 })), 0x100, x.1, x.2, Rq.write)), ∃ g, gateCheck x.1 x.2.1 x.2.2.1 x.2.2.2.1 x.2.2.2.2 = .ok g)
    ∧ (∀ x ∈ (linePieces (4096 / 64 + 2) 0x40020000 4096).map (fun x => (openGate 1 (sMon [(1023, comp 2 4)] 1 1 { state := 1 }), 0x141, x.1, x.2, Rq.write)), ∃ g, gateCheck x.1 x.2.1 x.2.2.1 x.2.2.2.1 x.2.2.2.2 = .ok g)
    ∧ (goes (takeoverRequest [1023]) (sMon [(1023, comp 1 4)] 1 1 { state := 1 }))
    ∧ (goes (mirrorApply 1023 0x40020000 [List.replicate 4096 7]) (openGate 1 (sMon [(1023, comp 2 4)] 1 1 { state := 1 })))
    ∧ (mTwin (comp 2 4).man = 2
      ∧ ((comp 2 4).objs.zip (List.range 256)).filter (fun o => oMir (comp 2 4).man o.2) = [((0x1000, 0x4000C000), 0)]
      ∧ (List.replicate 4096 (7 : Byte)).length = oBytes (comp 2 4).man 0
      ∧ (sMon [(1023, comp 2 4)] 1 1 { state := 1 }).memWf = true
      ∧ (sMon [(1023, comp 2 4)] 1 1 { state := 1 }).mon.comps = [(1023, comp 2 4)]
      ∧ (sMon [(1023, comp 1 4)] 1 1 { state := 1 }).mon.comps = [(1023, comp 1 4)])
    ∧ inRam 0x40020000 4096
      ∧ instLive (openGate 1 (sMon [(1023, comp 2 4)] 1 1 { state := 1 })) (instanceAt (openGate 1 (sMon [(1023, comp 2 4)] 1 1 { state := 1 })) 0x4000C000) = true
      ∧ inRam 0x4000C000 4096 ∧ instanceAt (openGate 1 (sMon [(1023, comp 2 4)] 1 1 { state := 1 })) 0x4000C000 = 0
      ∧ (sMon [] 1 1 { rm := 1, asked := [1023, 0], evac := true }).waits = false
      ∧ ((sMon [] 1 1 { rm := 1, asked := [1023, 0], evac := true }).twin.asked = 1023 :: [0] ∧ 1023 ∉ [0]) :=
  ⟨all_pass (by decide +kernel), all_pass (by decide +kernel), goes_of (by decide +kernel), goes_of (by decide +kernel), by decide +kernel, by unfold inRam; decide +kernel⟩

theorem wit_RemovalEvacuates :
    (∀ x ∈ ([(8, 1, (sMon [(1023, comp 0 1)] 1 3 { rm := 1 }))] : List (Nat × Nat × State)), writer x.1 x.2.1 x.2.2)
    ∧ (∀ s ∈ [(off (sMon [(1023, comp 1 1)] 1 1 { state := 1, rm := 1 })), (off (sMon [] 1 1 { state := 1, rm := 1 })),
      (off (sMon [(1023, comp 0 1)] 1 3 { rm := 1, consent := true }))], epochOver s)
    ∧ pstateOf (sMon [(1023, comp 0 1)] 1 1) = 0
      ∧ ((sMon [(1023, comp 0 1)] 1 1).twin.req = false ∧ (sMon [(1023, comp 0 1)] 1 1).twin.rm = 0 ∧ (sMon [(1023, comp 0 1)] 1 1).twin.state ≠ 1)
      ∧ ((off (sMon [(1023, comp 1 1)] 1 1 { state := 1, rm := 1 })).mon.comps = [(1023, comp 1 1)] ∧ (off (sMon [(1023, comp 1 1)] 1 1 { state := 1, rm := 1 })).twin.evac = false ∧ (off (sMon [(1023, comp 1 1)] 1 1 { state := 1, rm := 1 })).twin.asked = [])
      ∧ (mTwin (comp 1 1).man ≠ 0 ∧ (comp 1 1).state = 1)
      ∧ ((off (sMon [] 1 1 { state := 1, rm := 1 })).mon.comps = [] ∧ (off (sMon [] 1 1 { state := 1, rm := 1 })).twin.evac = false ∧ (off (sMon [] 1 1 { state := 1, rm := 1 })).twin.asked = [])
      ∧ (sMon [] 1 1 { rm := 1 }).twin.rm = 1
      ∧ ((off (sMon [(1023, comp 0 1)] 1 3 { rm := 1, consent := true })).twin.rm = 1 ∧ (off (sMon [(1023, comp 0 1)] 1 3 { rm := 1, consent := true })).twin.consent = true ∧ (off (sMon [(1023, comp 0 1)] 1 3 { rm := 1, consent := true })).twin.state ≠ 1) :=
  ⟨all_writer (by decide +kernel), all_over (by decide +kernel), by decide +kernel⟩

theorem wit_RemovalEvacuates_goes :
    (monarchGoes (epochEnd []) (off (sMon [(1023, comp 1 1)] 1 1 { state := 1, rm := 1 })))
    ∧ (monarchGoes (epochEnd []) (off (sMon [] 1 1 { state := 1, rm := 1 })))
    ∧ (monarchGoes (epochEnd []) (off (sMon [(1023, comp 0 1)] 1 3 { rm := 1, consent := true }))) :=
  ⟨goes_of (by decide +kernel), goes_of (by decide +kernel), goes_of (by decide +kernel)⟩

/-! ## Device states and the security unit -/

def sDev (cls dev : Nat) (f : State → State := id) : State := f (sMon [] cls dev)

theorem wit_DeviceStatesChange :
    (∀ x ∈ ([(8, 1, (sDev 1 0)), (8, 1, (sDev 1 1)), (8, 1, (sDev 1 2)), (8, 1, (sDev 1 3)), (8, 1, (sDev 1 4)),
      (8, 2, (sDev 2 2))] : List (Nat × Nat × State)), writer x.1 x.2.1 x.2.2)
    ∧ objNat (setObjNat 0x1010 4 1 1 (sDev 1 0)) 0x1010 4 0 = 1
      ∧ ((sDev 1 0).mon.wait = [] ∧ (sDev 1 0).dict.rstFac = 0 ∧ (sDev 1 0).mon.failed = false)
      ∧ ({ sDev 1 0 with dict := { rstFac := 1 } }).dict.rstFac ≠ 0
      ∧ ({ sDev 1 0 with dict := { dirty := [3] } }).dict.dirty ≠ []
      ∧ ((⟨true, false⟩ : NorOk).first || (⟨true, false⟩ : NorOk).second) = true :=
  ⟨all_writer (by decide +kernel), by decide +kernel⟩

/-- The lifecycle of a module as it left the factory, and of one in the field; every root's revocation bit is as the factory left it, which is free. -/
theorem wit_SecurityUnitActs :
    (∀ x ∈ ([(8, 2, (sDev 2 2)), (8, 1, (sDev 1 3))] : List (Nat × Nat × State)), writer x.1 x.2.1 x.2.2)
    ∧ (imageState { sDev 2 2 with sec := { slots := { stB := 1 } } } (otherSlot (sDev 2 2)) = 1
      ∧ imageOpen (sDev 2 2) = false ∧ (sDev 2 2).sec.slots.pending = none
      ∧ ({ sDev 2 2 with sec := { prog := some (1, [1], 8, 3) } }).sec.prog = some (1, [1], 8, 3) ∧ lcState (sDev 2 2) = 1
      ∧ lcState { sDev 2 2 with sec := { fuses := [1] } } = 2)
    ∧ hasIdentity (sDev 1 3) = true
      ∧ ({ sDev 1 3 with sec := { jobs := [.report 8 0 (List.replicate 32 1)] } }).sec.jobs = .report 8 0 (List.replicate 32 1) :: []
      ∧ ({ sDev 1 3 with sec := { jobs := [.ident 8 3] } }).sec.jobs = .ident 8 3 :: [] :=
  ⟨all_writer (by decide +kernel), by decide +kernel, by decide +kernel⟩

/-- For field security a root must be programmed and not revoked: root 0 is, once its flag is burned, in every module whose factory left
its revocation bit clear. -/
def sRoot : State := { sDev 2 2 with sec := { fuses := [8 * 0x60 + 2], op := some [1], mnt := some [2] } }
theorem wit_FieldSecure (h : Config.otp (8 * 0x60 + 3) = false) : lcState sRoot = 1 ∧ secretState sRoot = 3
    ∧ rootProg sRoot 0 = true ∧ rootRev sRoot 0 = false := by
  refine ⟨by decide +kernel, by decide +kernel, ?_, ?_⟩
  · simp [rootProg, rootFlags, otpByte, otpHeld, otpBit, sRoot, List.range, List.range.loop]
    split <;> split <;> split <;> split <;> split <;> split <;> split <;> rfl
  · simp [rootRev, rootFlags, otpByte, otpHeld, otpBit, otpMade, sRoot, List.range, List.range.loop, h]
    split <;> split <;> split <;> split <;> split <;> split <;> rfl

/-! ## The Dunzia link -/

/-- A message on CAN controller 0, padded to a CAN FD length (R495, R498). -/
def dzMsg (typ sess tid epoch flags : Nat) (p tr : List Byte) : Msg :=
  let b := dzHeader typ sess tid epoch flags p.length ++ p ++ tr
  { carrier := .can false, fd := true, len := b.length, bytes := slice b 0 (canLen b.length), dst := 0x601 }
def dzOf (m : Msg) : Dz := (dzParse m).getD ⟨0, 0, 0, 0, 0, [], [], []⟩
theorem all_well {l : List (Msg × Nat × State)}
    (h : l.all (fun x => carrierLive x.2.2 x.1.carrier && addressed x.2.2 x.1 && (x.1.carrier != .pcie || !x.1.busy)
      && decide (dzParse x.1 = some (dzOf x.1)) && (dzOf x.1).typ == x.2.1) = true) :
    ∀ x ∈ l, wellSent x.1 (dzOf x.1) x.2.1 x.2.2 := by
  intro x hx
  have h := List.all_eq_true.mp h x hx
  simp only [Bool.and_eq_true, decide_eq_true_eq, beq_iff_eq, Bool.or_eq_true, bne_iff_ne, Bool.not_eq_true'] at h
  exact ⟨h.1.1.1.1, h.1.1.1.2, fun e => h.1.1.2.resolve_left (fun n => n e), h.1.2, h.2⟩
/-- Session 8, of class 0, with transactions and an authentication in progress. -/
def dl0 (txs : List Txn := []) (auth : Option AuthSt := none) : Sess :=
  { carrier := .can false, epoch := 7, heard := 0, txs := txs, auth := auth }
/-- The same, authenticated. -/
def dlA (txs : List Txn := []) : Sess := { dl0 txs with cls := 1, keys := some ([1], [2]), rxMax := 5, rxSeen := [5] }
def sDl (x : Sess) : State :=
  { State.reset with dl := { sess := [(8, x)] }, time := { now := 10 ^ 18, dur := 10 ^ 18 }, sec := { op := some (List.replicate 32 9) } }
/-- The message is of session 8, as `x`, in its epoch. -/
def hisB (m : Msg) (x : Sess) : Bool :=
  (dzOf m).sess == 8 && decide (sessOf (sDl x) 8 = some x) && decide (x.carrier = m.carrier) && x.epoch == (dzOf m).epoch
theorem all_hear {l : List (Msg × Sess)} (h : l.all (fun x => hisB x.1 x.2 && x.2.cls == 0) = true) :
    ∀ x ∈ l, hears x.1 (dzOf x.1) 8 x.2 { x.2 with heard := (sDl x.2).time.dur } (sDl x.2) := by
  intro x hx
  have h := List.all_eq_true.mp h x hx
  simp only [hisB, Bool.and_eq_true, decide_eq_true_eq, beq_iff_eq] at h
  obtain ⟨⟨⟨⟨a, b⟩, c⟩, d⟩, e⟩ := h
  exact ⟨a.symm, b, c, d, Or.inl ⟨e, rfl⟩⟩
/-- The trailer is right, and its number acceptable (R516, R517). -/
def trailB (m : Msg) (x : Sess) : Bool :=
  let d := dzOf m
  let q := leNat (slice d.trailer 0 4)
  x.cls != 0 && decide (x.txSeq + 20 < 2 ^ 32) && decide (q < 2 ^ 32 - 1) && d.mac && seqOk x q
    && (match x.keys with | some k => decide (d.trailer = trailerOf k.1 d.hdr d.payload q) | none => false)
theorem all_hearA {l : List (Msg × Sess)} (h : l.all (fun x => hisB x.1 x.2 && trailB x.1 x.2) = true) :
    ∀ x ∈ l, ∃ y, hears x.1 (dzOf x.1) 8 x.2 y (sDl x.2) := by
  intro x hx
  have h := List.all_eq_true.mp h x hx
  simp only [hisB, trailB, Bool.and_eq_true, decide_eq_true_eq, beq_iff_eq, bne_iff_ne] at h
  obtain ⟨⟨⟨⟨a, b⟩, c⟩, d⟩, ⟨⟨⟨⟨e, f⟩, g⟩, i⟩, j⟩, k⟩ := h
  split at k
  · rename_i y hy
    exact ⟨_, a.symm, b, c, d, Or.inr ⟨e, f, y, _, hy, rfl, g, i, of_decide_eq_true k, j, rfl⟩⟩
  · cases k
theorem all_new {l : List (Msg × Sess)}
    (h : l.all (fun x => decide (∀ t ∈ x.2.txs, t.tid ≠ (dzOf x.1).tid) && decide (∀ q ∈ x.2.quar, q.tid ≠ (dzOf x.1).tid)
      && decide (x.2.txs.length < 4)) = true) : ∀ x ∈ l, newTid (dzOf x.1) x.2 := by
  intro x hx
  have h := List.all_eq_true.mp h x hx
  simp only [Bool.and_eq_true, decide_eq_true_eq] at h
  exact ⟨h.1.1, h.1.2, h.2⟩
/-- An authenticated message with sequence number 6 (R516). -/
def dzAuth (typ tid flags : Nat) (p : List Byte) : Msg :=
  dzMsg typ 8 tid 7 (2 + flags) p (trailerOf [1] (dzHeader typ 8 tid 7 (2 + flags) p.length) p 6)
def sFull (n : Nat) : State := { State.reset with dl := { sess := (List.range n).map (fun i => (i + 1, dl0)) } }
def ath : AuthSt :=
  { tid := 1, cls := 2, nh := List.replicate 16 1, nd := List.replicate 16 2, khd := [3], kdh := [4], ends := some (10 ^ 18 + 1) }

/-- The last session is free; none is. -/
theorem wit_Sessions_open :
    (∀ x ∈ ([((dzMsg 1 0 65535 0 0 (List.replicate 8 1) []), 1, (sFull 7)),
      ((dzMsg 1 0 65535 0 0 (List.replicate 8 1) []), 1, (sFull 8))] : List (Msg × Nat × State)), wellSent x.1 (dzOf x.1) x.2.1 x.2.2)
    ∧ ((dzOf (dzMsg 1 0 65535 0 0 (List.replicate 8 1) [])).sess = 0 ∧ (dzOf (dzMsg 1 0 65535 0 0 (List.replicate 8 1) [])).payload.length = 8)
      ∧ ((∀ q ∈ (sFull 7).dl.opens, ¬(q.car = .can false ∧ q.tid = (dzOf (dzMsg 1 0 65535 0 0 (List.replicate 8 1) [])).tid)))
      ∧ sessOf (sFull 7) 8 = none ∧ ((∀ k < 8, 1 ≤ k → sessOf (sFull 7) k ≠ none))
      ∧ ((∀ k < 9, 1 ≤ k → sessOf (sFull 8) k ≠ none)) :=
  ⟨all_well (by decide +kernel), by decide +kernel⟩

/-- CLOSE, PING, and PING in an authenticated session with the next number. -/
theorem wit_Sessions_close :
    (∀ x ∈ ([((dzMsg 2 8 1 7 0 [] []), 2, (sDl dl0)), ((dzMsg 3 8 1 7 0 [] []), 3, (sDl dl0)),
      ((dzAuth 3 1 0 []), 3, (sDl dlA))] : List (Msg × Nat × State)), wellSent x.1 (dzOf x.1) x.2.1 x.2.2)
    ∧ (∀ x ∈ ([((dzMsg 2 8 1 7 0 [] []), dl0), ((dzMsg 3 8 1 7 0 [] []), dl0)] : List (Msg × Sess)), hears x.1 (dzOf x.1) 8 x.2 { x.2 with heard := (sDl x.2).time.dur } (sDl x.2))
    ∧ (∀ x ∈ ([((dzAuth 3 1 0 []), dlA)] : List (Msg × Sess)), ∃ y, hears x.1 (dzOf x.1) 8 x.2 y (sDl x.2))
    ∧ (∀ x ∈ ([((dzMsg 2 8 1 7 0 [] []), dl0), ((dzMsg 3 8 1 7 0 [] []), dl0), ((dzAuth 3 1 0 []), dlA)] : List (Msg × Sess)), newTid (dzOf x.1) x.2)
    ∧ (dzOf (dzMsg 2 8 1 7 0 [] [])).payload = [] ∧ (dzOf (dzMsg 3 8 1 7 0 [] [])).payload = [] :=
  ⟨all_well (by decide +kernel), all_hear (by decide +kernel), all_hearA (by decide +kernel), all_new (by decide +kernel), by decide +kernel⟩

/-- Without and with a signature. -/
theorem wit_Sessions_auth1 :
    (∀ x ∈ ([((dzMsg 4 8 1 7 0 ([1, 1, 0, 0] ++ List.replicate 16 5) []), 4, (sDl dl0)),
      ((dzMsg 4 8 1 7 0 ([1, 1, 1, 0] ++ List.replicate 16 5) []), 4, (sDl dl0))] : List (Msg × Nat × State)), wellSent x.1 (dzOf x.1) x.2.1 x.2.2)
    ∧ (∀ x ∈ ([((dzMsg 4 8 1 7 0 ([1, 1, 0, 0] ++ List.replicate 16 5) []), dl0),
      ((dzMsg 4 8 1 7 0 ([1, 1, 1, 0] ++ List.replicate 16 5) []), dl0)] : List (Msg × Sess)), hears x.1 (dzOf x.1) 8 x.2 { x.2 with heard := (sDl x.2).time.dur } (sDl x.2))
    ∧ (∀ x ∈ ([((dzMsg 4 8 1 7 0 ([1, 1, 0, 0] ++ List.replicate 16 5) []), dl0)] : List (Msg × Sess)), newTid (dzOf x.1) x.2)
    ∧ ((dzOf (dzMsg 4 8 1 7 0 ([1, 1, 0, 0] ++ List.replicate 16 5) [])).payload.length = 20 ∧ leNat (slice (dzOf (dzMsg 4 8 1 7 0 ([1, 1, 0, 0] ++ List.replicate 16 5) [])).payload 0 3) = 1 + 1 * 2 ^ 8)
      ∧ (islandAlone (sDl dl0) = false ∧ authCount (sDl dl0) < 4 ∧ secretOf (sDl dl0) 1 = some (List.replicate 32 9) ∧ lockedOut (sDl dl0) (.can false) = false)
      ∧ leNat (slice (dzOf (dzMsg 4 8 1 7 0 ([1, 1, 1, 0] ++ List.replicate 16 5) [])).payload 0 3) = 1 + 1 * 2 ^ 8 + 2 ^ 16
      ∧ hasIdentity (sDl dl0) = true ∧ segTransfers (setSess 8 { dl0 with heard := (sDl dl0).time.dur } (sDl dl0)) < 8 :=
  ⟨all_well (by decide +kernel), all_hear (by decide +kernel), all_new (by decide +kernel), by decide +kernel⟩

/-- A right and a wrong proof, one unit of time before the keys lapse. -/
theorem wit_Sessions_auth2 :
    (∀ x ∈ ([((dzMsg 4 8 2 7 0 ([2, 0, 0, 0] ++ slice (hmac [3] (octets "host-proof" ++ List.replicate 16 2)) 0 16) []), 4, (sDl (dl0 [] (some ath)))),
      ((dzMsg 4 8 2 7 0 ([2, 0, 0, 0] ++ List.replicate 16 0) []), 4, (sDl (dl0 [] (some ath))))] : List (Msg × Nat × State)), wellSent x.1 (dzOf x.1) x.2.1 x.2.2)
    ∧ (∀ x ∈ ([((dzMsg 4 8 2 7 0 ([2, 0, 0, 0] ++ slice (hmac [3] (octets "host-proof" ++ List.replicate 16 2)) 0 16) []), (dl0 [] (some ath))),
      ((dzMsg 4 8 2 7 0 ([2, 0, 0, 0] ++ List.replicate 16 0) []), (dl0 [] (some ath)))] : List (Msg × Sess)), hears x.1 (dzOf x.1) 8 x.2 { x.2 with heard := (sDl x.2).time.dur } (sDl x.2))
    ∧ (∀ x ∈ ([((dzMsg 4 8 2 7 0 ([2, 0, 0, 0] ++ slice (hmac [3] (octets "host-proof" ++ List.replicate 16 2)) 0 16) []), (dl0 [] (some ath)))] : List (Msg × Sess)), newTid (dzOf x.1) x.2)
    ∧ leNat (slice (dzOf (dzMsg 4 8 2 7 0 ([2, 0, 0, 0] ++ slice (hmac [3] (octets "host-proof" ++ List.replicate 16 2)) 0 16) [])).payload 0 1) = 2
      ∧ (sDl (dl0 [] (some ath))).time.dur < 10 ^ 18 + 1
      ∧ slice (dzOf (dzMsg 4 8 2 7 0 ([2, 0, 0, 0] ++ slice (hmac [3] (octets "host-proof" ++ List.replicate 16 2)) 0 16) [])).payload 4 16 = slice (hmac ath.khd (octets "host-proof" ++ ath.nd)) 0 16
      ∧ slice (dzOf (dzMsg 4 8 2 7 0 ([2, 0, 0, 0] ++ List.replicate 16 0) [])).payload 4 16 ≠ slice (hmac ath.khd (octets "host-proof" ++ ath.nd)) 0 16 :=
  ⟨all_well (by decide +kernel), all_hear (by decide +kernel), all_new (by decide +kernel), by decide +kernel⟩

theorem wit_Sessions_events :
    (sessOnce (sDl dl0))
    ∧ sessOf (sDl dl0) 8 = some dl0 ∧ dl0.heard + 30000 * (1000000 * 2 ^ 32) ≤ (sDl dl0).time.dur * 1000 :=
  ⟨(by unfold sessOnce; decide +kernel), by decide +kernel⟩

def isDone (r : State × WEnd) : Bool := match r.2 with | .done => true | _ => false
theorem done_of {r : State × WEnd} (h : isDone r = true) : ∃ s1, r = (s1, .done) := by
  obtain ⟨s, w⟩ := r
  cases w <;> first | exact ⟨s, rfl⟩ | cases h
def abortsWith (r : State × WEnd) (c : Nat) : Bool := match r.2 with | .abort k => k == c | _ => false
theorem abort_of {r : State × WEnd} {c : Nat} (h : abortsWith r c = true) : ∃ s1, r = (s1, .abort c) := by
  obtain ⟨s, w⟩ := r
  cases w <;> first | (simp [abortsWith] at h; subst h; exact ⟨s, rfl⟩) | simp [abortsWith] at h
/-- A session as a write leaves it may still send, on its carrier. -/
def maySend (r : State × WEnd) : Bool :=
  match sessOf r.1 8 with
  | some z => decide (z.txSeq + 2 < 2 ^ 32) && decide (z.carrier = .can false)
  | none => false

/-- A read of an octet that is no DOMAIN, a write that is carried out, and one that is refused for its class. -/
theorem wit_Transfers_values :
    (∀ x ∈ ([((dzMsg 5 8 1 7 0 [0x10, 0x10, 1, 0] []), 5, (sDl dl0)),
      ((dzMsg 6 8 1 7 0 [0, 0x80, 2, 0, 9, 0, 0, 0] []), 6, (sDl dl0)),
      ((dzMsg 6 8 1 7 0 [1, 0x60, 1, 0, 9, 0] []), 6, (sDl dl0))] : List (Msg × Nat × State)), wellSent x.1 (dzOf x.1) x.2.1 x.2.2)
    ∧ (∀ x ∈ ([((dzMsg 5 8 1 7 0 [0x10, 0x10, 1, 0] []), dl0), ((dzMsg 6 8 1 7 0 [0, 0x80, 2, 0, 9, 0, 0, 0] []), dl0),
      ((dzMsg 6 8 1 7 0 [1, 0x60, 1, 0, 9, 0] []), dl0)] : List (Msg × Sess)), hears x.1 (dzOf x.1) 8 x.2 { x.2 with heard := (sDl x.2).time.dur } (sDl x.2))
    ∧ (∀ x ∈ ([((dzMsg 5 8 1 7 0 [0x10, 0x10, 1, 0] []), dl0), ((dzMsg 6 8 1 7 0 [0, 0x80, 2, 0, 9, 0, 0, 0] []), dl0)] : List (Msg × Sess)), newTid (dzOf x.1) x.2)
    ∧ (∃ s1, objWrite 8 (dzOf (dzMsg 6 8 1 7 0 [0, 0x80, 2, 0, 9, 0, 0, 0] [])).tid (objOf (dzOf (dzMsg 6 8 1 7 0 [0, 0x80, 2, 0, 9, 0, 0, 0] [])).payload).1 (objOf (dzOf (dzMsg 6 8 1 7 0 [0, 0x80, 2, 0, 9, 0, 0, 0] [])).payload).2 ((dzOf (dzMsg 6 8 1 7 0 [0, 0x80, 2, 0, 9, 0, 0, 0] [])).payload.drop 4) (setSess 8 { dl0 with heard := (sDl dl0).time.dur } (inbox (dzMsg 6 8 1 7 0 [0, 0x80, 2, 0, 9, 0, 0, 0] []) (sDl dl0))) = (s1, .done))
    ∧ (∃ s1, objWrite 8 (dzOf (dzMsg 6 8 1 7 0 [1, 0x60, 1, 0, 9, 0] [])).tid (objOf (dzOf (dzMsg 6 8 1 7 0 [1, 0x60, 1, 0, 9, 0] [])).payload).1 (objOf (dzOf (dzMsg 6 8 1 7 0 [1, 0x60, 1, 0, 9, 0] [])).payload).2 ((dzOf (dzMsg 6 8 1 7 0 [1, 0x60, 1, 0, 9, 0] [])).payload.drop 4) (setSess 8 { dl0 with heard := (sDl dl0).time.dur } (inbox (dzMsg 6 8 1 7 0 [1, 0x60, 1, 0, 9, 0] []) (sDl dl0))) = (s1, .abort abClass))
    ∧ ((dzOf (dzMsg 5 8 1 7 0 [0x10, 0x10, 1, 0] [])).payload.length = 4 ∧ isDomain (objOf (dzOf (dzMsg 5 8 1 7 0 [0x10, 0x10, 1, 0] [])).payload).1 (objOf (dzOf (dzMsg 5 8 1 7 0 [0x10, 0x10, 1, 0] [])).payload).2 = false)
      ∧ 4 ≤ (dzOf (dzMsg 6 8 1 7 0 [0, 0x80, 2, 0, 9, 0, 0, 0] [])).payload.length
      ∧ maySend (objWrite 8 (dzOf (dzMsg 6 8 1 7 0 [0, 0x80, 2, 0, 9, 0, 0, 0] [])).tid (objOf (dzOf (dzMsg 6 8 1 7 0 [0, 0x80, 2, 0, 9, 0, 0, 0] [])).payload).1 (objOf (dzOf (dzMsg 6 8 1 7 0 [0, 0x80, 2, 0, 9, 0, 0, 0] [])).payload).2 ((dzOf (dzMsg 6 8 1 7 0 [0, 0x80, 2, 0, 9, 0, 0, 0] [])).payload.drop 4) (setSess 8 { dl0 with heard := (sDl dl0).time.dur } (inbox (dzMsg 6 8 1 7 0 [0, 0x80, 2, 0, 9, 0, 0, 0] []) (sDl dl0)))) = true :=
  ⟨all_well (by decide +kernel), all_hear (by decide +kernel), all_new (by decide +kernel), done_of (by decide +kernel), abort_of (by decide +kernel), by decide +kernel⟩

/-- An upload of a value of one octet, and the download of a manifest of 64 octets in an authenticated session. -/
theorem wit_Transfers_open :
    (∀ x ∈ ([((dzMsg 7 8 1 7 0 [0x10, 0x10, 1, 0] []), 7, (sDl dl0)),
      ((dzAuth 8 1 0 ([0x10, 0x60, 1, 0] ++ leBytes 4 64)), 8, (sDl dlA))] : List (Msg × Nat × State)), wellSent x.1 (dzOf x.1) x.2.1 x.2.2)
    ∧ (∀ x ∈ ([((dzMsg 7 8 1 7 0 [0x10, 0x10, 1, 0] []), dl0)] : List (Msg × Sess)), hears x.1 (dzOf x.1) 8 x.2 { x.2 with heard := (sDl x.2).time.dur } (sDl x.2))
    ∧ (∀ x ∈ ([((dzAuth 8 1 0 ([0x10, 0x60, 1, 0] ++ leBytes 4 64)), dlA)] : List (Msg × Sess)), ∃ y, hears x.1 (dzOf x.1) 8 x.2 y (sDl x.2))
    ∧ (∀ x ∈ ([((dzMsg 7 8 1 7 0 [0x10, 0x10, 1, 0] []), dl0), ((dzAuth 8 1 0 ([0x10, 0x60, 1, 0] ++ leBytes 4 64)), dlA)] : List (Msg × Sess)), newTid (dzOf x.1) x.2)
    ∧ (∃ e, writeChecks (setSess 8 { dlA with heard := (sDl dlA).time.dur } (inbox (dzAuth 8 1 0 ([0x10, 0x60, 1, 0] ++ leBytes 4 64)) (sDl dlA))) 8 0x6010 1 64 none = .ok e)
    ∧ objRead (selLoad 8 (objOf (dzOf (dzMsg 7 8 1 7 0 [0x10, 0x10, 1, 0] [])).payload).1 (objOf (dzOf (dzMsg 7 8 1 7 0 [0x10, 0x10, 1, 0] [])).payload).2 (setSess 8 { dl0 with heard := (sDl dl0).time.dur } (inbox (dzMsg 7 8 1 7 0 [0x10, 0x10, 1, 0] []) (sDl dl0)))) 8 (objOf (dzOf (dzMsg 7 8 1 7 0 [0x10, 0x10, 1, 0] [])).payload).1 (objOf (dzOf (dzMsg 7 8 1 7 0 [0x10, 0x10, 1, 0] [])).payload).2 = .ok [0]
      ∧ ((dzOf (dzAuth 8 1 0 ([0x10, 0x60, 1, 0] ++ leBytes 4 64))).payload.length = 8 ∧ leNat (slice (dzOf (dzAuth 8 1 0 ([0x10, 0x60, 1, 0] ++ leBytes 4 64))).payload 4 4) = 64)
      ∧ downloading (setSess 8 { dlA with heard := (sDl dlA).time.dur } (inbox (dzAuth 8 1 0 ([0x10, 0x60, 1, 0] ++ leBytes 4 64)) (sDl dlA))) 8 0x6010 1 = false :=
  ⟨all_well (by decide +kernel), all_hear (by decide +kernel), all_hearA (by decide +kernel), all_new (by decide +kernel), ok_of (by decide +kernel), by decide +kernel⟩

/-- A download of a manifest of 128 octets, of which three segments of 32 have been received. -/
def dnl : Txn := { tid := 1, kind := 1, idx := 0x6010, sub := 1, ann := 128, next := 3, data := (man 0).take 96, last := 0 }
/-- An upload of 56 octets, of one segment, sent and resent as said. -/
def upl (r : Nat) : Txn := { tid := 1, kind := 0, data := List.replicate 52 1, sent := [(0, (0, r))] }

/-- A segment that is not the last, the last, and one just beyond the window. -/
theorem wit_Transfers_segments :
    (∀ x ∈ ([((dzAuth 9 1 0 (leBytes 4 3 ++ (man 0).drop 96)), 9, (sDl (dlA [dnl]))),
      ((dzAuth 9 1 4 (leBytes 4 3 ++ (man 0).drop 96)), 9, (sDl (dlA [dnl]))),
      ((dzAuth 9 1 0 (leBytes 4 19 ++ List.replicate 32 2)), 9, (sDl (dlA [dnl])))] : List (Msg × Nat × State)), wellSent x.1 (dzOf x.1) x.2.1 x.2.2)
    ∧ (∀ x ∈ ([((dzAuth 9 1 0 (leBytes 4 3 ++ (man 0).drop 96)), (dlA [dnl])),
      ((dzAuth 9 1 4 (leBytes 4 3 ++ (man 0).drop 96)), (dlA [dnl]))] : List (Msg × Sess)), ∃ y, hears x.1 (dzOf x.1) 8 x.2 y (sDl x.2))
    ∧ (∃ e, writeChecks (setSess 8 { (dlA [dnl]) with heard := (sDl (dlA [dnl])).time.dur } (inbox (dzAuth 9 1 0 (leBytes 4 3 ++ (man 0).drop 96)) (sDl (dlA [dnl])))) 8 0x6010 1 0 ((dnl.data.head?).map (fun o => o.toNat)) = .ok e)
    ∧ (∃ s1, objWrite 8 1 0x6010 1 (dnl.data ++ (man 0).drop 96) (setSess 8 { (dlA [dnl]) with heard := (sDl (dlA [dnl])).time.dur } (inbox (dzAuth 9 1 4 (leBytes 4 3 ++ (man 0).drop 96)) (sDl (dlA [dnl])))) = (s1, .done))
    ∧ (((∀ q ∈ (dlA [dnl]).quar, q.tid ≠ (dzOf (dzAuth 9 1 0 (leBytes 4 3 ++ (man 0).drop 96))).tid))
      ∧ txnOf (dlA [dnl]) 1 = some dnl ∧ (dnl.kind = 1 ∧ dnl.held = [] ∧ dnl.fin = none ∧ dnl.ann < 2 ^ 32)
      ∧ (entOf 0x6010 1).isSome = true
      ∧ ((dzOf (dzAuth 9 1 0 (leBytes 4 3 ++ (man 0).drop 96))).payload = leBytes 4 dnl.next ++ (man 0).drop 96 ∧ (dzOf (dzAuth 9 1 0 (leBytes 4 3 ++ (man 0).drop 96))).last = false)
      ∧ segBad (dlA [dnl]) dnl 3 false ((man 0).drop 96) = none)
    ∧ (dzOf (dzAuth 9 1 4 (leBytes 4 3 ++ (man 0).drop 96))).last = true
      ∧ segBad (dlA [dnl]) dnl 3 true ((man 0).drop 96) = none
      ∧ dnl.next + 16 ≤ leNat (slice (dzOf (dzAuth 9 1 0 (leBytes 4 19 ++ List.replicate 32 2))).payload 0 4) :=
  ⟨all_well (by decide +kernel), all_hearA (by decide +kernel), ok_of (by decide +kernel), done_of (by decide +kernel), by decide +kernel, by decide +kernel⟩

/-- The last ACK, an ABORT, a resend, the fourth, the end of a silent download, and the mailbox. -/
theorem wit_Transfers_end :
    (∀ x ∈ ([((dzMsg 10 8 1 7 0 (leBytes 4 1 ++ leBytes 4 0) []), 10, (sDl (dl0 [upl 0]))),
      ((dzMsg 12 8 1 7 0 (leBytes 4 0) []), 12, (sDl (dl0 [upl 0])))] : List (Msg × Nat × State)), wellSent x.1 (dzOf x.1) x.2.1 x.2.2)
    ∧ (∀ x ∈ ([((dzMsg 10 8 1 7 0 (leBytes 4 1 ++ leBytes 4 0) []), (dl0 [upl 0])),
      ((dzMsg 12 8 1 7 0 (leBytes 4 0) []), (dl0 [upl 0]))] : List (Msg × Sess)), hears x.1 (dzOf x.1) 8 x.2 { x.2 with heard := (sDl x.2).time.dur } (sDl x.2))
    ∧ (txnOf (dl0 [upl 0]) 1 = some (upl 0)
      ∧ ((dzOf (dzMsg 10 8 1 7 0 (leBytes 4 1 ++ leBytes 4 0) [])).payload.length = 8 ∧ leNat (slice (dzOf (dzMsg 10 8 1 7 0 (leBytes 4 1 ++ leBytes 4 0) [])).payload 0 4) = segCount { dl0 [upl 0] with heard := 10 ^ 18 } (upl 0))
      ∧ ((∃ e ∈ (upl 0).sent, e.1 + 1 = segCount { dl0 [upl 0] with heard := 10 ^ 18 } (upl 0)))
      ∧ (dzOf (dzMsg 12 8 1 7 0 (leBytes 4 0) [])).payload.length = 4 ∧ tblFind (upl 3).sent 0 = some (0, 3)
      ∧ 0 + segTimeout (.can false) ≤ (sDl (dl0 [upl 3])).time.dur)
    ∧ dnl.last + 8 * segTimeout (.can false) ≤ 10 ^ 19 ∧ sessOf (sDl dl0) 8 = some dl0
      ∧ ({ State.reset with hw := { pcie := true }, dl := { rsp := some [1], rspQ := [[2]] } }).dl.rsp = some [1] :=
  ⟨all_well (by decide +kernel), all_hear (by decide +kernel), by decide +kernel, by decide +kernel⟩

/-! ## The debug port and the module -/

/-- As the module left the factory the port is open; in the field it is closed until a token passes. Whether a token passes rests on free values. -/
theorem wit_DebugPort :
    (∀ x ∈ ([((openGate 0 State.reset), 0x3FF, 0x40000000, 16, (.dbg true)),
      ((openGate 0 State.reset), 0x3FF, 0x40000000, 8, (.dbg false))] : List (State × Nat × Nat × Nat × Rq)), ∃ g, gateCheck x.1 x.2.1 x.2.2.1 x.2.2.2.1 x.2.2.2.2 = .ok g)
    ∧ (pstateOf State.reset = 0 ∧ lcState State.reset ≠ 2
      ∧ lcState { State.reset with sec := { fuses := [1], rejects := 2 } } = 2
      ∧ tokenOk { State.reset with sec := { fuses := [1], rejects := 2 } } [] = false
      ∧ ({ State.reset with sec := { nonce := [1] } }).sec.nonce ≠ []
      ∧ memapOk { State.reset with sec := { fuses := [1] } } 0x40000000 = false)
    ∧ memapOk State.reset 0x40000008 = true ∧ 0x40000004 % (if false then 16 else 8) ≠ 0 ∧ inRam 0x40000000 16
      ∧ (poisoned (openGate 0 State.reset) 0x40000000 = false ∧ reqWaits (openGate 0 State.reset) 0x3FF 0x40000000 = false)
      ∧ memapOk (openGate 0 State.reset) 0x40000000 = true :=
  ⟨all_pass (by decide +kernel), by decide +kernel, by unfold inRam; decide +kernel⟩

def sHw (h : HwSt) : State := { State.reset with hw := h, time := { dur := 1000000000 * 2 ^ 32 }, objs := [(okey 0x300F 1, [1])] }

theorem wit_ModuleHardware :
    (∀ x ∈ (linePieces (512 / 64 + 2) 0x1000000000 512).flatMap (fun x => [(openGate 0x114 (sHw { pcie := true }), 0x140, x.1, x.2, Rq.read), (openGate 0x114 (sHw { pcie := true }), 0x140, x.1, x.2, Rq.write)]), ∃ g, gateCheck x.1 x.2.1 x.2.2.1 x.2.2.2.1 x.2.2.2.2 = .ok g)
    ∧ (((sHw { bus := false }).hw.bus = false ∧ (sHw { bus := false }).hw.busOff = none)
      ∧ ((sHw {}).hw.bus = true ∧ (sHw {}).chip.aux = true) ∧ pstateOf (sHw {}) = 0
      ∧ (0 : Nat) + 1000000000 * 2 ^ 32 ≤ (sHw { bus := false, busOff := some 0 }).time.dur
      ∧ (tblGet {} (sHw {}).hw.cages 3 : Cage).off = none
      ∧ (tblGet {} (sHw { cages := [(3, { off := some 0 })] }).hw.cages 3 : Cage).off = some 0)
    ∧ (0 : Nat) + 10 * (1000000000 * 2 ^ 32) < ({ sHw { tcxo := some 0 } with time := { dur := 10 * (1000000000 * 2 ^ 32) + 1 } }).time.dur
      ∧ laneMode (sHw {}) 15 ≠ 0 ∧ (tblGet {} (sHw {}).hw.cages (15 / 4) : Cage) = {} ∧ (sHw {}).hw.perst = true
      ∧ rangeCheck (openGate 0x114 (sHw { pcie := true })) 0x140 (0x1000000000 + 0) 512 .read = none
      ∧ ((∀ p ∈ linePieces (512 / 64 + 2) 0x1000000000 512, poisoned (openGate 0x114 (sHw { pcie := true })) p.1 = false ∧ reqWaits (openGate 0x114 (sHw { pcie := true })) 0x140 p.1 = false)) :=
  ⟨all_pass (by decide +kernel), by decide +kernel, by decide +kernel⟩

theorem wit_MemoryFormKept :
    State.reset.memWf = true ∧ completes (step State.reset) = true
      ∧ completes (exec (.storePerformed 0 0 ⟨.ok, [], .none⟩) (sSb (stE 0x40000000 8))) = true :=
  by decide +kernel

end Sys2Proof.Tests
end

section
/-! PROOFS of the statements on capabilities (chapter 2): what the operations on a capability's fields leave alone, what
bounds a rounded request decodes to, what each derivation can do, and the state right after reset. -/

namespace Sys2Proof.Machine

/-! ## Fields of the value (R50) -/

theorem capPerms_toNat (c : Cap) : (capPerms c).toNat = c.hi.toNat / 2 ^ 52 := by
  have := c.hi.isLt
  simp only [capPerms, BitVec.extractLsb'_toNat, Nat.shiftRight_eq_div_pow]
  omega

theorem capOtype_toNat (c : Cap) : (capOtype c).toNat = c.hi.toNat / 2 ^ 40 % 2 ^ 12 := by
  simp only [capOtype, BitVec.extractLsb'_toNat, Nat.shiftRight_eq_div_pow]

theorem capBm_lt (c : Cap) : capBm c < 2 ^ 14 := Nat.mod_lt _ (by decide)

theorem capFw_eq (c : Cap) : capFw c = decide (c.hi.toNat % 2 = 1) := by
  simp [capFw, BitVec.getLsbD, Nat.testBit_zero]

/-! The upper word is a variable here: against the one that an operation computes, the kernel would evaluate it. -/

theorem withHi_addr (c : Cap) (h : W) : { c with hi := h }.addr = c.addr := rfl

theorem withHi_tag (c : Cap) (h : W) : { c with hi := h }.tag = c.tag := rfl

/-- Bounds are decoded from the address and the low 40 bits of the upper word alone (R53). -/
theorem bounds_congr {c d : Cap} (ha : c.addr = d.addr) (hh : c.hi.toNat % 2 ^ 40 = d.hi.toNat % 2 ^ 40) :
    capBase c = capBase d ∧ capTop c = capTop d := by
  have hbm : capBm c = capBm d := by simp only [capBm, fld]; omega
  have htm : capTm c = capTm d := by simp only [capTm, fld]; omega
  have hexp : capExp c = capExp d := by simp only [capExp, fld]; omega
  have hfw : capFw c = capFw d := by simp only [capFw_eq]; congr 2; omega
  have hbase : capBase c = capBase d := by simp only [capBase, ha, hbm, hexp]
  exact ⟨hbase, by simp only [capTop, capLen, hbase, hbm, htm, hexp, hfw]⟩

/-! ### Another otype -/

theorem capWithOtype_hi (c : Cap) (t : BitVec 12) : (capWithOtype c t).hi.toNat =
    c.hi.toNat / 2 ^ 52 * 2 ^ 52 + t.toNat * 2 ^ 40 + c.hi.toNat % 2 ^ 40 := by
  have := c.hi.isLt
  have := t.isLt
  simp only [capWithOtype, wd, BitVec.toNat_ofNat]
  omega

@[simp] theorem capWithOtype_tag (c : Cap) (t : BitVec 12) : (capWithOtype c t).tag = c.tag :=
  withHi_tag c _

@[simp] theorem capWithOtype_addr (c : Cap) (t : BitVec 12) : (capWithOtype c t).addr = c.addr :=
  withHi_addr c _

theorem capWithOtype_bounds (c : Cap) (t : BitVec 12) :
    capBase (capWithOtype c t) = capBase c ∧ capTop (capWithOtype c t) = capTop c := by
  refine bounds_congr (capWithOtype_addr c t) ?_
  have := t.isLt
  rw [capWithOtype_hi]
  omega

@[simp] theorem capWithOtype_base (c : Cap) (t : BitVec 12) : capBase (capWithOtype c t) = capBase c :=
  (capWithOtype_bounds c t).1

@[simp] theorem capWithOtype_top (c : Cap) (t : BitVec 12) : capTop (capWithOtype c t) = capTop c :=
  (capWithOtype_bounds c t).2

@[simp] theorem capWithOtype_perms (c : Cap) (t : BitVec 12) : capPerms (capWithOtype c t) = capPerms c := by
  apply BitVec.eq_of_toNat_eq
  have := t.isLt
  rw [capPerms_toNat, capPerms_toNat, capWithOtype_hi]
  omega

/-! ### Other permissions -/

theorem capWithPerms_hi (c : Cap) (p : BitVec 12) : (capWithPerms c p).hi.toNat =
    c.hi.toNat % 2 ^ 52 + p.toNat * 2 ^ 52 := by
  have := p.isLt
  simp only [capWithPerms, wd, BitVec.toNat_ofNat]
  omega

@[simp] theorem capWithPerms_tag (c : Cap) (p : BitVec 12) : (capWithPerms c p).tag = c.tag :=
  withHi_tag c _

@[simp] theorem capWithPerms_addr (c : Cap) (p : BitVec 12) : (capWithPerms c p).addr = c.addr :=
  withHi_addr c _

theorem capWithPerms_bounds (c : Cap) (p : BitVec 12) :
    capBase (capWithPerms c p) = capBase c ∧ capTop (capWithPerms c p) = capTop c := by
  refine bounds_congr (capWithPerms_addr c p) ?_
  rw [capWithPerms_hi]
  omega

@[simp] theorem capWithPerms_base (c : Cap) (p : BitVec 12) : capBase (capWithPerms c p) = capBase c :=
  (capWithPerms_bounds c p).1

@[simp] theorem capWithPerms_top (c : Cap) (p : BitVec 12) : capTop (capWithPerms c p) = capTop c :=
  (capWithPerms_bounds c p).2

@[simp] theorem capWithPerms_perms (c : Cap) (p : BitVec 12) : capPerms (capWithPerms c p) = p := by
  apply BitVec.eq_of_toNat_eq
  rw [capPerms_toNat, capWithPerms_hi]
  omega

/-! ### Another address -/

/-- The base in units of 2^exp, from the address in these units and the base's low 14 bits (R53). -/
def baseUnits (x bm : Nat) : Int := ((x / 2 ^ 14 : Nat) - (if bm ≤ x % 2 ^ 14 then 0 else 1) : Int) * 2 ^ 14 + bm

theorem capBase_eq_baseUnits (c : Cap) :
    capBase c = baseUnits (c.addr.toNat / 2 ^ capExp c) (capBm c) * 2 ^ capExp c := by
  simp only [capBase, baseUnits, Nat.div_div_eq_div_mul, ← Nat.pow_add, Int.pow_add]
  split <;> ring

/-- Addresses in one representable region have one base. -/
theorem baseUnits_eq_of_mem {x y bm : Nat} (hbm : bm < 2 ^ 14) (hl : baseUnits x bm ≤ y)
    (hu : (y : Int) < baseUnits x bm + 2 ^ 14) : baseUnits y bm = baseUnits x bm := by
  -- Each side's page number is the one for which the region that starts there holds `y`.
  simp only [baseUnits] at *
  omega

theorem baseUnits_self (x : Nat) : baseUnits x (x % 2 ^ 14) = x := by
  simp only [baseUnits, le_refl, if_true]
  omega

/-- Inside the representable region a capability keeps its base (R54). -/
theorem capBase_capSetAddr {c : Cap} {a : W} (h : capRepresentable c a.toNat = true) :
    capBase (capSetAddr c a) = capBase c := by
  simp only [capRepresentable, Bool.and_eq_true, decide_eq_true_eq, capBase_eq_baseUnits c] at h
  obtain ⟨hl, hu⟩ := h
  rw [capBase_eq_baseUnits, capBase_eq_baseUnits c]
  change baseUnits (a.toNat / 2 ^ capExp c) (capBm c) * _ = _
  have hpos : (0 : Int) < 2 ^ capExp c := by positivity
  congr 1
  refine baseUnits_eq_of_mem (capBm_lt c) ?_ ?_
  · push_cast
    exact (Int.le_ediv_iff_mul_le hpos).2 hl
  · push_cast
    refine (Int.ediv_lt_iff_lt_mul hpos).2 (hu.trans_eq ?_)
    ring

theorem capTop_capSetAddr {c : Cap} {a : W} (h : capRepresentable c a.toNat = true) :
    capTop (capSetAddr c a) = capTop c := by
  simp only [capTop, capBase_capSetAddr h]
  rfl

@[simp] theorem capSetAddr_perms (c : Cap) (a : W) : capPerms (capSetAddr c a) = capPerms c := rfl

theorem capSetAddr_tag (c : Cap) (a : W) : (capSetAddr c a).tag = (c.tag && capRepresentable c a.toNat) := rfl

/-! ## Rounded bounds (R55, R56) -/

/-- A length fits the exponent that R55 gives it. -/
theorem le_two_pow_expFor (len : Nat) : len ≤ 2 ^ (expFor len + 14) := by
  unfold expFor
  split
  · simpa using ‹len ≤ 16384›
  · have h := Nat.lt_log2_self (n := len - 1)
    have : 14 ≤ Nat.log2 (len - 1) := (Nat.le_log2 (by omega)).2 (by omega)
    rw [Nat.sub_add_cancel (by omega)]
    omega

theorem expFor_le {len : Nat} (h : len < 2 ^ 64) : expFor len ≤ 50 := by
  unfold expFor
  split
  · omega
  · have : Nat.log2 (len - 1) < 64 := (Nat.log2_lt (by omega)).2 (by omega)
    omega

/-- The rounded length exceeds the request by less than two units. -/
theorem roundAt_length_lt (e base len : Nat) :
    (roundAt e base len).2 - (roundAt e base len).1 < len + 2 * 2 ^ e := by
  have hpos : 0 < 2 ^ e := Nat.two_pow_pos e
  have hb := Nat.lt_div_mul_add (a := base) hpos
  have ht := Nat.div_mul_le_self (base + len + 2 ^ e - 1) (2 ^ e)
  simp only [roundAt]
  omega

/-- A request of at most half of the largest length of an exponent fits when rounded at it. -/
theorem roundAt_fits {e len : Nat} (base : Nat) (h : len ≤ 2 ^ (e + 13)) :
    (roundAt e base len).2 - (roundAt e base len).1 ≤ 2 ^ (e + 14) := by
  have := roundAt_length_lt e base len
  have h13 : 2 ^ (e + 13) = 8192 * 2 ^ e := by rw [Nat.pow_add]; omega
  have h14 : 2 ^ (e + 14) = 16384 * 2 ^ e := by rw [Nat.pow_add]; omega
  omega

/-- The rounding ends at an exponent of six bits at which the rounded length fits (R56). -/
theorem bndOf_fits (base : Nat) {len : Nat} (h : len < 2 ^ 64) : ∃ e < 64, bndOf base len = (e, roundAt e base len)
    ∧ (roundAt e base len).2 - (roundAt e base len).1 ≤ 2 ^ (e + 14) := by
  have he := expFor_le h
  have hfit := roundAt_fits (e := expFor len + 1) base (le_two_pow_expFor len)
  simp only [bndOf, roundBounds]
  split
  · exact ⟨expFor len + 1, by omega, by rw [if_neg (by omega)], hfit⟩
  · exact ⟨expFor len, by omega, rfl, by omega⟩

theorem b2n_le_one (b : Bool) : b2n b ≤ 1 := by cases b <;> decide

theorem capHi_toNat (perms otype : BitVec 12) (exp tm bm : Nat) (fw : Bool) : (capHi perms otype exp tm bm fw).toNat =
    perms.toNat * 2 ^ 52 + otype.toNat * 2 ^ 40 + exp % 64 * 2 ^ 34 + tm % 2 ^ 14 * 2 ^ 20 + bm % 2 ^ 14 * 2 ^ 6
      + b2n fw := by
  have := perms.isLt
  have := otype.isLt
  have := b2n_le_one fw
  simp only [capHi, wd, BitVec.toNat_ofNat]
  omega

section
variable (c : Cap) (e base top : Nat)

@[simp] theorem capWithBounds_addr : (capWithBounds c e base top).addr = c.addr :=
  withHi_addr c _

@[simp] theorem capWithBounds_perms : capPerms (capWithBounds c e base top) = capPerms c := by
  apply BitVec.eq_of_toNat_eq
  have := (capOtype c).isLt
  have := b2n_le_one (decide (top - base = 2 ^ (e + 14)))
  rw [capPerms_toNat, capWithBounds, capHi_toNat]
  omega

theorem capWithBounds_exp : capExp (capWithBounds c e base top) = e % 64 := by
  have := b2n_le_one (decide (top - base = 2 ^ (e + 14)))
  simp only [capExp, fld, capWithBounds, capHi_toNat]
  omega

theorem capWithBounds_bm : capBm (capWithBounds c e base top) = base / 2 ^ e % 2 ^ 14 := by
  have := b2n_le_one (decide (top - base = 2 ^ (e + 14)))
  simp only [capBm, fld, capWithBounds, capHi_toNat]
  omega

theorem capWithBounds_tm : capTm (capWithBounds c e base top) = top / 2 ^ e % 2 ^ 14 := by
  have := b2n_le_one (decide (top - base = 2 ^ (e + 14)))
  simp only [capTm, fld, capWithBounds, capHi_toNat]
  omega

theorem capWithBounds_fw : capFw (capWithBounds c e base top) = decide (top - base = 2 ^ (e + 14)) := by
  simp only [capFw_eq, capWithBounds, capHi_toNat, b2n]
  congr 1
  split <;> simp_all <;> omega

end

/-- A base encoded at an exponent at which it is aligned decodes to itself when the address lies in its first unit. -/
theorem capWithBounds_base {c : Cap} {e : Nat} (top : Nat) (he : e < 64) :
    capBase (capWithBounds c e (c.addr.toNat / 2 ^ e * 2 ^ e) top) = (c.addr.toNat / 2 ^ e * 2 ^ e : Nat) := by
  have hdiv : c.addr.toNat / 2 ^ e * 2 ^ e / 2 ^ e = c.addr.toNat / 2 ^ e := Nat.mul_div_cancel _ (Nat.two_pow_pos e)
  rw [capBase_eq_baseUnits, capWithBounds_exp, capWithBounds_bm, capWithBounds_addr, Nat.mod_eq_of_lt he, hdiv,
    baseUnits_self]
  push_cast
  rfl

theorem capWithBounds_len {c : Cap} {e b t : Nat} (he : e < 64) (hbt : b ≤ t)
    (hfit : t * 2 ^ e - b * 2 ^ e ≤ 2 ^ (e + 14)) :
    capLen (capWithBounds c e (b * 2 ^ e) (t * 2 ^ e)) = t * 2 ^ e - b * 2 ^ e := by
  have hpos : 0 < 2 ^ e := Nat.two_pow_pos e
  have hpow : 2 ^ (e + 14) = 2 ^ 14 * 2 ^ e := by rw [Nat.pow_add, Nat.mul_comm]
  have hfull : t * 2 ^ e - b * 2 ^ e = 2 ^ (e + 14) ↔ t - b = 2 ^ 14 := by
    rw [← Nat.sub_mul, hpow, Nat.mul_left_inj hpos.ne']
  rw [← Nat.sub_mul, hpow] at hfit
  have hle : t - b ≤ 2 ^ 14 := Nat.le_of_mul_le_mul_right hfit hpos
  rw [capLen, capWithBounds_exp, capWithBounds_bm, capWithBounds_tm, capWithBounds_fw, Nat.mod_eq_of_lt he,
    Nat.mul_div_cancel _ hpos, Nat.mul_div_cancel _ hpos, decide_eq_decide.2 hfull, ← Nat.sub_mul]
  by_cases heq : t - b = 2 ^ 14
  · have hmod : (t % 2 ^ 14 + 2 ^ 14 - b % 2 ^ 14) % 2 ^ 14 = 0 := by omega
    rw [hmod, decide_eq_true heq, heq, hpow]
    simp [b2n]
  · have hmod : (t % 2 ^ 14 + 2 ^ 14 - b % 2 ^ 14) % 2 ^ 14 = t - b := by omega
    rw [hmod, decide_eq_false heq]
    simp [b2n]

/-- The bounds that cap.t.bnd rounds a request to are encoded exactly (R56). -/
theorem capWithBounds_bndOf (c : Cap) (len : W) (e b t : Nat) (h : bndOf c.addr.toNat len.toNat = (e, b, t)) :
    capBase (capWithBounds c e b t) = b ∧ capTop (capWithBounds c e b t) = t := by
  obtain ⟨e', he, heq, hfit⟩ := bndOf_fits c.addr.toNat len.isLt
  obtain ⟨rfl, rfl, rfl⟩ : e = e' ∧ b = _ ∧ t = _ := by simpa [h, roundAt] using heq
  have hbt : c.addr.toNat / 2 ^ e ≤ (c.addr.toNat + len.toNat + 2 ^ e - 1) / 2 ^ e :=
    Nat.div_le_div_right (by have := Nat.two_pow_pos e; omega)
  have hbase := capWithBounds_base (c := c) ((c.addr.toNat + len.toNat + 2 ^ e - 1) / 2 ^ e * 2 ^ e) he
  refine ⟨hbase, ?_⟩
  have := Nat.mul_le_mul_right (2 ^ e) hbt
  rw [capTop, hbase, capWithBounds_len he hbt hfit]
  omega

/-! ## Derivations narrow (R68) -/

/-- `c` comes from the tagged `oc` with no bounds outside its own and no permission that it lacks. -/
def Narrows (oc c : Cap) : Prop :=
  oc.tag = true ∧ capBase oc ≤ capBase c ∧ capTop c ≤ capTop oc
    ∧ ∀ i < 12, (capPerms c).getLsbD i = true → (capPerms oc).getLsbD i = true

theorem narrows_capWithOtype {oc : Cap} (h : oc.tag = true) (t : BitVec 12) : Narrows oc (capWithOtype oc t) := by
  simp [Narrows, h]

theorem capUnsealed_perms (c : Cap) : capPerms (capUnsealed c) = capPerms c := capWithOtype_perms c 0

theorem capUnsealed_tag (c : Cap) : (capUnsealed c).tag = c.tag := capWithOtype_tag c 0

theorem narrows_capUnsealed {oc : Cap} (h : oc.tag = true) : Narrows oc (capUnsealed oc) := narrows_capWithOtype h 0

theorem narrows_capWithPerms {oc : Cap} (h : oc.tag = true) (m : BitVec 12) :
    Narrows oc (capWithPerms oc (capPerms oc &&& m)) := by
  simp +contextual [Narrows, h]

theorem narrows_capSetAddr {oc : Cap} {a : W} (h : (capSetAddr oc a).tag = true) : Narrows oc (capSetAddr oc a) := by
  rw [capSetAddr_tag, Bool.and_eq_true] at h
  obtain ⟨htag, hrep⟩ := h
  simp [Narrows, htag, capBase_capSetAddr hrep, capTop_capSetAddr hrep]

theorem Narrows.trans {a b c : Cap} (hab : Narrows a b) (hbc : Narrows b c) : Narrows a c := by
  obtain ⟨htag, hbase, htop, hperms⟩ := hab
  obtain ⟨-, hbase', htop', hperms'⟩ := hbc
  exact ⟨htag, hbase.trans hbase', htop'.trans htop, fun i hi h => hperms i hi (hperms' i hi h)⟩

/-! ### What each operation gives when it gives a capability -/

theorem derivable_none {c : Cap} (h : derivable c = none) : c.tag = true := by
  unfold derivable at h
  split at h
  · cases h
  · simpa using ‹¬(!c.tag) = true›

theorem derivable_untagged {c : Cap} (h : c.tag = false) : derivable c = some ⟨0x02, 0xA, 0⟩ := by
  simp [derivable, h, causeTag]

theorem capSetaddrOp_cap {oc c : Cap} {a : W} (h : capSetaddrOp oc a = .cap c) : c = capSetAddr oc a := by
  unfold capSetaddrOp at h
  split at h <;> cases h
  rfl

theorem capBndOp_cap {x : Bool} {oc c : Cap} {len : W} (h : capBndOp x oc len = .cap c) :
    oc.tag = true ∧ ∃ e b t, bndOf oc.addr.toNat len.toNat = (e, b, t) ∧ capBase oc ≤ b ∧ (t : Int) ≤ capTop oc
      ∧ c = capWithBounds oc e b t := by
  unfold capBndOp at h
  split at h
  · cases h
  next hd =>
    refine ⟨derivable_none hd, _, _, _, rfl, ?_⟩
    dsimp only at h
    split at h
    · cases h
    · split at h <;> cases h
      next hin =>
        simp only [Bool.or_eq_true, decide_eq_true_eq, not_or, not_lt] at hin
        exact ⟨hin.1, hin.2, rfl⟩

theorem capAndpermOp_cap {oc c : Cap} {m : W} (h : capAndpermOp oc m = .cap c) :
    oc.tag = true ∧ c = capWithPerms oc (capPerms oc &&& (m.extractLsb' 0 12 &&& 0x7FF)) := by
  unfold capAndpermOp at h
  split at h <;> cases h
  next hd => exact ⟨derivable_none hd, by rw [BitVec.and_assoc]⟩

theorem capSealOp_cap {oc au c : Cap} (h : capSealOp oc au = .cap c) :
    oc.tag = true ∧ c = capWithOtype oc (au.addr.extractLsb' 0 12) := by
  unfold capSealOp at h
  split_ifs at h with htag
  cases h
  exact ⟨by simpa using htag, rfl⟩

theorem capUnsealOp_cap {oc au c : Cap} (h : capUnsealOp oc au = .cap c) :
    oc.tag = true ∧ ∃ m, c = capWithPerms (capUnsealed oc) (capPerms oc &&& m) := by
  unfold capUnsealOp at h
  split at h
  · cases h
  next htag =>
    refine ⟨by simpa using htag, if capHas au permGL then BitVec.allOnes 12 else ~~~ permGL, ?_⟩
    dsimp only at h
    split_ifs at h ⊢ <;> cases h
    · rw [BitVec.and_allOnes]
    · rfl

theorem capLandOp_cap {oc c : Cap} (h : capLandOp oc = .cap c) : oc.tag = true ∧ c = capWithOtype oc otypeEntry := by
  unfold capLandOp at h
  split at h
  · cases h
  next hd =>
    dsimp only at h
    split_ifs at h
    cases h
    exact ⟨derivable_none hd, rfl⟩

theorem capChkOp_word (oc : Cap) (t : W) : ∃ w, capChkOp oc t = .word w := by
  unfold capChkOp
  dsimp only
  split <;> exact ⟨_, rfl⟩

theorem capBndOp_narrows {x : Bool} {oc c : Cap} {len : W} (h : capBndOp x oc len = .cap c) : Narrows oc c := by
  obtain ⟨htag, e, b, t, hbnd, hb, ht, rfl⟩ := capBndOp_cap h
  obtain ⟨hbase, htop⟩ := capWithBounds_bndOf oc len e b t hbnd
  simp [Narrows, htag, hbase, htop, hb, ht]

theorem capUnsealOp_narrows {oc au c : Cap} (h : capUnsealOp oc au = .cap c) : Narrows oc c := by
  obtain ⟨htag, m, rfl⟩ := capUnsealOp_cap h
  rw [← capUnsealed_perms oc]
  exact (narrows_capUnsealed htag).trans (narrows_capWithPerms ((capUnsealed_tag oc).trans htag) m)

/-- A tagged result of any cap operation narrows its operand (R68). -/
theorem capOp_narrows {op : CapOp} {oc tc c : Cap} {td : W} (h : capOp op oc td tc = .cap c) (hc : c.tag = true) :
    Narrows oc c := by
  cases op
  case setaddr => rw [capSetaddrOp_cap h] at hc ⊢; exact narrows_capSetAddr hc
  case incaddr => rw [capSetaddrOp_cap h] at hc ⊢; exact narrows_capSetAddr hc
  case bnd => exact capBndOp_narrows h
  case bnde => exact capBndOp_narrows h
  case andperm => obtain ⟨htag, rfl⟩ := capAndpermOp_cap h; exact narrows_capWithPerms htag _
  case land => obtain ⟨htag, rfl⟩ := capLandOp_cap h; exact narrows_capWithOtype htag _
  case chk => obtain ⟨w, hw⟩ := capChkOp_word oc td; cases h.symm.trans hw
  -- cap.t.seal and cap.t.unseal, whose names are keywords of Lean and cannot stand after `case`.
  · obtain ⟨htag, rfl⟩ := capSealOp_cap h; exact narrows_capWithOtype htag _
  · exact capUnsealOp_narrows h
  -- The other read-only operations give words, never a capability.
  all_goals cases h

/-! ### Untagged operands (R69) -/

theorem capSetaddrOp_untagged {oc : Cap} (a : W) (h : oc.tag = false) :
    ∃ c, capSetaddrOp oc a = .cap c ∧ c.tag = false := by
  refine ⟨capSetAddr oc a, ?_, by simp [capSetAddr_tag, h]⟩
  simp [capSetaddrOp, h]

/-- The address operations accept an untagged operand. -/
theorem capOp_address_untagged {op : CapOp} {oc : Cap} (td : W) (tc : Cap) (hop : op ∈ [CapOp.setaddr, .incaddr])
    (h : oc.tag = false) : ∃ c, capOp op oc td tc = .cap c ∧ c.tag = false := by
  simp only [List.mem_cons, List.not_mem_nil, or_false] at hop
  rcases hop with rfl | rfl
  · exact capSetaddrOp_untagged td h
  · exact capSetaddrOp_untagged (oc.addr + td) h

/-- The read-only operations never fault. -/
theorem capOp_readonly_word {op : CapOp} (oc : Cap) (td : W) (tc : Cap)
    (hop : op ∈ [CapOp.grain, .cover, .getbase, .getlen, .getmeta, .subset, .chk]) :
    ∃ w, capOp op oc td tc = .word w := by
  simp only [List.mem_cons, List.not_mem_nil, or_false] at hop
  rcases hop with rfl | rfl | rfl | rfl | rfl | rfl | rfl
  case inr.inr.inr.inr.inr.inr => exact capChkOp_word oc td
  all_goals exact ⟨_, rfl⟩

/-- The derivations fault with TAG on an untagged operand. -/
theorem capOp_derivation_untagged {op : CapOp} {oc : Cap} (td : W) (tc : Cap)
    (hop : op ∈ [CapOp.bnd, .bnde, .andperm, .seal, .unseal, .land]) (h : oc.tag = false) :
    capOp op oc td tc = .fail .operand ⟨0x02, 0xA, 0⟩ := by
  have hd := derivable_untagged h
  simp only [List.mem_cons, List.not_mem_nil, or_false] at hop
  rcases hop with rfl | rfl | rfl | rfl | rfl | rfl
  · simp [capOp, capBndOp, hd]
  · simp [capOp, capBndOp, hd]
  · simp [capOp, capAndpermOp, hd]
  · simp [capOp, capSealOp, h, causeTag]
  · simp [capOp, capUnsealOp, h, causeTag]
  · simp [capOp, capLandOp, hd]

/-- Sealing and unsealing a tagged operand fault with TAG on an untagged authority. -/
theorem capOp_authority_untagged {op : CapOp} {oc tc : Cap} (td : W) (hop : op ∈ [CapOp.seal, .unseal])
    (h : oc.tag = true) (ht : tc.tag = false) : capOp op oc td tc = .fail .authority ⟨0x02, 0xA, 0⟩ := by
  simp only [List.mem_cons, List.not_mem_nil, or_false] at hop
  rcases hop with rfl | rfl
  · simp [capOp, capSealOp, h, ht, causeTag]
  · simp [capOp, capUnsealOp, h, ht, causeTag]

/-- Settles O6: each derivation changes only the otype, drops permissions, moves inside the representable region, or cuts
bounds that decode as they were rounded; the untagged cases follow the order of the checks. -/
theorem capMonotonic : Obligations.CapMonotonic := by
  refine ⟨fun op oc tc c td h hc => capOp_narrows h hc, fun op oc tc td => ⟨?_, ?_, ?_⟩⟩
  · exact capOp_address_untagged td tc
  · exact capOp_readonly_word oc td tc
  · intro hop hun
    cases htag : oc.tag with
    | false => exact ⟨_, capOp_derivation_untagged td tc hop htag⟩
    | true =>
      obtain ⟨ht, hop'⟩ := hun.resolve_left (by simp [htag])
      exact ⟨_, capOp_authority_untagged td hop' htag ht⟩

/-! ## The state right after reset (R80 to R82) -/

/-- A number that a table does not list has the default value. -/
theorem tblGet_unlisted {α : Type} (d : α) {t : Tbl α} {k : Nat} (h : ∀ e ∈ t, e.1 ≠ k) : tblGet d t k = d := by
  have hf : tblFind t k = none := by
    induction t with
    | nil => rfl
    | cons e t ih =>
      obtain ⟨j, v⟩ := e
      rw [tblFind, if_neg (h _ List.mem_cons_self)]
      exact ih fun e he => h e (List.mem_cons_of_mem _ he)
  rw [tblGet, hf]
  rfl

theorem cellOf_reset_zero : cellOf State.reset 0 = rootCell := rfl

theorem cellOf_reset_other {n : Nat} (h : n ≠ 0) : cellOf State.reset n = cellBlank :=
  tblGet_unlisted _ (by simpa [State.reset] using h.symm)

theorem runBank_rootCell : runBank rootCell = rootBank := rfl

theorem bankOf_rootCell_other {b : Nat} (h : b ≠ 5) : bankOf rootCell b = {} :=
  tblGet_unlisted _ (by simpa [rootCell] using h.symm)

theorem portC_rootBank_other {p : Nat} (h : p < 0x20 ∨ 0x23 < p) : portC rootBank p = Cap.null :=
  tblGet_unlisted _ (by simp [rootBank]; omega)

/-- Settles O60: the roots are four literals, and everything else has its table's default. -/
theorem resetState : Obligations.ResetState := by
  unfold Obligations.ResetState
  simp only [cellOf_reset_zero, runBank_rootCell]
  refine ⟨reset_memWf, rfl, fun a => ⟨rfl, rfl⟩, rfl, rfl, rfl, ?mem, ?exec, ?sealing, ?sys, ?pcc,
    fun p => portC_rootBank_other, fun b => bankOf_rootCell_other, ?others⟩
  case others =>
    intro n hn
    rw [cellOf_reset_other hn]
    exact ⟨rfl, fun b => rfl⟩
  all_goals decide

end Sys2Proof.Machine
end

section
/-! PROOFS of the statement on single-cycle units (R127, R128, R135 to R137): the alu's and the shf's numbers, and a
bundle whose one move is a trigger of theirs. -/

namespace Sys2Proof.Machine

/-! ## The alu's numbers (R127, R128) -/

/-- The bits of `o` outside `t`, as a difference: nothing is borrowed. -/
theorem and_not_eq_sub_and (o t : W) : o &&& ~~~t = o - (o &&& t) := by
  have hdisj : (o &&& ~~~t) &&& (o &&& t) = 0 := by
    ext i
    cases ht : t[i] <;> simp [ht]
  have hsum : (o &&& ~~~t) + (o &&& t) = o := by
    rw [BitVec.add_eq_or_of_and_eq_zero _ _ hdisj]
    ext i
    cases ht : t[i] <;> simp [ht]
  exact BitVec.eq_sub_iff_add_eq.mpr hsum

theorem aluCompare_isSome (op : AluOp) (o t : W) : (aluCompare op o t).isSome = isCompare op := by
  cases op <;> rfl

/-- The number of a compare is its truth. -/
theorem aluNumber_of_aluCompare {op : AluOp} {o t : W} {b : Bool} (h : aluCompare op o t = some b) :
    aluNumber op o t = if b then 1 else 0 := by
  cases op
  case eq | ne => obtain rfl := Option.some.inj h; simp [aluNumber, BitVec.toNat_inj]
  case lt | ge => obtain rfl := Option.some.inj h; simp [aluNumber, BitVec.slt_eq_decide]
  case ltu | geu => obtain rfl := Option.some.inj h; simp [aluNumber, BitVec.ult_eq_decide]
  case tst | tstz =>
    obtain rfl := Option.some.inj h
    simp [aluNumber, ← BitVec.toNat_inj]
  all_goals cases h

theorem aluResult_of_aluCompare {op : AluOp} {o t : W} {b : Bool} (h : aluCompare op o t = some b) :
    aluResult op o t = wd (b2n b) := by
  cases op
  case eq | ne | lt | ltu | ge | geu | tst | tstz => obtain rfl := Option.some.inj h; rfl
  all_goals cases h

/-- The alu computes its number modulo 2^64. -/
theorem aluResult_eq_ofInt (op : AluOp) (o t : W) : aluResult op o t = BitVec.ofInt 64 (aluNumber op o t) := by
  cases hc : aluCompare op o t with
  | some b =>
    rw [aluResult_of_aluCompare hc, aluNumber_of_aluCompare hc]
    cases b <;> rfl
  | none =>
    cases op
    case add => simp [aluResult, aluNumber, BitVec.ofInt_add]
    case sub =>
      simp [aluResult, aluNumber, Int.sub_eq_add_neg, BitVec.ofInt_add, BitVec.ofInt_neg, BitVec.sub_eq_add_neg]
    case neg => simp [aluResult, aluNumber, BitVec.ofInt_neg]
    case and | or | xor => simp [aluResult, aluNumber, BitVec.ofNat_and, BitVec.ofNat_or, BitVec.ofNat_xor]
    case andn =>
      have hle : o.toNat &&& t.toNat ≤ o.toNat := Nat.and_le_left
      simp only [aluResult, aluNumber, and_not_eq_sub_and, BitVec.ofInt_natCast]
      rw [← BitVec.ofNat_sub_ofNat_of_le _ _ (by omega) hle, BitVec.ofNat_and]
      simp
    case min | max =>
      simp only [aluResult, aluNumber, BitVec.slt_iff_toInt_lt]
      split
      · next hlt => simp [hlt.le]
      · next hge => simp [not_lt.mp hge]
    case minu | maxu =>
      simp only [aluResult, aluNumber, BitVec.ult_iff_toNat_lt]
      split
      · next hlt => simp [hlt.le]
      · next hge => simp [not_lt.mp hge]
    all_goals cases hc

/-- The bank after an alu operation, told by its number (R127, R128). -/
theorem aluDo_eq_aluWrites {unit1 : Bool} {op : AluOp} {x : Ctx} {t : W} {k : Bank} (hx : x.k.x = k.x) :
    aluDo unit1 op x t k = aluWrites unit1 op t k := by
  have hport : ∀ p, portX x.k p = portX k p := fun p => by simp [portX, hx]
  have hguard : ∀ og, compareGuard og = og.toNat % 8 := fun og => by simp [compareGuard, fld]
  unfold aluDo aluWrites
  generalize (if unit1 then 0x060 else 0x040) = base
  have hcmp := aluCompare_isSome op (portX k base) t
  simp only [hport, aluResult_eq_ofInt, hguard, ← hcmp]
  cases hc : aluCompare op (portX k base) t with
  | none => simp
  | some b =>
    simp only [setGuard, aluNumber_of_aluCompare hc]
    by_cases hg : (portX k (base + 1)).toNat % 8 = 0
    · simp [hg]
    · cases b <;> simp [hg]

/-! ## The shf's numbers (R135 to R137) -/

/-! ### Shifts and rotations -/

theorem shiftLeft_eq_ofNat (o : W) (n : Nat) : o <<< n = BitVec.ofNat 64 (o.toNat * 2 ^ n) := by
  apply BitVec.eq_of_toNat_eq
  rw [BitVec.toNat_shiftLeft, Nat.shiftLeft_eq, BitVec.toNat_ofNat]

theorem ushiftRight_eq_ofNat (o : W) (n : Nat) : o >>> n = BitVec.ofNat 64 (o.toNat / 2 ^ n) := by
  apply BitVec.eq_of_toNat_eq
  rw [BitVec.toNat_ushiftRight, Nat.shiftRight_eq_div_pow, BitVec.toNat_ofNat, Nat.mod_eq_of_lt]
  exact (Nat.div_le_self _ _).trans_lt o.isLt

theorem sshiftRight_eq_ofInt (o : W) (n : Nat) : o.sshiftRight n = BitVec.ofInt 64 (o.toInt / 2 ^ n) := by
  rw [← BitVec.ofInt_toInt (x := o.sshiftRight n), BitVec.toInt_sshiftRight, Int.shiftRight_eq_div_pow]
  simp

/-- An arithmetic shift by 63 or more leaves the sign alone. -/
theorem sshiftRight_min_63 (o : W) (n : Nat) : o.sshiftRight (min n 63) = o.sshiftRight n := by
  rcases Nat.le_total n 63 with hn | hn
  · rw [min_eq_left hn]
  · rw [min_eq_right hn]
    apply BitVec.eq_of_getLsbD_eq
    intro i hi
    have hsign : ∀ k ≥ 63, (if k + i < 64 then o.getLsbD (k + i) else o.getLsbD 63) = o.getLsbD 63 := by
      intro k hk
      split
      · rw [show k + i = 63 by omega]
      · rfl
    simp only [BitVec.getLsbD_sshiftRight, BitVec.msb_eq_getLsbD_last, hsign n hn, hsign 63 le_rfl]

/-- The two parts of a rotation share no bit. -/
theorem rotate_or_eq_add {n r : Nat} (hn : n < 2 ^ 64) (hr : r ≤ 64) :
    n <<< r % 2 ^ 64 ||| n >>> (64 - r) = (n * 2 ^ r + n / 2 ^ (64 - r)) % 2 ^ 64 := by
  have hpow : 2 ^ 64 = 2 ^ (64 - r) * 2 ^ r := by rw [← Nat.pow_add, Nat.sub_add_cancel hr]
  have hhigh : n * 2 ^ r % 2 ^ 64 = 2 ^ r * (n % 2 ^ (64 - r)) := by
    rw [hpow, Nat.mul_mod_mul_right, Nat.mul_comm]
  have hlow : n / 2 ^ (64 - r) < 2 ^ r := Nat.div_lt_of_lt_mul (hpow ▸ hn)
  have hsum : 2 ^ r * (n % 2 ^ (64 - r)) + n / 2 ^ (64 - r) < 2 ^ 64 := by
    have hm : n % 2 ^ (64 - r) + 1 ≤ 2 ^ (64 - r) := Nat.mod_lt _ (by positivity)
    calc _ < 2 ^ r * (n % 2 ^ (64 - r)) + 2 ^ r := by omega
      _ = 2 ^ r * (n % 2 ^ (64 - r) + 1) := by ring
      _ ≤ 2 ^ r * 2 ^ (64 - r) := Nat.mul_le_mul_left _ hm
      _ = 2 ^ 64 := by rw [hpow, Nat.mul_comm]
  rw [Nat.shiftLeft_eq, Nat.shiftRight_eq_div_pow, hhigh, ← Nat.two_pow_add_eq_or_of_lt hlow,
    ← Nat.mod_add_mod, hhigh, Nat.mod_eq_of_lt hsum]

theorem rotateLeft_eq_ofNat (o : W) {r : Nat} (hr : r < 64) :
    o.rotateLeft r = BitVec.ofNat 64 (o.toNat * 2 ^ r + o.toNat / 2 ^ (64 - r)) := by
  apply BitVec.eq_of_toNat_eq
  rw [BitVec.toNat_rotateLeft, Nat.mod_eq_of_lt hr, rotate_or_eq_add o.isLt hr.le, BitVec.toNat_ofNat]

theorem rotateRight_eq_ofNat (o : W) {r : Nat} (hr : r < 64) :
    o.rotateRight r = BitVec.ofNat 64 (o.toNat / 2 ^ r + o.toNat * 2 ^ (64 - r)) := by
  have hrot := rotate_or_eq_add o.isLt (Nat.sub_le 64 r)
  rw [Nat.sub_sub_self hr.le] at hrot
  apply BitVec.eq_of_toNat_eq
  rw [BitVec.toNat_rotateRight, Nat.mod_eq_of_lt hr, Nat.or_comm, hrot, Nat.add_comm, BitVec.toNat_ofNat]

/-! ### Fields (R136) -/

theorem fieldOf_eq (t : W) : fieldOf t = (fieldPos t, fieldWidth t) := by
  have hpos : fld t 5 0 = t.toNat % 64 := by simp [fld]
  have hwidth : fld t 12 6 = t.toNat / 64 % 128 := rfl
  simp only [fieldOf, fieldPos, fieldWidth, hpos, hwidth, Prod.mk.injEq, true_and]
  omega

/-- The highest bit of the `w + 1` bits of `n` at `p` tells whether their number reaches 2^w. -/
theorem field_lt_iff (n p w : Nat) : n / 2 ^ p % 2 ^ (w + 1) < 2 ^ w ↔ ¬ n / 2 ^ (p + w) % 2 = 1 := by
  have htop : n / 2 ^ p % 2 ^ (w + 1) / 2 ^ w = n / 2 ^ (p + w) % 2 := by
    rw [Nat.pow_succ, Nat.mod_mul_right_div_self, Nat.div_div_eq_div_mul, ← Nat.pow_add]
  rw [← Nat.div_eq_zero_iff_lt (by positivity), htop]
  omega

theorem extsField_eq_ofInt (o om t : W) : extsField o t = BitVec.ofInt 64 (shfNumber .exts o om t) := by
  simp only [extsField, shfNumber, fieldOf_eq]
  cases fieldWidth t with
  | zero => simp [Nat.mod_one]
  | succ w =>
    have hlt := field_lt_iff o.toNat (fieldPos t) w
    simp only [Nat.add_sub_cancel, ← Nat.add_assoc, hlt]
    by_cases hbit : o.toNat / 2 ^ (fieldPos t + w) % 2 = 1
    · simp [hbit]
    · simp only [hbit, Nat.succ_ne_zero, and_false, not_false_eq_true, if_true, if_false, BitVec.ofInt_natCast]

/-- A number is what lies below a field, the field, and what lies above. -/
theorem below_field_above (n p w : Nat) :
    n = n % 2 ^ p + n / 2 ^ p % 2 ^ w * 2 ^ p + n / 2 ^ (p + w) * 2 ^ (p + w) := by
  calc n = n % 2 ^ p + 2 ^ p * (n / 2 ^ p) := (Nat.mod_add_div _ _).symm
    _ = n % 2 ^ p + 2 ^ p * (n / 2 ^ p % 2 ^ w + 2 ^ w * (n / 2 ^ p / 2 ^ w)) := by rw [Nat.mod_add_div (n / 2 ^ p)]
    _ = _ := by rw [Nat.div_div_eq_div_mul, ← Nat.pow_add]; ring

theorem insField_eq_ofNat (o om t : W) :
    insField o om t = BitVec.ofNat 64 (o.toNat % 2 ^ fieldPos t + (om.toNat % 2 ^ fieldWidth t) * 2 ^ fieldPos t
      + (o.toNat / 2 ^ (fieldPos t + fieldWidth t)) * 2 ^ (fieldPos t + fieldWidth t)) := by
  have hsplit := below_field_above o.toNat (fieldPos t) (fieldWidth t)
  simp only [insField, fieldOf_eq]
  congr 1
  omega

/-! ### Counts and bytes -/

theorem bitlen_eq_size (n : Nat) : bitlen n = Nat.size n := by
  by_cases hn : n = 0
  · simp [bitlen, hn]
  · rw [bitlen, if_neg hn]
    exact le_antisymm (Nat.lt_size.mpr (Nat.log2_self_le hn)) (Nat.size_le.mpr Nat.lt_log2_self)

/-- Of a multiple of 2^i, bit i tells whether 2^(i+1) divides it too. -/
theorem testBit_iff_of_pow_dvd {n i : Nat} (h : 2 ^ i ∣ n) : n.testBit i = true ↔ ¬ 2 ^ (i + 1) ∣ n := by
  rw [Nat.testBit_eq_decide_div_mod_eq, decide_eq_true_iff, Nat.dvd_iff_mod_eq_zero, Nat.mod_pow_succ,
    Nat.dvd_iff_mod_eq_zero.mp h, Nat.zero_add, Nat.mul_eq_zero]
  have hpos : 2 ^ i ≠ 0 := by positivity
  omega

/-- The lowest set bit stands at the exponent of 2 in the number. -/
theorem ctz64_eq_padicValNat {t : W} (ht : t ≠ 0) : ctz64 t = padicValNat 2 t.toNat := by
  have hn : t.toNat ≠ 0 := fun h => ht (BitVec.toNat_inj.mp h)
  have hdvd : ∀ i, 2 ^ i ∣ t.toNat ↔ i ≤ padicValNat 2 t.toNat :=
    fun i => Nat.pow_dvd_iff_le_padicValNat (by decide) hn
  have hbit : ∀ i ≤ padicValNat 2 t.toNat, (bit t i = true ↔ i = padicValNat 2 t.toNat) := by
    intro i hi
    rw [bit, testBit_iff_of_pow_dvd ((hdvd i).mpr hi), hdvd]
    omega
  have hlt : padicValNat 2 t.toNat < 64 := by
    by_contra hge
    exact absurd (Nat.le_of_dvd (Nat.pos_of_ne_zero hn) ((hdvd 64).mpr (by omega))) (Nat.not_le.mpr t.isLt)
  have hfind : (List.range 64).find? (fun i => bit t i) = some (padicValNat 2 t.toNat) := by
    refine List.find?_range_eq_some.mpr ⟨(hbit _ le_rfl).mpr rfl, List.mem_range.mpr hlt, fun j hj => ?_⟩
    rw [Bool.not_eq_true', Bool.eq_false_iff, Ne, hbit j hj.le]
    exact hj.ne
  rw [ctz64, hfind]
  rfl

theorem ctz64_zero : ctz64 0 = 64 := by decide

theorem popc64_eq_countP (t : W) : popc64 t = (List.range 64).countP (fun i => t.getLsbD i) := by
  rw [popc64, List.countP_eq_length_filter]
  simp only [bit, BitVec.getLsbD]

theorem leNat_append (l r : List Byte) : leNat (l ++ r) = leNat l + 256 ^ l.length * leNat r := by
  induction l with
  | nil => simp [leNat]
  | cons b l ih => simp only [List.cons_append, leNat, ih, List.length_cons]; ring

/-- Read from the other end, byte `i` of `k` has the weight of byte `k - 1 - i`. -/
theorem leNat_reverse_leBytes (k n : Nat) :
    leNat (leBytes k n).reverse
      = ((List.range k).map (fun i => n / 256 ^ i % 256 * 256 ^ (k - 1 - i))).sum := by
  induction k generalizing n with
  | zero => rfl
  | succ k ih =>
    have hexp : ∀ i, k + 1 - 1 - (i + 1) = k - 1 - i := fun i => by omega
    rw [leBytes, List.reverse_cons, leNat_append, ih, List.length_reverse, leBytes_length, List.range_succ_eq_map]
    simp only [leNat, List.map_cons, List.map_map, Function.comp_def, List.sum_cons, Nat.succ_eq_add_one, hexp,
      Nat.div_div_eq_div_mul, ← Nat.pow_succ', BitVec.toNat_ofNat, Nat.pow_zero, Nat.div_one]
    simp [Nat.mul_comm, Nat.add_comm]

theorem bswap64_eq_ofNat (t : W) :
    bswap64 t = BitVec.ofNat 64 ((List.range 8).map (fun i => t.toNat / 256 ^ i % 256 * 256 ^ (7 - i))).sum := by
  rw [bswap64, leNat_reverse_leBytes]

/-- The shf computes its number modulo 2^64. -/
theorem shfResult_eq_ofInt (op : ShfOp) (o om t : W) :
    shfResult op o om t = BitVec.ofInt 64 (shfNumber op o om t) := by
  cases op
  case exts => exact extsField_eq_ofInt o om t
  case shl =>
    simp only [shfResult, shfNumber, BitVec.ofInt_natCast, ← shiftLeft_eq_ofNat]
    exact ite_eq_right_iff.mpr fun h => (BitVec.shiftLeft_eq_zero h).symm
  case shr =>
    simp only [shfResult, shfNumber, BitVec.ofInt_natCast, ← ushiftRight_eq_ofNat]
    exact ite_eq_right_iff.mpr fun h => (BitVec.ushiftRight_eq_zero h).symm
  case sar => exact (sshiftRight_min_63 o _).trans (sshiftRight_eq_ofInt o _)
  case rol =>
    have hr := Nat.mod_lt t.toNat (y := 64) (by decide)
    simp only [shfResult, shfNumber, BitVec.ofInt_natCast, rotateLeft_eq_ofNat o hr]
  case ror =>
    have hr := Nat.mod_lt t.toNat (y := 64) (by decide)
    simp only [shfResult, shfNumber, BitVec.ofInt_natCast, rotateRight_eq_ofNat o hr]
  case ext => simp only [shfResult, shfNumber, BitVec.ofInt_natCast, extField, fieldOf_eq]
  case ins => simp only [shfResult, shfNumber, BitVec.ofInt_natCast, insField_eq_ofNat]
  case clz => simp only [shfResult, shfNumber, BitVec.ofInt_natCast, clz64, bitlen_eq_size]
  case ctz =>
    simp only [shfResult, shfNumber, BitVec.ofInt_natCast]
    split
    · rw [‹t = 0›, ctz64_zero]
    · rw [ctz64_eq_padicValNat ‹_›]
  case popc => simp only [shfResult, shfNumber, BitVec.ofInt_natCast, popc64_eq_countP]
  case bswap =>
    rw [shfNumber, BitVec.ofInt_natCast]
    exact bswap64_eq_ofNat t

/-! ## Bundles of a single-cycle unit (R123) -/

/-- The triggers of alu0, alu1 and shf, whose results are written in the bundle's cycle. -/
def isAluShf : Trig → Bool
  | .alu _ _ => true
  | .shf _ => true
  | _ => false

/-- Such a trigger has no reason for a fault (R119, R126, R134), takes no room of the store buffer, starts no block
operation and leaves the flow of control to its bundle. -/
theorem aluShf_unchecked {hub : Bool} {mv : Move} {t : Trig} (hmv : moveTrig hub mv = some t)
    (h : isAluShf t = true) (x : Ctx) (s : State) :
    moveUndef hub x mv = [] ∧ trigCheck x mv t s = (s, none) ∧ roomNeed hub x [mv] = 0
      ∧ isBlk hub mv = false ∧ movesAway hub mv = false := by
  cases t
  case alu | shf => simp [moveUndef, operandRefused, trigCheck, roomNeed, isBlk, movesAway, hmv]
  all_goals cases h

@[simp] theorem issueCell_walked (m : Iss) (s : State) : (issueCell m s).walked = (cellOf s m.core).walked := by
  obtain ⟨b, sl, h⟩ := issueCell_frame m s; rw [h]

/-- A bundle whose one move is a trigger of alu0, alu1 or shf: what the trigger makes of the running bank is written in
the bundle's cycle. -/
theorem bundleRow_aluShf {m : Iss} {dst : BitVec 10} {s : State} {t : Trig} {f : Bank → Bank} (h : Ready m dst s)
    (hk : portKind (isHub m.core) dst.toNat = .trig t) (ht : isAluShf t = true)
    (hdo : trigDo (issueCtx m dst s) (ownMove m dst s) t (issueUndo m dst s) (setCell m.core (issueCell m s) s)
      = setCell m.core (modRun f (issueCell m s)) s) :
    bundleRow dst m s = .next (afterBundle m dst s (modRun f)) := by
  have hown := own_trig (m := m) (s := s) hk
  obtain ⟨hundef, hcheck, hroom, hblk, haway⟩ :=
    aluShf_unchecked hown ht (issueCtx m dst s) (issueStart m s)
  obtain ⟨hfly, hdiv, hph, -⟩ := h.quiet
  exact bundleRow_cell h hown hundef hcheck (by simp [hroom, hasRoom]) hblk haway hdo
    (flyRetire_nil _ ((issueCell_fly m s).trans hfly))
    (npRetire_idle _ ((congrArg NpUnit.cur (issueCell_div m s)).trans hdiv)
      ((congrArg NpUnit.cur (issueCell_ph m s)).trans hph))
    ((issueCell_walked m s).trans h.calm) (issueCell_yielded m s) (issueCell_run m s)

/-- A result of the bundle's cycle is a change of the running bank, whose ports are those that the bundle found. -/
theorem write1_issueCell {m : Iss} {dst : BitVec 10} {s : State} {f g : Bank → Bank}
    (hfg : ∀ k, k.x = (issueBank m s).x → f k = g k) :
    write1 (issueCtx m dst s) f (setCell m.core (issueCell m s) s)
      = setCell m.core (modRun (fun k => markDirty 7 (g k)) (issueCell m s)) s := by
  obtain ⟨n, d, hbank⟩ := issueCell_bank m s
  have hcore : (issueCtx m dst s).core = m.core := rfl
  have hrun : (issueCtx m dst s).b = (cellOf s m.core).run := rfl
  simp only [write1, hcore, hrun, modCell_setCell, modRun, runBank, issueCell_run]
  rw [hfg _ (by rw [hbank])]

/-! ## The commands -/

theorem exec_aluInstr (unit1 : Bool) (op : AluOp) (m : Iss) (s : State) :
    exec (aluInstr unit1 op m) s = bundleRow (aluTrigPort unit1 op) m s := by
  cases op <;> cases unit1 <;> rfl

theorem exec_shfInstr (op : ShfOp) (m : Iss) (s : State) :
    exec (shfInstr op m) s = bundleRow (shfTrigPort op) m s := by
  cases op <;> rfl

/-- On cells and hub cores alike. -/
theorem portKind_aluTrigPort (hub unit1 : Bool) (op : AluOp) :
    portKind hub (aluTrigPort unit1 op).toNat = .trig (.alu unit1 op) := by
  cases op <;> cases unit1 <;> cases hub <;> rfl

/-- On cells and hub cores alike. -/
theorem portKind_shfTrigPort (hub : Bool) (op : ShfOp) :
    portKind hub (shfTrigPort op).toNat = .trig (.shf op) := by
  cases op <;> cases hub <;> rfl

theorem aluResults : AluResults := by
  intro unit1 op m s hready
  have hkind := portKind_aluTrigPort (isHub m.core) unit1 op
  rw [exec_aluInstr]
  refine bundleRow_aluShf hready hkind rfl (write1_issueCell fun k hk => ?_)
  exact aluDo_eq_aluWrites (by rw [issueCtx_k (own_trig hkind), hk])

theorem shfResults : ShfResults := by
  intro op m s hready
  have hkind := portKind_shfTrigPort (isHub m.core) op
  rw [exec_shfInstr]
  refine bundleRow_aluShf hready hkind rfl (write1_issueCell fun k hk => ?_)
  rw [issueCtx_k (own_trig hkind), shfResult_eq_ofInt]
  simp only [portX, hk]
  rfl

/-- Settles O2: the bundle's one trigger passes every check and writes its bank in the bundle's cycle, and what it
writes is its number modulo 2^64. -/
theorem singleCycleResults : Obligations.SingleCycleResults := ⟨aluResults, shfResults⟩

end Sys2Proof.Machine
end
